-- ==== Sys2Proof/Word.lean ====
section
/-! DEFINITION. The plainest words of the model. Register and object values are kept as natural numbers that hold the
value's little-endian bit pattern; a byte of memory or of a frame is a bit vector of 8 bits. -/

namespace Sys2Proof

/-- One byte of memory, of a frame or of a DOMAIN. -/
abbrev Byte := BitVec 8

end Sys2Proof
end

