-- ==== Sys2Proof/Syntax.lean ====
section
/-! DEFINITION. The commands of the block, one constructor per row of spec/opcode_table.json. The operands are what the
row's command carries: which unit it concerns, the value written, and what the outside world or the hardware reports with
it. An operand that is a written value is the value of the bytes transferred. -/

namespace Sys2Proof

/-- Where a check found an uncorrectable word, for the commands that report one: nowhere, in the band's output, or in an
input of its item (R40, R66). -/
inductive EccFault where
  | none | output | input
  deriving DecidableEq, Repr

/-- The commands. -/
inductive Instr where
  /-- OBJECT_WRITE (R319). A write to a sub-index that has no row of its own is checked for length, range and access, then stored under its Sampled rule. -/
  | objectWrite (index : Nat) (sub : Nat) (data : List Byte)
  /-- LOCKSTEP_DISAGREE (R10). The two supervisor cores disagree, so the supervisor restarts from the active bank and logs event 0x2101. -/
  | lockstepDisagree
  /-- SUPERVISOR_READY (R10). The supervisor finishes a restart or bank swap, reports READY and sends the events it held back. -/
  | supervisorReady
  /-- IT_DEFINE_ADDR (R30). An item record at a host-area address is checked and copied into the item table. -/
  | itDefineAddr (addr : Nat)
  /-- IT_DEFINE_RECORD (R30). A 128-byte item record written directly is checked and copied into the item table. -/
  | itDefineRecord (data : List Byte)
  /-- IT_CANCEL (R44). The named item is cancelled or spoiled according to its state at acknowledgement. -/
  | itCancel (id : Nat)
  /-- IT_RELEASE (R52). A HOLD item is released for admission, or the write is refused. -/
  | itRelease (id : Nat)
  /-- IT_RETIRE (R32). An item in a final state is removed from the item table. -/
  | itRetire (id : Nat)
  /-- IT_STATION_HOLD (R43). Admission to a station is stopped or resumed, and ADMITTED items are returned to COMMITTED where allowed. -/
  | itStationHold (st : Nat) (v : Nat)
  /-- IT_SELECT (R52). Selects the item that IT_RESULT reports. -/
  | itSelect (id : Nat)
  /-- ENTER_RENDERING (R34). A DEFINED item enters RENDERING once there is room in flight and in the plan pool; its bands are cut and issued. -/
  | enterRendering
  /-- COMMIT (R37). An item whose rendering, planning and window copy are complete takes its commit snapshot and enters COMMITTED. -/
  | commit (id : Nat)
  /-- ADMISSION (R41). A COMMITTED item enters ADMITTED once every admission condition holds; its profile is queued or its pick is scheduled. -/
  | admission (id : Nat)
  /-- ENTER_PRINTING (R42). A thermal item enters PRINTING at the planner tick in which its profile begins. -/
  | enterPrinting (id : Nat)
  /-- ITEM_DONE (R36). An item whose last line, feed, end action and inspection are complete reaches DONE. -/
  | itemDone (id : Nat)
  /-- BAND_INJECTION (R60). The supervisor injects ledger descriptors into cluster work queues as room appears. -/
  | bandInjection
  /-- BAND_COMPLETE (R58). A clove finishes a band; its output is checked and leaves the ledger, and the clove takes or steals its next band. -/
  | bandComplete (cl : Nat) (cv : Nat) (fault : EccFault)
  /-- REMOTE_STEAL_ATTEMPT (R62). An idle clove's 2 µs remote slot comes round and it tries to steal from another cluster. -/
  | remoteStealAttempt (cl : Nat) (cv : Nat)
  /-- CLOVE_HANG (R66). No progress mark arrives for 200 µs, so the clove is fenced and its lost band is re-issued. -/
  | cloveHang (cl : Nat) (cv : Nat)
  /-- CLOVE_PARITY_ERROR (R67). A clove parity error fences the clove and re-issues its band. -/
  | cloveParityError (cl : Nat) (cv : Nat)
  /-- SPARE_CLOVE_IN_SERVICE (R67). The spare clove finishes loading its kernel and goes into service on the adopted deque. -/
  | spareCloveInService (cl : Nat)
  /-- SRAM_WORD_UNCORRECTABLE (R69). An uncorrectable cluster SRAM word retires its granule and recovers what lay in it. -/
  | sramWordUncorrectable (cl : Nat) (off : Nat)
  /-- KERNEL_IMAGE_RELOADED (R69). The kernel image reload of a cluster completes and its cloves take bands again. -/
  | kernelImageReloaded (cl : Nat)
  /-- HEADROOM_RECOMPUTE (R65). Every 10 ms RD_HEADROOM is recomputed and compared with RD_HEADROOM_WARN. -/
  | headroomRecompute (rates : List Nat)
  /-- CLUSTER_DRAIN (R71). A cluster stops taking work and its entries are re-injected into the other clusters. -/
  | clusterDrain (cl : Nat)
  /-- CLUSTER_DRAINED (R71). A draining cluster becomes empty and reads OFF. -/
  | clusterDrained (cl : Nat)
  /-- CLUSTER_LOAD (R71). The kernel image of the selected bank is copied and checked for a cluster. -/
  | clusterLoad (cl : Nat)
  /-- KERNEL_LOAD_CHECKED (R71). The kernel copy and check end: on success the self-test begins, on failure event 0x240A is raised and the cluster returns to OFF. -/
  | kernelLoadChecked (cl : Nat)
  /-- CLUSTER_SELF_TEST_DONE (R71). The cluster self-test ends and the cluster reads READY, DEGRADED or FAULT. -/
  | clusterSelfTestDone (cl : Nat) (failed : Nat)
  /-- CLUSTER_RESUME (R71). An OFF cluster returns to service with its loaded kernel. -/
  | clusterResume (cl : Nat)
  /-- RD_GEN_SELECT (R72). Selects the kernel generation for newly rendering items, provided a cluster holds it. -/
  | rdGenSelect (gen : Nat)
  /-- PLANNING_ROUND_END (R89). All plan bands of a round report; speeds are merged and the item either completes planning, starts a new round or is cancelled. -/
  | planningRoundEnd (id : Nat)
  /-- RENDER_INPUT_WRITE (R92). A write to a rendering or planning input restarts every item of the station still RENDERING. -/
  | renderInputWrite (index : Nat) (sub : Nat) (data : List Byte)
  /-- HP_TRIM_BOUNDS (R95). New trim bounds are checked and resume frozen blocks. -/
  | hpTrimBounds (hp : Nat) (upper : Bool) (v : Nat)
  /-- HP_TRIM_UNFREEZE (R95). Every frozen trim block of the head resumes. -/
  | hpTrimUnfreeze (hp : Nat) (v : Nat)
  /-- HP_PLAN_UNFREEZE (R91). The frozen speed planner of the head resumes. -/
  | hpPlanUnfreeze (hp : Nat) (v : Nat)
  /-- HP_GAIN_RESET (R295). The pending and published gains are set to 4,096 and every dot becomes FREE. -/
  | hpGainReset (hp : Nat) (v : Nat)
  /-- GAIN_BOUNDS_WRITE (R296). A write of HP_GAIN_LOWER or HP_GAIN_UPPER resumes frozen dots. -/
  | gainBoundsWrite (hp : Nat) (upper : Bool) (v : Nat)
  /-- THERMISTOR_STALE (R96). A thermistor stale or invalid for longer than THM_STALE raises event base + 0x42. -/
  | thermistorStale (hp : Nat) (thm : Nat)
  /-- HP_MODE (R101). Enables, disables or refuses the head port interface and reads HP_CONFIG at enable. -/
  | hpMode (hp : Nat) (v : Nat)
  /-- LINE_TRIGGER (R106). A line trigger reaches a head port, which computes dot times and runs the fire sequence of the line. -/
  | lineTrigger (hp : Nat) (badWord : Bool)
  /-- ENCODER_COUNT_CHANGE (R243). A quadrature transition changes the encoder count and feeds the triggers of encoder-driven stations. -/
  | encoderCountChange (qe : Nat) (a : Bool) (b : Bool) (phase : Nat)
  /-- PEPPER_ON_TIME_TRIP (R115). A strobe held past HP_PEPPER_ON_LIMIT forces the port off and spoils the printing item. -/
  | pepperOnTimeTrip (hp : Nat) (group : Nat)
  /-- PEPPER_DUTY_TRIP (R115). Strobe duty over 10 ms exceeds the limit, forcing the port off and spoiling the printing item. -/
  | pepperDutyTrip (hp : Nat) (group : Nat)
  /-- HP_PEPPER_CLEAR (R116). Releases the pepper latch of the port. -/
  | hpPepperClear (hp : Nat) (v : Nat)
  /-- HP_PEPPER_DUTY_MAX (R123). A read returns the highest duty since the last read and starts a new measurement. -/
  | hpPepperDutyMax (hp : Nat)
  /-- HEAD_REMOVED (R118). PRES_N high for 2 µs forces the port off and acts on the station's items. -/
  | headRemoved (hp : Nat)
  /-- HEAD_PRESENT_EDGE (R120). PRES_N goes low and the insertion sequence starts, or restarts, at step 1. -/
  | headPresentEdge (hp : Nat)
  /-- HEAD_POWER_ENABLE (R120). 50 ms after the edge with PRES_N steady low, PWR_EN rises. -/
  | headPowerEnable (hp : Nat)
  /-- HEAD_ID_READ_START (R120). At 70 ms the ID read over I²C begins. -/
  | headIdReadStart (hp : Nat)
  /-- HEAD_ID_READ_DONE (R120). The ID read ends; the data and CRC are stored and the dot scan starts, or the attempt fails. -/
  | headIdReadDone (hp : Nat) (ack : Bool) (data : List Byte)
  /-- HEAD_ID_READ_RETRY (R120). 10 ms after a failed attempt the ID read is retried; after the fourth failure the port reads FAULT. -/
  | headIdReadRetry (hp : Nat)
  /-- TH_TANDEM_RESTORE (R122). Returns a fallback station to tandem mode, or is refused. -/
  | thTandemRestore (st : Nat) (v : Nat)
  /-- TH_CONFIGURED (R124). Configures a station after its checks, or unconfigures it and cancels its DEFINED items. -/
  | thConfigured (st : Nat) (v : Nat)
  /-- SCAN_STEP_START (R126). A dot resistance scan step starts at its HP_SCAN_PERIOD spacing and pulses one dot. -/
  | scanStepStart (hp : Nat)
  /-- SCAN_STEP_END (R128). A scan step ends and its resistance result, or invalid outcome, is stored. -/
  | scanStepEnd (hp : Nat)
  /-- HP_DOT_REF_TAKE (R129). Copies HP_DOT_MEASURED to HP_DOT_REF. -/
  | hpDotRefTake (hp : Nat) (v : Nat)
  /-- HP_DOT_MAP (R132). A dot map write is checked, restarts rendering items and re-evaluates port readiness. -/
  | hpDotMap (hp : Nat) (data : List Byte)
  /-- DOT_HIDING_LIMITS_WRITE (R136). A write of the hiding limits re-evaluates port readiness. -/
  | dotHidingLimitsWrite (hp : Nat) (which : Nat) (v : Nat)
  /-- TH_CAL_ITEM (R138). Arms an alignment measurement on the named item. -/
  | thCalItem (v : Nat)
  /-- TH_CAL_APPLY (R140). Transfers the latest DONE measurement into the station objects or the named set. -/
  | thCalApply (v : Nat)
  /-- CAL_LOAD (R145). Copies a working calibration set to the stage. -/
  | calLoad
  /-- CAL_SET (R143). Replaces a working calibration set with the stage and restarts rendering items that name it. -/
  | calSet
  /-- CAL_STORE (R142). Programs a working calibration set into flash as a new record. -/
  | calStore
  /-- CAL_SET_THEN_STORE (R145). Performs SET and then STORE of the stage. -/
  | calSetThenStore
  /-- CAL_STORE_DONE (R142). A calibration store completes or fails. -/
  | calStoreDone (ok : Bool)
  /-- MEDIA_AT_REST_RETURN (R155). Medium level read for 100 ms at rest takes the channel out of the out state. -/
  | mediaAtRestReturn (st : Nat)
  /-- SEEK_LIMIT (R153). No TOF within TH_SEEK_MAX lines stops the feed and holds the station. -/
  | seekLimit (st : Nat)
  /-- TH_LEARN (R154). Starts a learning feed for the media sensor. -/
  | thLearn (st : Nat) (v : Nat)
  /-- SNS_UNFREEZE (R149). Resumes a frozen threshold loop. -/
  | snsUnfreeze (st : Nat) (ch : Nat) (v : Nat)
  /-- RIBBON_WINDOW (R158). Every TH_RIB_WIN lines the spool radii are estimated and ribbon faults checked. -/
  | ribbonWindow (st : Nat)
  /-- CUT_STROKE (R162). The cut feed stops with the cut point at the blade and the cutter stroke begins. -/
  | cutStroke (st : Nat)
  /-- TH_CUT_TIMEOUT (R164). The cutter home is not seen in time and the item is spoiled with reason 9. -/
  | thCutTimeout (st : Nat)
  /-- PRESENTER_MOVE_DONE (R163). The presenter finishes its present or eject move and the item reaches DONE. -/
  | presenterMoveDone (st : Nat)
  /-- TH_PRES_TIMEOUT (R163). A presented item not taken in time is retracted into the reject path. -/
  | thPresTimeout (st : Nat)
  /-- LS_SCAN_MODE (R172). Starts or stops the scanner, reading its enable-sampled settings at start. -/
  | lsScanMode (v : Nat)
  /-- SCANNER_IDLE_STOP (R172). In auto mode, LS_SCAN_IDLE after the last SL item the scanner stops. -/
  | scannerIdleStop
  /-- SCANNER_AT_LOCK_SPEED (R173). The scanner axis reaches 95 % of target and SOS acquisition begins. -/
  | scannerAtLockSpeed
  /-- SOS_EDGE (R175). A start-of-scan edge is time-stamped; the sweep runs and lock is supervised. -/
  | sosEdge (phase : Nat) (badWord : Bool)
  /-- SOS_WINDOW_MISS (R175). An SOS window closes without an edge, so the sweep is flywheeled or the lock is lost. -/
  | sosWindowMiss (badWord : Bool)
  /-- SOS_SEARCH_TIMEOUT (R173). No SOS within LS_SOS_SEARCH turns beam 0 off for 10 ms and repeats the search. -/
  | sosSearchTimeout
  /-- LOCK_TIMEOUT (R173). No lock within LS_LOCK_TIMEOUT puts the scanner in FAULT. -/
  | lockTimeout
  /-- SL_INDEX_PULSE (R176). A polygon index pulse resets facet numbering. -/
  | slIndexPulse
  /-- EOS_EDGE (R177). An end-of-scan edge measures the scan length for its facet. -/
  | eosEdge (phase : Nat)
  /-- EOS_WINDOW_END (R177). An EOS window ends without an edge and EOS is reported missing. -/
  | eosWindowEnd
  /-- INTERLOCK_OPEN (R187). SL_INTLK_N goes high, forcing the diodes and high voltage off. -/
  | interlockOpen
  /-- INTERLOCK_CLOSED (R187). SL_INTLK_N returns low and the state awaits re-enable. -/
  | interlockClosed
  /-- LS_INTLK_REENABLE (R187). Re-enables the diodes after a closed interlock. -/
  | lsIntlkReenable (v : Nat)
  /-- LS_INTLK_ENABLE (R187). Selects whether the safety monitor acts on the interlock input. -/
  | lsIntlkEnable (v : Nat)
  /-- LS_PWR_CLEAR (R189). Releases the beam power latch and relocks the scanner. -/
  | lsPwrClear (v : Nat)
  /-- SCANNER_STOPPED (R266). The stopping scanner's ports are released and it reads STOPPED. -/
  | scannerStopped
  /-- LS_PROC_MODE (R200). Selects the process mode, starting or stopping the process. -/
  | lsProcMode (v : Nat)
  /-- PROCESS_IDLE_STOP (R203). In auto mode, LS_PROC_IDLE without an SL item stops the process. -/
  | processIdleStop
  /-- PROCESS_WARMUP_ADVANCE (R202). A warm-up condition is met and the process start sequence moves to its next step. -/
  | processWarmupAdvance
  /-- DRUM_CLEAN_END (R203). LS_DRUM_CLEAN after the stop begins, charge and discharge ramp to 0 and the axes decelerate. -/
  | drumCleanEnd
  /-- PROCESS_STOP_COMPLETE (R203). The process axes are at rest and the process enters STANDBY or OFF. -/
  | processStopComplete
  /-- HV_UPDATE (R205). Every 100 µs each high-voltage channel is regulated. -/
  | hvUpdate
  /-- HV_FAULT (R206). A channel out of tolerance or limited for HV_FAULT_TIME faults the process. -/
  | hvFault (hv : Nat)
  /-- ZERO_CROSS (R207). At a mains zero crossing the heater gates are decided and fired. -/
  | zeroCross (phase : Nat)
  /-- LS_FUS_TRIP_CLEAR (R209). Clears the fuser trip when every thermistor is cool. -/
  | lsFusTripClear (v : Nat)
  /-- HEATER_FAULT (R210). A heater that fails to warm within LS_FUS_RISE_TIME faults the fuser. -/
  | heaterFault (h : Nat)
  /-- MAINS_LOST (R210). No zero-cross edge for 25 ms faults the fuser. -/
  | mainsLost
  /-- LS_PROC_CLEAR (R210). Takes the process out of FAULT. -/
  | lsProcClear (v : Nat)
  /-- PICK_START (R213). At its scheduled moment a sheet pick begins. -/
  | pickStart
  /-- SHEET_AT_GATE (R213). The pick move ends with the registration sensor active. -/
  | sheetAtGate
  /-- GATE_RELEASE (R214). A sheet at the gate is released and its page enters PRINTING. -/
  | gateRelease
  /-- GATE_WAIT_EXPIRED (R214). SL not READY for LS_GATE_WAIT, so the sheet is released and spoiled. -/
  | gateWaitExpired
  /-- ROLLER_START (R215). The registration roller starts the sheet at t_roll. -/
  | rollerStart
  /-- JAM_LATE (R216). No leading edge reaches a stage by its late position, causing a jam stop. -/
  | jamLate (stage : Nat)
  /-- JAM_STAY (R216). No trailing edge at a stage by its expected position, causing a jam stop. -/
  | jamStay (stage : Nat)
  /-- PICK_RETRY (R216). 100 ms after a missed pick the pick is repeated, or cause 6 is declared. -/
  | pickRetry
  /-- LS_JAM_CLEAR (R218). Clears a jammed path. -/
  | lsJamClear (v : Nat)
  /-- LS_PURGE (R218). Runs the path axes to purge sheets. -/
  | lsPurge (v : Nat)
  /-- PURGE_DONE (R218). The purge distance has been run; event 0x281A carries the count. -/
  | purgeDone
  /-- AX_TABLE_BASE (R225). Moves the axis table base while every axis is disabled. -/
  | axTableBase (v : Nat)
  /-- AX_REFRESH (R227). Snapshots and checks an axis entry into its working copy at the next tick. -/
  | axRefresh (n : Nat)
  /-- PLANNING_TICK (R230). Every 20 µs the planner plans every enabled axis and finds line boundaries. -/
  | planningTick
  /-- AX_ENABLE (R247). Enables or disables an axis; an enable self-tests its ports. -/
  | axEnable (ax : Nat) (v : Nat) (fail : Option Nat) (delays : List Nat)
  /-- AX_TARGET (R232). Commands a position move. -/
  | axTarget (ax : Nat) (v : Nat)
  /-- AX_SPEED (R231). Sets S for position and velocity modes. -/
  | axSpeed (ax : Nat) (v : Nat)
  /-- AX_ACCEL (R231). Sets A for position and velocity modes. -/
  | axAccel (ax : Nat) (v : Nat)
  /-- AX_DECEL (R231). Sets D for position and velocity modes. -/
  | axDecel (ax : Nat) (v : Nat)
  /-- AX_JERK (R231). Sets J for position and velocity modes. -/
  | axJerk (ax : Nat) (v : Nat)
  /-- AX_VELOCITY (R233). Commands velocity mode. -/
  | axVelocity (ax : Nat) (v : Nat)
  /-- AX_CURRENT (R231). Commands current mode. -/
  | axCurrent (ax : Nat) (v : Nat)
  /-- AX_FOLLOW (R244). Enters or leaves step/direction following. -/
  | axFollow (ax : Nat) (v : Nat)
  /-- AX_HOME (R241). Starts homing. -/
  | axHome (ax : Nat) (v : Nat)
  /-- AX_HALT (R236). Halts the axis without losing position. -/
  | axHalt (ax : Nat) (v : Nat)
  /-- AX_STOP (R237). Stops the axis and cuts its ports. -/
  | axStop (ax : Nat) (v : Nat)
  /-- AX_CLEAR (R238). Returns a stopped axis to DISABLED. -/
  | axClear (ax : Nat) (v : Nat)
  /-- AX_GROUP (R234). Sets the axis's start group and discards its armed command. -/
  | axGroup (ax : Nat) (v : Nat)
  /-- SG_START (R235). Starts every armed member of a group at one tick. -/
  | sgStart (g : Nat) (v : Nat)
  /-- SENSE_INPUT_EDGE (R240). An accepted edge on a sense input is time-stamped and acted on by its users. -/
  | senseInputEdge (si : Nat) (high : Bool) (phase : Nat)
  /-- QE_INDEX (R243). An index edge latches the encoder count. -/
  | qeIndex (qe : Nat)
  /-- SD_STEP (R244). A step edge counts and adds a following segment. -/
  | sdStep (sd : Nat) (dir : Bool) (phase : Nat)
  /-- STEPPER_ADDRESS_UPDATE (R254). Every 1 µs each stepper's microstep address and winding set-points are updated. -/
  | stepperAddressUpdate
  /-- CHOPPER_COMPARATOR (R256). The winding current crosses a chopper threshold and the bridge switches between drive and decay. -/
  | chopperComparator (pp : Nat) (high : Bool) (phase : Nat)
  /-- MAX_ON_EXPIRED (R267). A drive phase longer than MAX_ON is drive fault 3. -/
  | maxOnExpired (pp : Nat)
  /-- CMP_DELAY_MEASURE (R257). Every 100 ms the comparator delay is measured. -/
  | cmpDelayMeasure (pp : Nat) (d : Nat)
  /-- PP_OFS_UNFREEZE (R257). Resumes the port's frozen offset loop. -/
  | ppOfsUnfreeze (pp : Nat) (v : Nat)
  /-- PHASE_PORT_FAILED (R251). A readback mismatch fails a port and stops its axis. -/
  | phasePortFailed (pp : Nat)
  /-- STANDSTILL (R258). HOLD_TIME at rest triggers the standstill action. -/
  | standstill (ax : Nat)
  /-- DC_LOOP_UPDATE (R259). Every 10 µs a brushed DC axis computes its loops. -/
  | dcLoopUpdate (ax : Nat) (speed : Int)
  /-- ACTUATOR_PULL_IN_END (R259). After HOLD_TIME an energised actuator drops to I_HOLD. -/
  | actuatorPullInEnd (ax : Nat)
  /-- PWM_PERIOD (R260). Each PWM period a field-oriented axis samples, predicts and runs its control. -/
  | pwmPeriod (ax : Nat) (currents : List Int) (angle : Nat) (rpm : Int)
  /-- HANDOVER_TIMEOUT (R264). A sensorless start not handed over in time is drive fault 5. -/
  | handoverTimeout (ax : Nat)
  /-- OBSERVER_LOST (R264). Back-EMF below half for 5 ms is drive fault 4. -/
  | observerLost (ax : Nat)
  /-- FLY_PROBE_END (R265). The flying-start probe ends and its result decides the start. -/
  | flyProbeEnd (ax : Nat) (rpm : Int)
  /-- FLY_BRAKE_TIMEOUT (R265). A reverse rotor not braked within FLY_BRAKE_MAX is drive fault 6. -/
  | flyBrakeTimeout (ax : Nat)
  /-- OVER_CURRENT (R267). A sense input above OC_LIMIT is drive fault 1. -/
  | overCurrent (pp : Nat)
  /-- DRV_FLT_N (R267). A low driver fault input is drive fault 2. -/
  | drvFltN (g : Nat)
  /-- BUS_LEVEL_CROSSING (R268). The bus crosses a warning or brake level and the bus state and chopper follow. -/
  | busLevelCrossing (bus : Nat) (mv : Nat)
  /-- BUS_OV_CUT (R271). The bus reaches its over-voltage cut and its ports go high-impedance. -/
  | busOvCut (bus : Nat)
  /-- CHOPPER_FB_TIMEOUT (R270). No chopper feedback within BUS_FB_TIME fails the chopper. -/
  | chopperFbTimeout (bus : Nat)
  /-- CHOPPER_RISE_CHECK (R270). 200 µs after switch-on a voltage rise over the tolerance fails the chopper. -/
  | chopperRiseCheck (bus : Nat)
  /-- SHORT_RELEASE (R270). A shorted axis is released to high impedance after braking. -/
  | shortRelease (ax : Nat)
  /-- BUS_CLEAR (R271). Clears an over-voltage cut. -/
  | busClear (bus : Nat) (v : Nat)
  /-- BUS_BRK_CLEAR (R270). Clears a chopper failure. -/
  | busBrkClear (bus : Nat) (v : Nat)
  /-- BUS_LEVEL_WRITE (R268). A bus level write is checked against the level order. -/
  | busLevelWrite (bus : Nat) (which : Nat) (v : Nat)
  /-- BUS_PEAK (R272). A read returns the highest bus voltage since the last read. -/
  | busPeak (bus : Nat)
  /-- CP_ENABLE (R278). Enables a camera port and its probing. -/
  | cpEnable (cp : Nat) (v : Nat)
  /-- CAMERA_PROBE (R278). Every CP_PROBE_PERIOD the camera is probed; a fit begins or a removal is declared. -/
  | cameraProbe (cp : Nat) (id : Option Nat)
  /-- CAMERA_RESET_END (R278). After reset and CP_RESET_WAIT the init list is replayed. -/
  | cameraResetEnd (cp : Nat)
  /-- CP_INIT_REPLAY_DONE (R277). The init replay ends and the receiver is armed, or the fit fails. -/
  | cpInitReplayDone (cp : Nat) (fail : Option Nat)
  /-- FRAME_TIMEOUT (R279). No frame within CP_FRAME_TIMEOUT repeats the fit or fails the port. -/
  | frameTimeout (cp : Nat)
  /-- CP_RESTART (R279). Runs the fit sequence again. -/
  | cpRestart (cp : Nat) (v : Nat)
  /-- CSI2_FRAME_START (R282). A frame start is received and time-stamped. -/
  | csi2FrameStart (cp : Nat) (num : Nat) (vc : Nat) (ecc : Nat)
  /-- CSI2_LONG_PACKET (R284). A row packet is checked and buffered. -/
  | csi2LongPacket (cp : Nat) (vc : Nat) (dt : Nat) (ecc : Nat) (crcBad : Bool) (pixels : List Nat)
  /-- CSI2_FRAME_END (R284). A frame end closes the frame with its marks. -/
  | csi2FrameEnd (cp : Nat) (vc : Nat) (ecc : Nat)
  /-- PIPELINE_FRAME_START (R283). A free pipeline takes the next waiting frame. -/
  | pipelineFrameStart (ip : Nat)
  /-- PIPELINE_FRAME_DONE (R286). A processed frame writes its statistics record. -/
  | pipelineFrameDone (ip : Nat) (missing : List Nat)
  /-- IP_MODE (R280). Sets the pipeline mode, checked. -/
  | ipMode (ip : Nat) (v : Nat)
  /-- IP_CTX_ENABLE (R280). Enables pipeline contexts, checked. -/
  | ipCtxEnable (ip : Nat) (v : Nat)
  /-- IN_CTX_RECORD (R281). Writes a checked context record for the next frame. -/
  | inCtxRecord (ctx : Nat) (data : List Byte)
  /-- INSPECTION_TIMEOUT (R289). IN_CLOSE_TIMEOUT closes an inspection. -/
  | inspectionTimeout (id : Nat)
  /-- IN_GAIN_UNFREEZE (R296). Resumes frozen gain dots. -/
  | inGainUnfreeze (hp : Nat) (v : Nat)
  /-- CP_BUF_PEAK (R297). A read returns the peak buffer fill since the last read. -/
  | cpBufPeak (cp : Nat)
  /-- SLOT_BOUNDARY (R299). Every 62.5 ns waiting conversions start on free slices. -/
  | slotBoundary (phase : Nat)
  /-- CONVERSION_COMPLETE (R300). A conversion result is computed and delivered to its consumers. -/
  | conversionComplete (slice : Nat) (raw : Nat) (phase : Nat)
  /-- CALIBRATION_ROTATION (R302). After 10 ms of calibration the anise slice enters service in rotation. -/
  | calibrationRotation (ofs : Int) (gain : Int)
  /-- RESET_CALIBRATION_END (R305). The 2 ms reset calibration ends and the subsystem reports readiness. -/
  | resetCalibrationEnd (ofs : List Int) (gain : List Int)
  /-- IN_SERVICE_CHECK (R304). Every 100 µs each slice converts the mid-scale reference. -/
  | inServiceCheck
  /-- SEQUENCE_ENTRY_DUE (R308). A sequence entry falls due and queues its conversion, or counts late. -/
  | sequenceEntryDue (entry : Nat)
  /-- URGENT_REQUEST (R309). A current sample or scan conversion is requested urgently. -/
  | urgentRequest (scan : Bool) (unit : Nat) (which : Nat) (chan : Nat) (phase : Nat) (window : Nat)
  /-- AN_SEQ_TABLE (R307). A checked sequence table replaces the old one at the next tick. -/
  | anSeqTable (data : List Byte)
  /-- AN_CH_CFG (R310). A channel configuration write, with a gain change discarding conversions. -/
  | anChCfg (ch : Nat) (v : Nat)
  /-- AN_ACC_FILTER (R312). A filter write resets the accumulator. -/
  | anAccFilter (acc : Nat) (v : Nat)
  /-- AN_ACC_RESET (R312). Resets an accumulator. -/
  | anAccReset (acc : Nat) (v : Nat)
  /-- AN_MM_RESET (R314). Resets a tracker. -/
  | anMmReset (mm : Nat) (v : Nat)
  /-- AN_MM_MAX (R314). A read returns the maximum and resets the tracker. -/
  | anMmMax (mm : Nat)
  /-- AN_SL_UNFREEZE (R303). Resumes a frozen slice calibration. -/
  | anSlUnfreeze (sl : Nat) (v : Nat)
  /-- SLICE_BOUNDS_WRITE (R303). A slice bound write is checked and resumes the slice. -/
  | sliceBoundsWrite (sl : Nat) (bound : Nat) (v : Nat)
  /-- CONVERTER_POWER_DOWN (R315). 50 µs without a conversion powers the slices down. -/
  | converterPowerDown
  /-- ETH_FRAME_RECEIVED (R329). An Ethernet frame is validated, classed and queued or dropped. -/
  | ethFrameReceived (en : Nat) (data : List Byte)
  /-- HWX_READ (R332). Hywex READ of an object. -/
  | hwxRead (en : Nat) (corr : List Nat)
  /-- HWX_WRITE (R332). Hywex WRITE of an object, segmented for DOMAINs. -/
  | hwxWrite (en : Nat)
  /-- MEM_READ (R333). Reads memory through a window. -/
  | memRead (en : Nat) (corr : List Nat)
  /-- MEM_WRITE (R333). Writes memory through a window. -/
  | memWrite (en : Nat)
  /-- EVENT_ACK (R335). Removes acknowledged event records. -/
  | eventAck (en : Nat)
  /-- HEARTBEAT (R342). A host heartbeat is received. -/
  | heartbeat (en : Nat)
  /-- PD (R341). A process data frame is received and executed. -/
  | pd (en : Nat)
  /-- OPEN (R334). Opens a session. -/
  | open (en : Nat)
  /-- CLOSE (R334). Closes a session. -/
  | close (en : Nat)
  /-- NET_STOP_ALL (R321). Stops every enabled axis and holds every station. -/
  | netStopAll (v : Nat)
  /-- EVENT_RETRY (R335). Unacknowledged TC0 events are sent again every NET_EV_RETRY. -/
  | eventRetry
  /-- EVENT_GATHER_END (R335). After 1 ms gathered TC1 events are sent. -/
  | eventGatherEnd
  /-- HEARTBEAT_SEND (R342). Every NET_HB_PERIOD a heartbeat goes to every session. -/
  | heartbeatSend
  /-- SESSION_TIMEOUT (R342). A session's heartbeat timeout lapses and the session ends. -/
  | sessionTimeout (slot : Nat)
  /-- ETH_LINK_CHANGE (R334). The Ethernet link goes up or down. -/
  | ethLinkChange (en : Nat) (speed : Nat)
  /-- ETH_ADDRESS_ASSIGNED (R328). An IPv4 address is assigned or lost. -/
  | ethAddressAssigned (en : Nat) (addr : Nat)
  /-- NET_PORT_ENABLE (R347). Enables an Ethernet port, reading its settings. -/
  | netPortEnable (en : Nat) (v : Nat)
  /-- NMT_START (R339). Makes PDOs active. -/
  | nmtStart
  /-- NMT_ENTER_PRE_OPERATIONAL (R339). Makes PDOs inactive. -/
  | nmtEnterPreOperational
  /-- NMT_STOP (R339). Leaves only NMT, heartbeat and EMCY active. -/
  | nmtStop
  /-- NMT_RESET_COMMUNICATION (R339). Reloads the CF0 communication objects and sends boot-up. -/
  | nmtResetCommunication
  /-- NMT_RESET_NODE (R339). Resets the device, or acts as reset communication. -/
  | nmtResetNode
  /-- SDO_TRANSFER (R337). An SDO or USDO transfer accesses an object. -/
  | sdoTransfer (cf : Nat) (write : Bool) (index : Nat) (sub : Nat) (count : Nat) (data : List Byte) (corr : List Nat)
  /-- SYNC (R341). A SYNC triggers synchronous TPDOs. -/
  | sync
  /-- TIME_MESSAGE (R345). A TIME message is stored. -/
  | timeMessage (data : List Byte)
  /-- RPDO (R341). A received PDO is executed as writes. -/
  | rpdo (n : Nat) (data : List Byte)
  /-- TPDO_EVENT_TIMER (R341). A TPDO event timer sends the TPDO. -/
  | tpdoEventTimer (n : Nat)
  /-- CAN_HEARTBEAT_SEND (R342). Every 0x1017 period the CANopen heartbeat is sent. -/
  | canHeartbeatSend
  /-- HOST_HEARTBEAT_LAPSE (R343). The 0x1016 host heartbeat lapses. -/
  | hostHeartbeatLapse
  /-- EMCY_RECEIVED (R337). An EMCY from a CF1 node is consumed. -/
  | emcyReceived (node : Nat) (data : List Byte)
  /-- CAN_ERROR_STATE_CHANGE (R347). The CAN error state changes. -/
  | canErrorStateChange (cf : Nat) (state : Nat) (tec : Nat) (rec : Nat)
  /-- BUS_OFF_RECOVERY (R347). After 128 × 11 recessive bits the port leaves bus off. -/
  | busOffRecovery (cf : Nat)
  /-- NET_CAN_RECOVER (R347). Leaves bus off on request. -/
  | netCanRecover (cf : Nat) (v : Nat)
  /-- NET_CAN_RESTART (R338). Restarts a CAN port's communication. -/
  | netCanRestart (cf : Nat) (v : Nat)
  /-- EV_CAN_ACK (R340). Acknowledges CF0 event records. -/
  | evCanAck (v : Nat)
  /-- MEM_CAN_DATA (R347). Transfers memory at MEM_CAN_OFFSET and advances the offset. -/
  | memCanData (cf : Nat) (win : Nat) (write : Bool) (count : Nat) (data : List Byte) (corr : List Nat)
  /-- PTP_MESSAGE (R344). A PTP message disciplines device time. -/
  | ptpMessage (en : Nat) (domain : Nat) (sync : Bool) (offset : Int)
  /-- PTP_HOLDOVER (R345). Three missed announces enter HOLDOVER. -/
  | ptpHoldover
  /-- POWER_ON (R349). Power-on resets the device. -/
  | powerOn
  /-- RESET_N (R349). A low RESET_N resets the device. -/
  | resetN (lowNs : Nat)
  /-- RESET_RELEASE (R350). Release of reset starts the boot sequence. -/
  | resetRelease (mv : Nat)
  /-- BOOT_COMPLETE (R350). The supervisor firmware reaches READY and event 0x2001 is sent. -/
  | bootComplete
  /-- DSC_CLEAR (R356). Empties a partner entry. -/
  | dscClear (v : Nat)
  /-- DSC_LSS_ASSIGN (R361). Runs an LSS assignment. -/
  | dscLssAssign (v : Nat)
  /-- LSS_ASSIGNMENT_END (R361). An LSS assignment ends with its state. -/
  | lssAssignmentEnd (result : Nat)
  /-- DSC_NMT_ASSIGN (R358). A node assignment write, checked. -/
  | dscNmtAssign (node : Nat) (v : Nat)
  /-- NODE_BOOT_UP (R360). A CF1 boot-up message enters or re-identifies the node. -/
  | nodeBootUp (node : Nat)
  /-- NODE_HEARTBEAT (R360). A CF1 node heartbeat is consumed. -/
  | nodeHeartbeat (node : Nat) (nmt : Nat)
  /-- NODE_IDENTIFY_RESPONSE (R359). A node's identity reads complete and are checked. -/
  | nodeIdentifyResponse (node : Nat) (vendor : Nat) (product : Nat) (revision : Nat) (serial : Nat)
  /-- NODE_IDENTIFY_TIMEOUT (R359). An identity read times out. -/
  | nodeIdentifyTimeout (node : Nat)
  /-- NODE_IDENTIFY_RETRY (R359). DSC_NMT_RETRY retries a timed-out node. -/
  | nodeIdentifyRetry (node : Nat)
  /-- NMT_BOOT_TIME_EXPIRED (R359). DSC_NMT_BOOT_TIME reports missing mandatory nodes. -/
  | nmtBootTimeExpired
  /-- NODE_HEARTBEAT_LAPSE (R360). A managed node's heartbeat lapses. -/
  | nodeHeartbeatLapse (node : Nat)
  /-- BANK_PROGRAM (R364). Checks and programs an image into the inactive bank. -/
  | bankProgram
  /-- BANK_PROGRAM_DONE (R364). Bank programming completes or fails. -/
  | bankProgramDone (ok : Bool) (fails : List Nat)
  /-- BANK_SWAP (R365). Swaps to the inactive bank in trial. -/
  | bankSwap
  /-- BANK_CONFIRM (R366). Confirms the trial bank. -/
  | bankConfirm
  /-- TRIAL_TIMEOUT (R366). No READY within 2 s of a swap rolls back. -/
  | trialTimeout
  /-- FLASH_PROGRAM_DONE (R373). A flash program completes or fails. -/
  | flashProgramDone (seg : Option Nat)
  /-- FLASH_ERASE_DONE (R374). A flash erase completes or fails. -/
  | flashEraseDone (fail : Option Nat)
  /-- BLOCK_REPLACED (R378). A failed block is migrated to a spare. -/
  | blockReplaced (spareFails : Bool) (bad : List Nat)
  /-- NV_OP_ERASE (R380). Erases a user block. -/
  | nvOpErase
  /-- NV_OP_PROGRAM (R380). Programs pages of a user block. -/
  | nvOpProgram
  /-- NV_WP_LO (R381). Sets write-protect bits of blocks 0–63. -/
  | nvWpLo (v : Nat)
  /-- NV_WP_HI (R381). Sets write-protect bits of blocks 64–127. -/
  | nvWpHi (v : Nat)
  /-- PROT_LOAD (R383). Copies the protected configuration to the stage. -/
  | protLoad
  /-- PROT_STORE (R383). Stores the stage as protected configuration. -/
  | protStore
  /-- NV_OTP_CUSTOMER (R386). Programs customer OTP bits. -/
  | nvOtpCustomer (data : List Byte) (bad : Option Nat)
  /-- NV_ATTEST_CHALLENGE (R387). Computes the attestation response. -/
  | nvAttestChallenge (data : List Byte)
  /-- EV_LOG_RECORD (R390). A read returns a log record and advances the selection. -/
  | evLogRecord
  /-- EV_LOG_CLEAR (R390). Erases the event log. -/
  | evLogClear (v : Nat)
  /-- UA_MODE (R405). Enables or disables a UART. -/
  | uaMode (ua : Nat) (v : Nat)
  /-- UART_CHARACTER_RECEIVED (R395). A character's stop sample completes reception of an entry. -/
  | uartCharacterReceived (ua : Nat) (samples : List Nat)
  /-- UART_RING_STORE (R398). A received entry moves to the ring when there is room. -/
  | uartRingStore (ua : Nat)
  /-- UART_CHARACTER_SENT (R394). A character finishes and the next is started when CTS allows. -/
  | uartCharacterSent (ua : Nat) (cts : Bool)
  /-- UA_RATE (R397). Sets the native rate. -/
  | uaRate (ua : Nat) (v : Nat)
  /-- UA_DATA_BITS (R397). Sets the data bits. -/
  | uaDataBits (ua : Nat) (v : Nat)
  /-- UA_PARITY (R397). Sets parity. -/
  | uaParity (ua : Nat) (v : Nat)
  /-- UA_STOP (R397). Sets stop bits. -/
  | uaStop (ua : Nat) (v : Nat)
  /-- UA_RL_DIV (R403). Sets the Railaly divider. -/
  | uaRlDiv (ua : Nat) (v : Nat)
  /-- UA_RX_RD (R398). Advances the receive read index. -/
  | uaRxRd (ua : Nat) (v : Nat)
  /-- UA_TX_WR (R398). Advances the transmit write index. -/
  | uaTxWr (ua : Nat) (v : Nat) (cts : Bool)
  /-- UA_TX_BREAK (R405). Holds or releases a transmit break. -/
  | uaTxBreak (ua : Nat) (v : Nat)
  /-- VMON_WARNING (R412). VMON below the warning level inhibits firing and spoils printing items. -/
  | vmonWarning (mv : Nat)
  /-- VMON_RECOVER (R413). VMON above the recovery level lifts the inhibition. -/
  | vmonRecover (mv : Nat)
  /-- VMON_WINDOW_EXPIRED (R413). No recovery within 20 ms stops every axis and holds every station. -/
  | vmonWindowExpired
  /-- VMON_RESET (R414). VMON below the reset level resets the device. -/
  | vmonReset (mv : Nat)
  /-- DEV_VMON_MIN (R424). A read returns the lowest VMON since the last read. -/
  | devVmonMin
  /-- DIE_TEMP_READING (R418). Every 1 ms a die temperature reading updates compensation, throttle and shutdown. -/
  | dieTempReading (reading : Int) (outOfRange : Bool)
  /-- SENSOR_NO_READING (R419). No reading for 3 ms judges the sensor broken. -/
  | sensorNoReading
  /-- THROTTLE_GRACE_END (R420). The grace time ends and the throttle is enforced or withdrawn. -/
  | throttleGraceEnd
  /-- THROTTLE_RELEASE (R420). 1 s below 100 °C ends enforcement. -/
  | throttleRelease
  /-- DEV_THROTTLE_FORCE (R420). Forces or releases the throttle. -/
  | devThrottleForce (v : Nat)
  /-- DEV_SHUTDOWN_CLEAR (R422). Clears a thermal shutdown. -/
  | devShutdownClear (v : Nat)
  /-- DEV_TEMP_PEAK (R424). A read returns the peak temperature since the last read. -/
  | devTempPeak
  /-- CLOCK_FAILURE (R417). A crystal, PLL or frequency fault resets the device. -/
  | clockFailure (cause : Nat)
  /-- POWER_ESTIMATE (R409). Every 10 ms DEV_POWER_EST is updated. -/
  | powerEstimate (rates : List Nat)
  /-- CF0_HOST_HEARTBEAT (R343). A CANopen heartbeat of the host watched through the first entry of 0x1016 is received on CF0, keeping the host present or regaining it with event 0x2F86. -/
  | cf0HostHeartbeat
  /-- UART_START_EDGE (R395). A low sample after a high one on Un_RXD is taken as a start edge, loading the double-buffered settings and deciding the start bit, with a false start counted and the receiver re-armed. -/
  | uartStartEdge (ua : Nat) (sample : Nat)
  /-- UART_CTS_LOW (R399). Un_CTS_N going low lets a character that waited under RTS/CTS flow control begin its start bit. -/
  | uartCtsLow (ua : Nat)
  /-- SOS_SEARCH_RESUME (R173). The 10 ms with beam 0 off after a failed SOS search ends and beam 0 is lit again for a new search of LS_SOS_SEARCH. -/
  | sosSearchResume
  /-- POWER_LOSS (R377). The supplies fall away, ending all operation, leaving flash programs, erases and OTP programming in progress undefined and releasing the shutdown latch held until VDD_CORE falls. -/
  | powerLoss
  deriving DecidableEq, Repr

end Sys2Proof
end

