-- ==== Sys2Proof/Config.lean ====
section
/-! DEFINITION. What the spec leaves to the device: values it does not state. Each is an opaque constant, so no proof
can lean on a number. -/

namespace Sys2Proof.Config

/-- A value the spec leaves open, one for each draw: the argument is the draw counter of the state (log entry 3). -/
opaque freeNat : Nat → Nat

/-- A signed value the spec leaves open, one for each draw (log entry 3). -/
opaque freeInt : Nat → Int

/-- The OTP vendor area, its 448 bytes as one little-endian number (R385 leaves the values to each device). -/
opaque otpVendor : Nat

/-- What manufacture put into the flash: the byte at a flash address 0-0x7FFFFF of blocks 0-1 and 6-33 (R371: the boot firmware
and bank A; their content is each device's own). -/
opaque factoryFlash : Nat → Byte

/-- Where the plan pool (768 MiB) begins inside the device area (R14 gives its size, not its place). -/
opaque planPoolOffset : Nat

/-- Travel of an axis's position per millimetre of the path it moves, in 1/65,536 pos (the laser process gives its speeds
and places in millimetres and names no scale). -/
opaque posPerMm : Nat → Nat

/-- Counts of an encoder per mechanical revolution (no field of an axis entry gives them). -/
opaque encoderCounts : Nat → Nat

/-- Event data bytes for events whose chapter lists what they carry but not in which bytes (R335): event code and the
listed values to the 16 data bytes as one little-endian number. -/
opaque eventPack : Nat → List Nat → Nat

/-- The identity object 0x1018.01-.04 of the CANopen nodes (R337, R355 name the object and not its values). -/
opaque identity : Nat → Nat

/-- The feed axis's speed limit (0.1 mm/s) that R87 states by a division by ENC_RATIO, when ENC_RATIO is 0: by V_MAX. -/
opaque noRatioLimit : Nat → Nat

/-- The tone of a 16-bit image word whose reserved bits [15:9] are not 0 (R6, R29): by its address and the word. -/
opaque reservedTone : Nat → Nat → Nat

end Sys2Proof.Config
end

