-- ==== Sys2Proof/Machine/Keys.lean ====
section
/-! DEFINITION. The key of every object of the dictionary: key = 256 * index + sub-index (R27, and the object cards of
every chapter). A card that describes several instances (head ports, stations, axes, ports ...) or an array of subs
takes the instance and the array place as arguments. -/

namespace Sys2Proof.Machine.K

/-! Cia area. -/

abbrev CIA_DEVICE_TYPE : Nat := 0x100000
abbrev CIA_ERROR_REGISTER : Nat := 0x100100
abbrev CIA_SYNC_COB : Nat := 0x100500
abbrev CIA_TIME_COB : Nat := 0x101200
abbrev CIA_EMCY_COB : Nat := 0x101400
abbrev CIA_EMCY_INHIBIT : Nat := 0x101500
abbrev CIA_HB_CONSUMER_N : Nat := 0x101600
abbrev CIA_HB_CONSUMER : Nat := 0x101601
abbrev CIA_HB_PRODUCER : Nat := 0x101700
abbrev CIA_IDENTITY_N : Nat := 0x101800
abbrev CIA_IDENTITY (i : Nat) : Nat := 0x101801 + 0x1 * i
abbrev CIA_RPDO_COMM_N (i : Nat) : Nat := 0x140000 + 0x100 * i
abbrev CIA_RPDO_COB (i : Nat) : Nat := 0x140001 + 0x100 * i
abbrev CIA_RPDO_TYPE (i : Nat) : Nat := 0x140002 + 0x100 * i
abbrev CIA_RPDO_MAP_N (i : Nat) : Nat := 0x160000 + 0x100 * i
abbrev CIA_RPDO_MAP (i j : Nat) : Nat := 0x160001 + 0x100 * i + 1 * j
abbrev CIA_TPDO_COMM_N (i : Nat) : Nat := 0x180000 + 0x100 * i
abbrev CIA_TPDO_COB (i : Nat) : Nat := 0x180001 + 0x100 * i
abbrev CIA_TPDO_TYPE (i : Nat) : Nat := 0x180002 + 0x100 * i
abbrev CIA_TPDO_INHIBIT (i : Nat) : Nat := 0x180003 + 0x100 * i
abbrev CIA_TPDO_EVENT (i : Nat) : Nat := 0x180005 + 0x100 * i
abbrev CIA_TPDO_MAP_N (i : Nat) : Nat := 0x1a0000 + 0x100 * i
abbrev CIA_TPDO_MAP (i j : Nat) : Nat := 0x1a0001 + 0x100 * i + 1 * j

/-! Dev area. -/

abbrev DEV_VARIANT : Nat := 0x200001
abbrev DEV_DIE_REV : Nat := 0x200002
abbrev DEV_SERIAL : Nat := 0x200003
abbrev DEV_SUP_VERSION : Nat := 0x200004
abbrev DEV_ACTIVE_BANK : Nat := 0x200005
abbrev DEV_BOOT_CAUSE : Nat := 0x200006
abbrev DEV_BOOT_TIME : Nat := 0x200007
abbrev DEV_MODE : Nat := 0x200008
abbrev DEV_READINESS (i : Nat) : Nat := 0x201001 + 0x1 * i
abbrev DEV_PLL_LOCKED : Nat := 0x202001
abbrev DEV_XTAL_A0 : Nat := 0x202002
abbrev DEV_XTAL_A1 : Nat := 0x202003
abbrev DEV_XTAL_A2 : Nat := 0x202004
abbrev DEV_XTAL_A3 : Nat := 0x202005
abbrev DEV_XTAL_T0 : Nat := 0x202006
abbrev DEV_XTAL_CORR : Nat := 0x202007
abbrev DEV_CLK_FAIL_LAST : Nat := 0x202008
abbrev DEV_TIME : Nat := 0x202009
abbrev DEV_DIE_TEMP : Nat := 0x203001
abbrev DEV_DIE_TEMP_RAW : Nat := 0x203002
abbrev DEV_SENSOR_BROKEN : Nat := 0x203003
abbrev DEV_THROTTLE_STATE : Nat := 0x203004
abbrev DEV_THROTTLE_GRACE : Nat := 0x203005
abbrev DEV_THROTTLE_FORCE : Nat := 0x203006
abbrev DEV_SHUTDOWN : Nat := 0x203007
abbrev DEV_SHUTDOWN_CLEAR : Nat := 0x203008
abbrev DEV_TEMP_PEAK : Nat := 0x203009
abbrev DEV_THROTTLE_COUNT : Nat := 0x20300a
abbrev DEV_POWER_EST : Nat := 0x20300b
abbrev DEV_VMON_WARN : Nat := 0x204001
abbrev DEV_VMON_RECOVER : Nat := 0x204002
abbrev DEV_VMON_RESET : Nat := 0x204003
abbrev DEV_VMON_FILTER : Nat := 0x204004
abbrev DEV_VMON_STATE : Nat := 0x204005
abbrev DEV_VMON_LEVEL : Nat := 0x204006
abbrev DEV_VMON_MIN : Nat := 0x204007
abbrev DEV_VMON_WARNINGS : Nat := 0x204008
abbrev DEV_VMON_STOPS : Nat := 0x204009

/-! Ev area. -/

abbrev EV_CAN_NEXT : Nat := 0x211001
abbrev EV_CAN_ACK : Nat := 0x211002
abbrev EV_CAN_PENDING : Nat := 0x211003
abbrev EV_CAN_LOST : Nat := 0x211004
abbrev EV_CAN_MASK : Nat := 0x211005
abbrev EV_SEQ_LAST : Nat := 0x211101
abbrev EV_ECC_CORR_DRAM : Nat := 0x211102
abbrev EV_ECC_CORR_SRAM : Nat := 0x211103
abbrev EV_MEM_REFUSED : Nat := 0x211104
abbrev EV_SUP_RESTARTS : Nat := 0x211105
abbrev EV_LOG_COUNT : Nat := 0x212001
abbrev EV_LOG_SELECT : Nat := 0x212002
abbrev EV_LOG_RECORD : Nat := 0x212003
abbrev EV_LOG_MASK : Nat := 0x212004
abbrev EV_LOG_DROPPED : Nat := 0x212005
abbrev EV_LOG_BAD : Nat := 0x212006
abbrev EV_LOG_CLEAR : Nat := 0x212007

/-! Dsc area. -/

abbrev DSC_USED : Nat := 0x220001
abbrev DSC_OVERFLOW : Nat := 0x220002
abbrev DSC_CLEAR : Nat := 0x220003
abbrev DSC_PARTNER (i : Nat) : Nat := 0x220101 + 0x1 * i
abbrev DSC_NMT_MODE : Nat := 0x221001
abbrev DSC_NMT_RESET_ALL : Nat := 0x221002
abbrev DSC_NMT_BOOT_TIME : Nat := 0x221003
abbrev DSC_NMT_RETRY : Nat := 0x221004
abbrev DSC_NMT_LOSS_ACTION : Nat := 0x221005
abbrev DSC_NMT_ASSIGN (i : Nat) : Nat := 0x221101 + 0x1 * i
abbrev DSC_NMT_VENDOR (i : Nat) : Nat := 0x221201 + 0x1 * i
abbrev DSC_NMT_PRODUCT (i : Nat) : Nat := 0x221301 + 0x1 * i
abbrev DSC_LSS_ASSIGN : Nat := 0x221401
abbrev DSC_LSS_STATE : Nat := 0x221402

/-! It area. -/

abbrev IT_DEFINE_ADDR : Nat := 0x230001
abbrev IT_DEFINE_RECORD : Nat := 0x230002
abbrev IT_CANCEL : Nat := 0x230100
abbrev IT_RELEASE : Nat := 0x230200
abbrev IT_RETIRE : Nat := 0x230300
abbrev IT_IN_FLIGHT : Nat := 0x230401
abbrev IT_WAITING : Nat := 0x230402
abbrev IT_TABLE_USED : Nat := 0x230403
abbrev IT_REFUSE_CODE : Nat := 0x230404
abbrev IT_REFUSE_OFFSET : Nat := 0x230405
abbrev IT_PLAN_FREE : Nat := 0x230406
abbrev IT_STATION_HOLD (i : Nat) : Nat := 0x230501 + 0x1 * i
abbrev IT_SELECT : Nat := 0x231001
abbrev IT_STATE : Nat := 0x231002
abbrev IT_REASON : Nat := 0x231003
abbrev IT_LINES_FIRED : Nat := 0x231004
abbrev IT_SHORT_LINES : Nat := 0x231005
abbrev IT_MEDIA_USED : Nat := 0x231006
abbrev IT_T_COMMIT : Nat := 0x231007
abbrev IT_T_START : Nat := 0x231008
abbrev IT_T_END : Nat := 0x231009
abbrev IT_PLANNED_MIN : Nat := 0x23100a
abbrev IT_HOST_TAG : Nat := 0x23100b
abbrev IT_SPOIL_LINE : Nat := 0x23100c

/-! Rd area. -/

abbrev RD_CLOVES_IN_SERVICE : Nat := 0x240001
abbrev RD_CLOVE_MHZ : Nat := 0x240002
abbrev RD_HEADROOM : Nat := 0x240003
abbrev RD_HEADROOM_WARN : Nat := 0x240004
abbrev RD_LATE_COMMITS : Nat := 0x240005
abbrev RD_STEAL_LOCAL : Nat := 0x240006
abbrev RD_STEAL_REMOTE : Nat := 0x240007
abbrev RD_GEN_SELECT : Nat := 0x240008
abbrev RD_INSP_LATENCY : Nat := 0x240009
abbrev RD_HANG_TIME : Nat := 0x24000a
abbrev RD_ATTEMPT_LIMIT : Nat := 0x24000b
abbrev RD_LEDGER_USED : Nat := 0x24000c
abbrev RD_CL_STATE (i : Nat) : Nat := 0x241001 + 0x100 * i
abbrev RD_CL_CTRL (i : Nat) : Nat := 0x241002 + 0x100 * i
abbrev RD_CL_IMAGE_SEL (i : Nat) : Nat := 0x241003 + 0x100 * i
abbrev RD_CL_GEN (i : Nat) : Nat := 0x241004 + 0x100 * i
abbrev RD_CL_QUEUE_DEPTH (i : Nat) : Nat := 0x241005 + 0x100 * i
abbrev RD_CL_BACKLOG (i : Nat) : Nat := 0x241006 + 0x100 * i
abbrev RD_CL_SRAM_RETIRED (i : Nat) : Nat := 0x241007 + 0x100 * i
abbrev RD_CL_SPARE (i : Nat) : Nat := 0x241008 + 0x100 * i
abbrev RD_CLOVE_SUBS (i : Nat) : Nat := 0x244000 + 0x100 * i
abbrev RD_CLOVE_STATE (i : Nat) : Nat := 0x244001 + 0x1 * i
abbrev RD_CLOVE_BANDS (i : Nat) : Nat := 0x244101 + 0x1 * i
abbrev RD_CLOVE_DEPTH (i : Nat) : Nat := 0x244201 + 0x1 * i

/-! Hp area. -/

abbrev HP_MODE (i : Nat) : Nat := 0x250001 + 0x8000 * i
abbrev HP_LANES (i : Nat) : Nat := 0x250002 + 0x8000 * i
abbrev HP_LANE_MAP (i : Nat) : Nat := 0x250003 + 0x8000 * i
abbrev HP_SHIFT_ORDER (i : Nat) : Nat := 0x250004 + 0x8000 * i
abbrev HP_CMOS_DIV (i : Nat) : Nat := 0x250005 + 0x8000 * i
abbrev HP_LVDS_RATE (i : Nat) : Nat := 0x250006 + 0x8000 * i
abbrev HP_DOTS (i : Nat) : Nat := 0x250007 + 0x8000 * i
abbrev HP_PITCH (i : Nat) : Nat := 0x250008 + 0x8000 * i
abbrev HP_POLARITY (i : Nat) : Nat := 0x250009 + 0x8000 * i
abbrev HP_LATCH_WIDTH (i : Nat) : Nat := 0x25000a + 0x8000 * i
abbrev HP_LATCH_SETUP (i : Nat) : Nat := 0x25000b + 0x8000 * i
abbrev HP_STROBE_GAP (i : Nat) : Nat := 0x25000c + 0x8000 * i
abbrev HP_LOAD_TIME (i : Nat) : Nat := 0x25000d + 0x8000 * i
abbrev HP_LINE_TIME (i : Nat) : Nat := 0x25000e + 0x8000 * i
abbrev HP_PRESENT (i : Nat) : Nat := 0x250101 + 0x8000 * i
abbrev HP_PORT_STATE (i : Nat) : Nat := 0x250102 + 0x8000 * i
abbrev HP_FIRING (i : Nat) : Nat := 0x250103 + 0x8000 * i
abbrev HP_ITEM (i : Nat) : Nat := 0x250104 + 0x8000 * i
abbrev HP_LINE (i : Nat) : Nat := 0x250105 + 0x8000 * i
abbrev HP_SHORT_RUN (i : Nat) : Nat := 0x250106 + 0x8000 * i
abbrev HP_LINES_FIRED (i : Nat) : Nat := 0x250107 + 0x8000 * i
abbrev HP_SHORT_TOTAL (i : Nat) : Nat := 0x250108 + 0x8000 * i
abbrev HP_SLOTS_CUT (i : Nat) : Nat := 0x250109 + 0x8000 * i
abbrev HP_SUSPENDS (i : Nat) : Nat := 0x25010a + 0x8000 * i
abbrev HP_REMOVALS (i : Nat) : Nat := 0x25010b + 0x8000 * i
abbrev HP_SLOT_TABLE (i : Nat) : Nat := 0x250200 + 0x8000 * i
abbrev HP_SG_GROUPS (i : Nat) : Nat := 0x250301 + 0x8000 * i
abbrev HP_SG_CONCURRENT (i : Nat) : Nat := 0x250302 + 0x8000 * i
abbrev HP_SG_PHASE_ORDER (i : Nat) : Nat := 0x250303 + 0x8000 * i
abbrev HP_SG_START (i j : Nat) : Nat := 0x250304 + 0x8000 * i + 1 * j
abbrev HP_BACKLASH (i : Nat) : Nat := 0x250400 + 0x8000 * i
abbrev HP_SHORT_LIMIT (i : Nat) : Nat := 0x250500 + 0x8000 * i
abbrev HP_PEPPER_ON_LIMIT (i : Nat) : Nat := 0x250601 + 0x8000 * i
abbrev HP_PEPPER_DUTY_LIMIT (i : Nat) : Nat := 0x250602 + 0x8000 * i
abbrev HP_PEPPER_STATE (i : Nat) : Nat := 0x250603 + 0x8000 * i
abbrev HP_PEPPER_GROUP (i : Nat) : Nat := 0x250604 + 0x8000 * i
abbrev HP_PEPPER_CLEAR (i : Nat) : Nat := 0x250605 + 0x8000 * i
abbrev HP_PEPPER_TRIPS (i : Nat) : Nat := 0x250606 + 0x8000 * i
abbrev HP_PEPPER_DUTY_MAX (i : Nat) : Nat := 0x250607 + 0x8000 * i
abbrev HP_THM_CURVE (i : Nat) : Nat := 0x250700 + 0x8000 * i
abbrev HP_ID_ADDR (i : Nat) : Nat := 0x250801 + 0x8000 * i
abbrev HP_ID_LEN (i : Nat) : Nat := 0x250802 + 0x8000 * i
abbrev HP_ID_SPEED (i : Nat) : Nat := 0x250803 + 0x8000 * i
abbrev HP_ID_DATA (i : Nat) : Nat := 0x250804 + 0x8000 * i
abbrev HP_ID_CRC (i : Nat) : Nat := 0x250805 + 0x8000 * i
abbrev HP_DOT_RES (i : Nat) : Nat := 0x251000 + 0x8000 * i
abbrev HP_DOT_MAP (i : Nat) : Nat := 0x251100 + 0x8000 * i
abbrev HP_SCAN_ENABLE (i : Nat) : Nat := 0x251201 + 0x8000 * i
abbrev HP_SCAN_PULSE (i : Nat) : Nat := 0x251202 + 0x8000 * i
abbrev HP_SCAN_PERIOD (i : Nat) : Nat := 0x251203 + 0x8000 * i
abbrev HP_SCAN_AIN_I (i : Nat) : Nat := 0x251204 + 0x8000 * i
abbrev HP_SCAN_AIN_V (i : Nat) : Nat := 0x251205 + 0x8000 * i
abbrev HP_SCAN_I_SCALE (i : Nat) : Nat := 0x251206 + 0x8000 * i
abbrev HP_SCAN_V_SCALE (i : Nat) : Nat := 0x251207 + 0x8000 * i
abbrev HP_SCAN_I_MIN (i : Nat) : Nat := 0x251208 + 0x8000 * i
abbrev HP_SCAN_AUTO (i : Nat) : Nat := 0x251209 + 0x8000 * i
abbrev HP_RES_DEADBAND (i : Nat) : Nat := 0x25120a + 0x8000 * i
abbrev HP_DOT_MEASURED (i : Nat) : Nat := 0x251301 + 0x8000 * i
abbrev HP_DOT_REF (i : Nat) : Nat := 0x251302 + 0x8000 * i
abbrev HP_DOT_REF_TAKE (i : Nat) : Nat := 0x251303 + 0x8000 * i
abbrev HP_SCAN_PASSES (i : Nat) : Nat := 0x251304 + 0x8000 * i
abbrev HP_SCAN_NEXT (i : Nat) : Nat := 0x251305 + 0x8000 * i
abbrev HP_RES_MEDIAN (i : Nat) : Nat := 0x251306 + 0x8000 * i
abbrev HP_OPEN_FACTOR (i : Nat) : Nat := 0x251401 + 0x8000 * i
abbrev HP_SHORT_FACTOR (i : Nat) : Nat := 0x251402 + 0x8000 * i
abbrev HP_DRIFT_LIMIT (i : Nat) : Nat := 0x251403 + 0x8000 * i
abbrev HP_MAP_AUTO (i : Nat) : Nat := 0x251404 + 0x8000 * i
abbrev HP_HIDE_DEFAULT (i : Nat) : Nat := 0x251405 + 0x8000 * i
abbrev HP_HIDE_W1 (i : Nat) : Nat := 0x251406 + 0x8000 * i
abbrev HP_HIDE_W2 (i : Nat) : Nat := 0x251407 + 0x8000 * i
abbrev HP_HIDE_RUN_MAX (i : Nat) : Nat := 0x251408 + 0x8000 * i
abbrev HP_DEAD_LIMIT (i : Nat) : Nat := 0x251409 + 0x8000 * i
abbrev HP_DEAD_COUNT (i : Nat) : Nat := 0x251501 + 0x8000 * i
abbrev HP_UNCOVERED_COUNT (i : Nat) : Nat := 0x251502 + 0x8000 * i
abbrev HP_DRIFT_COUNT (i : Nat) : Nat := 0x251503 + 0x8000 * i
abbrev HP_ERT_CLASS (i j : Nat) : Nat := 0x254001 + 0x8000 * i + 1 * j
abbrev HP_MODEL_CLASS (i j : Nat) : Nat := 0x254101 + 0x8000 * i + 1 * j
abbrev SB_C0 (i : Nat) : Nat := 0x254201 + 0x8000 * i
abbrev SB_C1 (i : Nat) : Nat := 0x254202 + 0x8000 * i
abbrev SB_C2 (i : Nat) : Nat := 0x254203 + 0x8000 * i
abbrev SB_G01 (i : Nat) : Nat := 0x254204 + 0x8000 * i
abbrev SB_G12 (i : Nat) : Nat := 0x254205 + 0x8000 * i
abbrev SB_G2A (i : Nat) : Nat := 0x254206 + 0x8000 * i
abbrev SB_GL0 (i : Nat) : Nat := 0x254207 + 0x8000 * i
abbrev SB_GL1 (i : Nat) : Nat := 0x254208 + 0x8000 * i
abbrev SB_EPS (i : Nat) : Nat := 0x254209 + 0x8000 * i
abbrev THETA_REF (i : Nat) : Nat := 0x25420a + 0x8000 * i
abbrev BETA (i : Nat) : Nat := 0x25420b + 0x8000 * i
abbrev KAPPA (i : Nat) : Nat := 0x25420c + 0x8000 * i
abbrev AMB_SRC (i : Nat) : Nat := 0x25420d + 0x8000 * i
abbrev AMB_FIXED (i : Nat) : Nat := 0x25420e + 0x8000 * i
abbrev THM_COUNT (i : Nat) : Nat := 0x25420f + 0x8000 * i
abbrev THM_AIN (i j : Nat) : Nat := 0x254210 + 0x8000 * i + 1 * j
abbrev THM_BLOCK (i j : Nat) : Nat := 0x254218 + 0x8000 * i + 1 * j
abbrev V_NOM (i : Nat) : Nat := 0x254220 + 0x8000 * i
abbrev LOOKBACK (i : Nat) : Nat := 0x254221 + 0x8000 * i
abbrev TRIM_SHIFT (i : Nat) : Nat := 0x254222 + 0x8000 * i
abbrev THM_STALE (i : Nat) : Nat := 0x254223 + 0x8000 * i
abbrev HP_TEMP_LIMIT (i : Nat) : Nat := 0x254300 + 0x8000 * i
abbrev HP_GAIN_PUBLISHED (i : Nat) : Nat := 0x254401 + 0x8000 * i
abbrev HP_GAIN_LOWER (i : Nat) : Nat := 0x254402 + 0x8000 * i
abbrev HP_GAIN_UPPER (i : Nat) : Nat := 0x254403 + 0x8000 * i
abbrev HP_GAIN_RESET (i : Nat) : Nat := 0x254404 + 0x8000 * i
abbrev HP_TRIM_VALUES (i : Nat) : Nat := 0x254501 + 0x8000 * i
abbrev HP_TRIM_STATUS (i : Nat) : Nat := 0x254502 + 0x8000 * i
abbrev HP_TRIM_PINNED (i : Nat) : Nat := 0x254503 + 0x8000 * i
abbrev HP_TRIM_FROZEN (i : Nat) : Nat := 0x254504 + 0x8000 * i
abbrev HP_TRIM_STALE_COUNT (i : Nat) : Nat := 0x254505 + 0x8000 * i
abbrev HP_TRIM_LOWER (i : Nat) : Nat := 0x254601 + 0x8000 * i
abbrev HP_TRIM_UPPER (i : Nat) : Nat := 0x254602 + 0x8000 * i
abbrev HP_TRIM_FREEZE_COUNT (i : Nat) : Nat := 0x254701 + 0x8000 * i
abbrev HP_TRIM_UNFREEZE (i : Nat) : Nat := 0x254702 + 0x8000 * i
abbrev HP_PLAN_LOOP (i : Nat) : Nat := 0x254801 + 0x8000 * i
abbrev HP_PLAN_FREEZE_COUNT (i : Nat) : Nat := 0x254802 + 0x8000 * i
abbrev HP_PLAN_UNFREEZE (i : Nat) : Nat := 0x254803 + 0x8000 * i
abbrev HP_PLAN_ITEM (i : Nat) : Nat := 0x254804 + 0x8000 * i
abbrev HP_PLAN_ROUNDS (i : Nat) : Nat := 0x254805 + 0x8000 * i
abbrev HP_PLAN_LOWERED (i : Nat) : Nat := 0x254806 + 0x8000 * i
abbrev HP_PLAN_PEAK (i : Nat) : Nat := 0x254807 + 0x8000 * i
abbrev HP_PLAN_PEAK_BLOCK (i : Nat) : Nat := 0x254808 + 0x8000 * i
abbrev HP_PLAN_ADDR (i : Nat) : Nat := 0x254809 + 0x8000 * i
abbrev HP_PLAN_ROUND_LIMIT (i : Nat) : Nat := 0x25480a + 0x8000 * i

/-! Th area. -/

abbrev TH_PORTS (i : Nat) : Nat := 0x270001 + 0x2000 * i
abbrev TH_LEAD (i : Nat) : Nat := 0x270002 + 0x2000 * i
abbrev TH_FEED_AXIS (i : Nat) : Nat := 0x270003 + 0x2000 * i
abbrev TH_TRIG_SRC (i : Nat) : Nat := 0x270004 + 0x2000 * i
abbrev TH_LINE_NM (i : Nat) : Nat := 0x270005 + 0x2000 * i
abbrev TH_LINE_COUNTS (i : Nat) : Nat := 0x270006 + 0x2000 * i
abbrev TH_TANDEM_POLICY (i : Nat) : Nat := 0x270007 + 0x2000 * i
abbrev TH_SINGLE_SPEED (i : Nat) : Nat := 0x270008 + 0x2000 * i
abbrev TH_RETRACT_SPEED (i : Nat) : Nat := 0x270009 + 0x2000 * i
abbrev TH_CONFIGURED (i : Nat) : Nat := 0x27000a + 0x2000 * i
abbrev TH_MIN_SPEED (i : Nat) : Nat := 0x270100 + 0x2000 * i
abbrev TH_ACCEL (i : Nat) : Nat := 0x270201 + 0x2000 * i
abbrev TH_JERK (i : Nat) : Nat := 0x270202 + 0x2000 * i
abbrev TH_STOP_DECEL (i : Nat) : Nat := 0x270203 + 0x2000 * i
abbrev TH_MASK (i j : Nat) : Nat := 0x270301 + 0x2000 * i + 1 * j
abbrev TH_TANDEM_OFFSET (i : Nat) : Nat := 0x270400 + 0x2000 * i
abbrev TH_ST_STATE (i : Nat) : Nat := 0x270501 + 0x2000 * i
abbrev TH_ST_MODE (i : Nat) : Nat := 0x270502 + 0x2000 * i
abbrev TH_ST_ACTIVE_PORTS (i : Nat) : Nat := 0x270503 + 0x2000 * i
abbrev TH_TANDEM_RESTORE (i : Nat) : Nat := 0x270504 + 0x2000 * i
abbrev TH_OPT_PIPE (i : Nat) : Nat := 0x270601 + 0x2000 * i
abbrev TH_OPT_CONTEXT (i : Nat) : Nat := 0x270602 + 0x2000 * i
abbrev TH_OPT_DEAD_FRAC (i : Nat) : Nat := 0x270603 + 0x2000 * i
abbrev TH_OPT_CONFIRM (i : Nat) : Nat := 0x270604 + 0x2000 * i
abbrev TH_OPT_MIN_LINES (i : Nat) : Nat := 0x270605 + 0x2000 * i
abbrev TH_OPT_MIN_TONE (i : Nat) : Nat := 0x270606 + 0x2000 * i
abbrev SNS_MODE (i j : Nat) : Nat := 0x271001 + 0x2000 * i + 256 * j
abbrev SNS_AIN (i j : Nat) : Nat := 0x271002 + 0x2000 * i + 256 * j
abbrev SNS_POLARITY (i j : Nat) : Nat := 0x271003 + 0x2000 * i + 256 * j
abbrev SNS_HYST (i j : Nat) : Nat := 0x271004 + 0x2000 * i + 256 * j
abbrev SNS_FRACTION (i j : Nat) : Nat := 0x271005 + 0x2000 * i + 256 * j
abbrev SNS_LOWER (i j : Nat) : Nat := 0x271006 + 0x2000 * i + 256 * j
abbrev SNS_UPPER (i j : Nat) : Nat := 0x271007 + 0x2000 * i + 256 * j
abbrev SNS_LEARN_SHIFT (i j : Nat) : Nat := 0x271008 + 0x2000 * i + 256 * j
abbrev SNS_MIN_LEN (i j : Nat) : Nat := 0x271009 + 0x2000 * i + 256 * j
abbrev SNS_DIST (i j : Nat) : Nat := 0x27100a + 0x2000 * i + 256 * j
abbrev SNS_THRESHOLD (i j : Nat) : Nat := 0x27100b + 0x2000 * i + 256 * j
abbrev SNS_LEVELS (i j : Nat) : Nat := 0x27100c + 0x2000 * i + 256 * j
abbrev SNS_LOOP_STATUS (i j : Nat) : Nat := 0x27100d + 0x2000 * i + 256 * j
abbrev SNS_FREEZE_COUNT (i j : Nat) : Nat := 0x27100e + 0x2000 * i + 256 * j
abbrev SNS_UNFREEZE (i j : Nat) : Nat := 0x27100f + 0x2000 * i + 256 * j
abbrev SNS_NOISE_COUNT (i j : Nat) : Nat := 0x271010 + 0x2000 * i + 256 * j
abbrev TH_FORM_SYNC (i : Nat) : Nat := 0x271201 + 0x2000 * i
abbrev TH_TOF_OFFSET (i : Nat) : Nat := 0x271202 + 0x2000 * i
abbrev TH_FORM_LEN_NOM (i : Nat) : Nat := 0x271203 + 0x2000 * i
abbrev TH_LEN_TOL (i : Nat) : Nat := 0x271204 + 0x2000 * i
abbrev TH_FORM_LEN (i : Nat) : Nat := 0x271205 + 0x2000 * i
abbrev TH_LEN_REJECTS (i : Nat) : Nat := 0x271206 + 0x2000 * i
abbrev TH_TOF_MISREG_TOL (i : Nat) : Nat := 0x271207 + 0x2000 * i
abbrev TH_SEEK_MAX (i : Nat) : Nat := 0x271208 + 0x2000 * i
abbrev TH_OUT_LEN (i : Nat) : Nat := 0x271209 + 0x2000 * i
abbrev TH_MEDIA_PRES_SI (i : Nat) : Nat := 0x27120a + 0x2000 * i
abbrev TH_MEDIA_PRESENT (i : Nat) : Nat := 0x27120b + 0x2000 * i
abbrev TH_TOF_QUEUED (i : Nat) : Nat := 0x27120c + 0x2000 * i
abbrev TH_LEARN (i : Nat) : Nat := 0x27120d + 0x2000 * i
abbrev TH_LEARN_SPEED (i : Nat) : Nat := 0x27120e + 0x2000 * i
abbrev TH_LEARN_STATE (i : Nat) : Nat := 0x27120f + 0x2000 * i
abbrev TH_RIBBON (i : Nat) : Nat := 0x271301 + 0x2000 * i
abbrev TH_RIB_SUPPLY_AXIS (i : Nat) : Nat := 0x271302 + 0x2000 * i
abbrev TH_RIB_TAKEUP_AXIS (i : Nat) : Nat := 0x271303 + 0x2000 * i
abbrev TH_RIB_LIFT_AXIS (i : Nat) : Nat := 0x271304 + 0x2000 * i
abbrev TH_RIB_PRES_SI (i : Nat) : Nat := 0x271305 + 0x2000 * i
abbrev TH_RIB_DOWN_SI (i : Nat) : Nat := 0x271306 + 0x2000 * i
abbrev TH_RIB_COUNTS_REV (i : Nat) : Nat := 0x271307 + 0x2000 * i
abbrev TH_RIB_TENSION (i : Nat) : Nat := 0x271308 + 0x2000 * i
abbrev TH_RIB_KT_S (i : Nat) : Nat := 0x271309 + 0x2000 * i
abbrev TH_RIB_KT_T (i : Nat) : Nat := 0x27130a + 0x2000 * i
abbrev TH_RIB_R_FULL (i : Nat) : Nat := 0x27130b + 0x2000 * i
abbrev TH_RIB_R_CORE (i : Nat) : Nat := 0x27130c + 0x2000 * i
abbrev TH_RIB_R_OUT (i : Nat) : Nat := 0x27130d + 0x2000 * i
abbrev TH_RIB_SLIP (i : Nat) : Nat := 0x27130e + 0x2000 * i
abbrev TH_RIB_WIN (i : Nat) : Nat := 0x27130f + 0x2000 * i
abbrev TH_RIB_LIFT_MS (i : Nat) : Nat := 0x271310 + 0x2000 * i
abbrev TH_RIB_LOWER_MS (i : Nat) : Nat := 0x271311 + 0x2000 * i
abbrev TH_PANELS (i : Nat) : Nat := 0x271312 + 0x2000 * i
abbrev TH_PANEL_OFFSET (i : Nat) : Nat := 0x271313 + 0x2000 * i
abbrev TH_PANEL_MAX (i : Nat) : Nat := 0x271314 + 0x2000 * i
abbrev TH_SET_MARK (i : Nat) : Nat := 0x271315 + 0x2000 * i
abbrev TH_RIB_STATE (i : Nat) : Nat := 0x271401 + 0x2000 * i
abbrev TH_RIB_R_SUPPLY (i : Nat) : Nat := 0x271402 + 0x2000 * i
abbrev TH_RIB_R_TAKEUP (i : Nat) : Nat := 0x271403 + 0x2000 * i
abbrev TH_RIB_USED (i : Nat) : Nat := 0x271404 + 0x2000 * i
abbrev TH_RIB_SAVED (i : Nat) : Nat := 0x271405 + 0x2000 * i
abbrev TH_SAVE_ENABLE (i : Nat) : Nat := 0x271501 + 0x2000 * i
abbrev TH_SAVE_MIN (i : Nat) : Nat := 0x271502 + 0x2000 * i
abbrev TH_SAVE_GUARD (i : Nat) : Nat := 0x271503 + 0x2000 * i
abbrev TH_SAVE_LATE (i : Nat) : Nat := 0x271504 + 0x2000 * i
abbrev TH_CUT_AXIS (i : Nat) : Nat := 0x271601 + 0x2000 * i
abbrev TH_CUT_HOME_SI (i : Nat) : Nat := 0x271602 + 0x2000 * i
abbrev TH_CUT_DIST (i : Nat) : Nat := 0x271603 + 0x2000 * i
abbrev TH_CUT_OFFSET (i : Nat) : Nat := 0x271604 + 0x2000 * i
abbrev TH_CUT_FULL_POS (i : Nat) : Nat := 0x271605 + 0x2000 * i
abbrev TH_CUT_PARTIAL_POS (i : Nat) : Nat := 0x271606 + 0x2000 * i
abbrev TH_CUT_TIMEOUT (i : Nat) : Nat := 0x271607 + 0x2000 * i
abbrev TH_CUT_BACKFEED (i : Nat) : Nat := 0x271608 + 0x2000 * i
abbrev TH_CUTS (i : Nat) : Nat := 0x271609 + 0x2000 * i
abbrev TH_PRES_AXIS (i : Nat) : Nat := 0x271701 + 0x2000 * i
abbrev TH_PRES_TAKEN_SI (i : Nat) : Nat := 0x271702 + 0x2000 * i
abbrev TH_PRES_DIST (i : Nat) : Nat := 0x271703 + 0x2000 * i
abbrev TH_PRES_EJECT (i : Nat) : Nat := 0x271704 + 0x2000 * i
abbrev TH_PRES_RETRACT_DIST (i : Nat) : Nat := 0x271705 + 0x2000 * i
abbrev TH_PRES_TIMEOUT (i : Nat) : Nat := 0x271706 + 0x2000 * i
abbrev TH_PRES_STATE (i : Nat) : Nat := 0x271707 + 0x2000 * i
abbrev TH_PRES_ITEM (i : Nat) : Nat := 0x271708 + 0x2000 * i
abbrev TH_PRES_RETRACTS (i : Nat) : Nat := 0x271709 + 0x2000 * i
abbrev TH_CAL_SELECT : Nat := 0x278001
abbrev TH_CAL_STAGE : Nat := 0x278002
abbrev TH_CAL_CTRL : Nat := 0x278003
abbrev TH_CAL_STORE_STATE : Nat := 0x278004
abbrev TH_CAL_VALID : Nat := 0x278005
abbrev TH_CAL_ITEM : Nat := 0x278101
abbrev TH_CAL_PATTERN : Nat := 0x278102
abbrev TH_CAL_PORT : Nat := 0x278103
abbrev TH_CAL_ITEM2 : Nat := 0x278104
abbrev TH_CAL_EDGE_REF : Nat := 0x278105
abbrev TH_CAL_STATE : Nat := 0x278201
abbrev TH_CAL_FAIL : Nat := 0x278202
abbrev TH_CAL_MARKS : Nat := 0x278203
abbrev TH_CAL_TANDEM_ERR : Nat := 0x278204
abbrev TH_CAL_LAT : Nat := 0x278205
abbrev TH_CAL_SKEW : Nat := 0x278206
abbrev TH_CAL_REG_X : Nat := 0x278207
abbrev TH_CAL_REG_Y : Nat := 0x278208
abbrev TH_CAL_FACET : Nat := 0x278209
abbrev TH_CAL_BEAM : Nat := 0x27820a
abbrev TH_CAL_DEAD_FOUND : Nat := 0x27820b
abbrev TH_CAL_APPLY : Nat := 0x278300

/-! Ls area. -/

abbrev LS_BEAMS : Nat := 0x280001
abbrev LS_FACETS : Nat := 0x280002
abbrev LS_DPI : Nat := 0x280003
abbrev LS_PRINT_WIDTH : Nat := 0x280004
abbrev LS_PIX_FREQ : Nat := 0x280005
abbrev LS_SOS_DELAY : Nat := 0x280006
abbrev LS_FACET_SYNC : Nat := 0x280007
abbrev LS_SCAN_AXIS : Nat := 0x280008
abbrev LS_SCAN_MODE : Nat := 0x280009
abbrev LS_SCAN_IDLE : Nat := 0x28000a
abbrev LS_LOCK_REVS : Nat := 0x28000b
abbrev LS_LOCK_TOL : Nat := 0x28000c
abbrev LS_UNLOCK_TOL : Nat := 0x28000d
abbrev LS_LOCK_TIMEOUT : Nat := 0x28000e
abbrev LS_SOS_SEARCH : Nat := 0x28000f
abbrev LS_SOS_LEAD : Nat := 0x280010
abbrev LS_SOS_LATE : Nat := 0x280011
abbrev LS_SOS_FLY : Nat := 0x280012
abbrev LS_EOS_ENABLE : Nat := 0x280013
abbrev LS_SOS_EOS_NOM : Nat := 0x280014
abbrev LS_EOS_TOL : Nat := 0x280015
abbrev LS_APC_START : Nat := 0x280016
abbrev LS_APC_WIN : Nat := 0x280017
abbrev LS_IMG_DELAY : Nat := 0x280018
abbrev LS_POLY_RPM : Nat := 0x280019
abbrev LS_SCAN_STATE : Nat := 0x280101
abbrev LS_IMG_STATE : Nat := 0x280102
abbrev LS_REV_PERIOD : Nat := 0x280103
abbrev LS_FACET_INTERVAL : Nat := 0x280104
abbrev LS_SOS_MISSED : Nat := 0x280105
abbrev LS_LOCK_LOSSES : Nat := 0x280106
abbrev LS_EOS_MEASURED : Nat := 0x280107
abbrev LS_FACET_APPLIED : Nat := 0x280108
abbrev LS_FACET_TABLE : Nat := 0x280200
abbrev LS_BEAM_OFFSET : Nat := 0x280300
abbrev LS_BOW_SPACING : Nat := 0x280401
abbrev LS_BOW_TABLE : Nat := 0x280402
abbrev LS_BOW_CLAMPED : Nat := 0x280403
abbrev LS_SCREEN (i : Nat) : Nat := 0x280501 + 0x1 * i
abbrev LS_POWER (i : Nat) : Nat := 0x280601 + 0x1 * i
abbrev LS_PMON_AIN (i : Nat) : Nat := 0x280605 + 0x1 * i
abbrev LS_PMON_LO : Nat := 0x280609
abbrev LS_PMON_HI : Nat := 0x28060a
abbrev LS_PMON_COUNT : Nat := 0x28060b
abbrev LS_PWR_LATCH : Nat := 0x28060c
abbrev LS_PWR_CLEAR : Nat := 0x28060d
abbrev LS_INTLK_STATE : Nat := 0x280701
abbrev LS_INTLK_REENABLE : Nat := 0x280702
abbrev LS_INTLK_OPENINGS : Nat := 0x280703
abbrev LS_INTLK_ENABLE : Nat := 0x280704
abbrev LS_VID_ITEM : Nat := 0x280801
abbrev LS_VID_SWEEP : Nat := 0x280802
abbrev LS_VID_FACET : Nat := 0x280803
abbrev LS_CUT_PIXELS : Nat := 0x280804
abbrev LS_VID_PAGES : Nat := 0x280805
abbrev LS_PROC_MODE : Nat := 0x281001
abbrev LS_PROC_SPEED : Nat := 0x281002
abbrev LS_PROC_IDLE : Nat := 0x281003
abbrev LS_DRUM_AXIS : Nat := 0x281004
abbrev LS_FUSER_AXIS : Nat := 0x281005
abbrev LS_PICK_AXIS : Nat := 0x281006
abbrev LS_REG_AXIS : Nat := 0x281007
abbrev LS_EXIT_AXIS : Nat := 0x281008
abbrev LS_PROC_STATE : Nat := 0x281009
abbrev LS_PROC_CLEAR : Nat := 0x28100a
abbrev LS_DRUM_CLEAN : Nat := 0x28100b
abbrev HV_V_AIN (i : Nat) : Nat := 0x281101 + 0x100 * i
abbrev HV_V_SCALE (i : Nat) : Nat := 0x281102 + 0x100 * i
abbrev HV_V_OFFSET (i : Nat) : Nat := 0x281103 + 0x100 * i
abbrev HV_I_AIN (i : Nat) : Nat := 0x281104 + 0x100 * i
abbrev HV_I_SCALE (i : Nat) : Nat := 0x281105 + 0x100 * i
abbrev HV_I_OFFSET (i : Nat) : Nat := 0x281106 + 0x100 * i
abbrev HV_POLARITY (i : Nat) : Nat := 0x281107 + 0x100 * i
abbrev HV_KP_V (i : Nat) : Nat := 0x281108 + 0x100 * i
abbrev HV_KI_V (i : Nat) : Nat := 0x281109 + 0x100 * i
abbrev HV_KP_I (i : Nat) : Nat := 0x28110a + 0x100 * i
abbrev HV_KI_I (i : Nat) : Nat := 0x28110b + 0x100 * i
abbrev HV_RAMP (i : Nat) : Nat := 0x28110c + 0x100 * i
abbrev HV_V_LIMIT (i : Nat) : Nat := 0x28110d + 0x100 * i
abbrev HV_I_LIMIT (i : Nat) : Nat := 0x28110e + 0x100 * i
abbrev HV_TOL (i : Nat) : Nat := 0x28110f + 0x100 * i
abbrev HV_FAULT_TIME (i : Nat) : Nat := 0x281110 + 0x100 * i
abbrev HV_DUTY_MAX (i : Nat) : Nat := 0x281111 + 0x100 * i
abbrev HV_GAP_SET (i : Nat) : Nat := 0x281112 + 0x100 * i
abbrev HV_GAP_MODE (i : Nat) : Nat := 0x281113 + 0x100 * i
abbrev HV_ON (i : Nat) : Nat := 0x281114 + 0x100 * i
abbrev HV_OFF (i : Nat) : Nat := 0x281115 + 0x100 * i
abbrev HV_STATE (i : Nat) : Nat := 0x281116 + 0x100 * i
abbrev HV_V_MEAS (i : Nat) : Nat := 0x281117 + 0x100 * i
abbrev HV_I_MEAS (i : Nat) : Nat := 0x281118 + 0x100 * i
abbrev HV_DUTY (i : Nat) : Nat := 0x281119 + 0x100 * i
abbrev LS_HV_SET (i : Nat) : Nat := 0x281501 + 0x1 * i
abbrev LS_ZC_DELAY : Nat := 0x281601
abbrev LS_GATE_WIDTH : Nat := 0x281602
abbrev LS_FUS_AIN (i : Nat) : Nat := 0x281603 + 0x1 * i
abbrev LS_FUS_THM_POL : Nat := 0x281606
abbrev LS_FUS_TRIP (i : Nat) : Nat := 0x281607 + 0x1 * i
abbrev LS_FUS_RESET (i : Nat) : Nat := 0x28160a + 0x1 * i
abbrev LS_FUS_KP : Nat := 0x28160d
abbrev LS_FUS_KI : Nat := 0x28160e
abbrev LS_FUS_UMAX : Nat := 0x28160f
abbrev LS_FUS_EXCL : Nat := 0x281610
abbrev LS_FUS_STANDBY : Nat := 0x281611
abbrev LS_FUS_BAND : Nat := 0x281612
abbrev LS_FUS_RUN_BAND : Nat := 0x281613
abbrev LS_FUS_SETTLE : Nat := 0x281614
abbrev LS_FUS_ROTATE : Nat := 0x281615
abbrev LS_FUS_WARM_SPEED : Nat := 0x281616
abbrev LS_FUS_PRESTART : Nat := 0x281617
abbrev LS_FUS_RISE_TIME : Nat := 0x281618
abbrev LS_FUS_RISE_MIN : Nat := 0x281619
abbrev LS_FUS_TRIP_CLEAR : Nat := 0x28161a
abbrev LS_FUS_CURVE : Nat := 0x28161b
abbrev LS_FUS_STATE : Nat := 0x281701
abbrev LS_FUS_TEMP (i : Nat) : Nat := 0x281702 + 0x1 * i
abbrev LS_FUS_TARGET : Nat := 0x281705
abbrev LS_MAINS_HALF : Nat := 0x281706
abbrev LS_FUS_TRIPPED : Nat := 0x281707
abbrev LS_FUSER_SWITCHES : Nat := 0x281708
abbrev LS_FUSER_SET (i : Nat) : Nat := 0x281801 + 0x1 * i
abbrev LS_PAPER (i : Nat) : Nat := 0x282001 + 0x1 * i
abbrev LS_SI (i : Nat) : Nat := 0x282101 + 0x1 * i
abbrev LS_POS (i : Nat) : Nat := 0x282108 + 0x1 * i
abbrev LS_POS_PICK_NIP : Nat := 0x28210f
abbrev LS_POS_TRANSFER : Nat := 0x282110
abbrev LS_POS_FUSER : Nat := 0x282111
abbrev LS_DRUM_ET : Nat := 0x282112
abbrev LS_BUCKLE : Nat := 0x282113
abbrev LS_PICK_SPEED : Nat := 0x282114
abbrev LS_PATH_ACCEL : Nat := 0x282115
abbrev LS_REG_TRIM : Nat := 0x282116
abbrev LS_MIN_GAP : Nat := 0x282117
abbrev LS_PICK_MARGIN : Nat := 0x282118
abbrev LS_PICK_RETRIES : Nat := 0x282119
abbrev LS_JAM_LATE : Nat := 0x28211a
abbrev LS_JAM_EARLY : Nat := 0x28211b
abbrev LS_LEN_TOL : Nat := 0x28211c
abbrev LS_JAM_DECEL : Nat := 0x28211d
abbrev LS_GATE_WAIT : Nat := 0x28211e
abbrev LS_SI_TRAY : Nat := 0x28211f
abbrev LS_PURGE_DIST : Nat := 0x282120
abbrev LS_PATH_STATE : Nat := 0x282201
abbrev LS_REG_OFFSET : Nat := 0x282202
abbrev LS_JAM_CAUSE : Nat := 0x282203
abbrev LS_JAM_STAGE : Nat := 0x282204
abbrev LS_JAM_ITEM : Nat := 0x282205
abbrev LS_JAM_CLEAR : Nat := 0x282206
abbrev LS_PURGE : Nat := 0x282207
abbrev LS_PURGED : Nat := 0x282208
abbrev LS_SHEETS : Nat := 0x282209
abbrev LS_JAMS : Nat := 0x28220a

/-! Ax area. -/

abbrev AX_TABLE_BASE : Nat := 0x2a0001
abbrev AX_REFRESH : Nat := 0x2a0002
abbrev AX_REFRESH_OFFSET : Nat := 0x2a0003
abbrev AX_RESIDENT : Nat := 0x2a0004
abbrev AX_SPARE_MAP : Nat := 0x2a0005
abbrev AX_TICKS : Nat := 0x2a0006
abbrev SG_START (i : Nat) : Nat := 0x2a0801 + 0x100 * i
abbrev SG_TRIG_SI (i : Nat) : Nat := 0x2a0802 + 0x100 * i
abbrev SG_MEMBERS (i : Nat) : Nat := 0x2a0803 + 0x100 * i
abbrev SG_ARMED (i : Nat) : Nat := 0x2a0804 + 0x100 * i
abbrev QE_ENABLE (i : Nat) : Nat := 0x2a1001 + 0x100 * i
abbrev QE_INVERT (i : Nat) : Nat := 0x2a1002 + 0x100 * i
abbrev QE_FILTER (i : Nat) : Nat := 0x2a1003 + 0x100 * i
abbrev QE_COUNT (i : Nat) : Nat := 0x2a1004 + 0x100 * i
abbrev QE_INDEX_LATCH (i : Nat) : Nat := 0x2a1005 + 0x100 * i
abbrev QE_ERRORS (i : Nat) : Nat := 0x2a1006 + 0x100 * i
abbrev SD_ENABLE (i : Nat) : Nat := 0x2a1801 + 0x100 * i
abbrev SD_EDGE (i : Nat) : Nat := 0x2a1802 + 0x100 * i
abbrev SD_DIR_INVERT (i : Nat) : Nat := 0x2a1803 + 0x100 * i
abbrev SD_DELAY (i : Nat) : Nat := 0x2a1804 + 0x100 * i
abbrev SD_COUNT (i : Nat) : Nat := 0x2a1805 + 0x100 * i
abbrev SI_CFG (i : Nat) : Nat := 0x2a2001 + 0x1 * i
abbrev SI_STATE : Nat := 0x2a2100
abbrev SI_EDGES (i : Nat) : Nat := 0x2a2201 + 0x1 * i
abbrev AX_STATE (i : Nat) : Nat := 0x2a4001 + 0x100 * i
abbrev AX_ENABLE (i : Nat) : Nat := 0x2a4002 + 0x100 * i
abbrev AX_TARGET (i : Nat) : Nat := 0x2a4003 + 0x100 * i
abbrev AX_SPEED (i : Nat) : Nat := 0x2a4004 + 0x100 * i
abbrev AX_ACCEL (i : Nat) : Nat := 0x2a4005 + 0x100 * i
abbrev AX_DECEL (i : Nat) : Nat := 0x2a4006 + 0x100 * i
abbrev AX_JERK (i : Nat) : Nat := 0x2a4007 + 0x100 * i
abbrev AX_VELOCITY (i : Nat) : Nat := 0x2a4008 + 0x100 * i
abbrev AX_CURRENT (i : Nat) : Nat := 0x2a4009 + 0x100 * i
abbrev AX_FOLLOW (i : Nat) : Nat := 0x2a400a + 0x100 * i
abbrev AX_HOME (i : Nat) : Nat := 0x2a400b + 0x100 * i
abbrev AX_HALT (i : Nat) : Nat := 0x2a400c + 0x100 * i
abbrev AX_STOP (i : Nat) : Nat := 0x2a400d + 0x100 * i
abbrev AX_CLEAR (i : Nat) : Nat := 0x2a400e + 0x100 * i
abbrev AX_GROUP (i : Nat) : Nat := 0x2a400f + 0x100 * i
abbrev AX_ARMED (i : Nat) : Nat := 0x2a4010 + 0x100 * i
abbrev AX_POS (i : Nat) : Nat := 0x2a4011 + 0x100 * i
abbrev AX_VEL (i : Nat) : Nat := 0x2a4012 + 0x100 * i
abbrev AX_POS_ENC (i : Nat) : Nat := 0x2a4013 + 0x100 * i
abbrev AX_FOLLOW_ERR (i : Nat) : Nat := 0x2a4014 + 0x100 * i
abbrev AX_POS_LOST (i : Nat) : Nat := 0x2a4015 + 0x100 * i
abbrev AX_STOP_CAUSE (i : Nat) : Nat := 0x2a4016 + 0x100 * i
abbrev AX_HOME_FAIL (i : Nat) : Nat := 0x2a4017 + 0x100 * i
abbrev AX_OWNER (i : Nat) : Nat := 0x2a4018 + 0x100 * i
abbrev AX_EDIT_TAG (i : Nat) : Nat := 0x2a4019 + 0x100 * i
abbrev AX_OVERSHOOTS (i : Nat) : Nat := 0x2a401a + 0x100 * i
abbrev SD_LIMITED (i : Nat) : Nat := 0x2a401b + 0x100 * i
abbrev AX_DRV_FAULT (i : Nat) : Nat := 0x2a4020 + 0x100 * i
abbrev AX_I_D (i : Nat) : Nat := 0x2a4021 + 0x100 * i
abbrev AX_I_Q (i : Nat) : Nat := 0x2a4022 + 0x100 * i
abbrev AX_RPM (i : Nat) : Nat := 0x2a4023 + 0x100 * i
abbrev AX_FLY_RESULT (i : Nat) : Nat := 0x2a4024 + 0x100 * i
abbrev AX_ADDR (i : Nat) : Nat := 0x2a4025 + 0x100 * i

/-! Drv area. -/

abbrev PP_STATE (i : Nat) : Nat := 0x2b0001 + 0x100 * i
abbrev PP_AXIS (i : Nat) : Nat := 0x2b0002 + 0x100 * i
abbrev PP_OFFSET (i : Nat) : Nat := 0x2b0003 + 0x100 * i
abbrev PP_OFS_STATUS (i : Nat) : Nat := 0x2b0004 + 0x100 * i
abbrev PP_OFS_UNFREEZE (i : Nat) : Nat := 0x2b0005 + 0x100 * i
abbrev PP_CMP_DELAY (i : Nat) : Nat := 0x2b0006 + 0x100 * i
abbrev PP_T_ON (i : Nat) : Nat := 0x2b0007 + 0x100 * i
abbrev PP_T_OFF (i : Nat) : Nat := 0x2b0008 + 0x100 * i
abbrev PP_OC_TRIPS (i : Nat) : Nat := 0x2b0009 + 0x100 * i
abbrev PP_SKIPPED (i : Nat) : Nat := 0x2b000a + 0x100 * i
abbrev PP_PREDICTED (i : Nat) : Nat := 0x2b000b + 0x100 * i
abbrev PP_SERVES (i : Nat) : Nat := 0x2b000c + 0x100 * i
abbrev DRV_MSTEP_TABLE : Nat := 0x2ba001
abbrev BUS_AIN (i : Nat) : Nat := 0x2bc001 + 0x100 * i
abbrev BUS_DIV (i : Nat) : Nat := 0x2bc002 + 0x100 * i
abbrev BUS_WARN (i : Nat) : Nat := 0x2bc003 + 0x100 * i
abbrev BUS_BRK_OFF (i : Nat) : Nat := 0x2bc004 + 0x100 * i
abbrev BUS_BRK_ON (i : Nat) : Nat := 0x2bc005 + 0x100 * i
abbrev BUS_OV_CUT (i : Nat) : Nat := 0x2bc006 + 0x100 * i
abbrev BUS_FB_ENABLE (i : Nat) : Nat := 0x2bc007 + 0x100 * i
abbrev BUS_FB_TIME (i : Nat) : Nat := 0x2bc008 + 0x100 * i
abbrev BUS_RISE_TOL (i : Nat) : Nat := 0x2bc009 + 0x100 * i
abbrev BUS_VOLTAGE (i : Nat) : Nat := 0x2bc00a + 0x100 * i
abbrev BUS_STATE (i : Nat) : Nat := 0x2bc00b + 0x100 * i
abbrev BUS_CLEAR (i : Nat) : Nat := 0x2bc00c + 0x100 * i
abbrev BUS_BRK_CLEAR (i : Nat) : Nat := 0x2bc00d + 0x100 * i
abbrev BUS_BRAKE_TIME (i : Nat) : Nat := 0x2bc00e + 0x100 * i
abbrev BUS_PEAK (i : Nat) : Nat := 0x2bc00f + 0x100 * i
abbrev BUS_CUTS (i : Nat) : Nat := 0x2bc010 + 0x100 * i

/-! Cp area. -/

abbrev CP_ENABLE (i : Nat) : Nat := 0x2c0001 + 0x100 * i
abbrev CP_LANES (i : Nat) : Nat := 0x2c0002 + 0x100 * i
abbrev CP_RATE (i : Nat) : Nat := 0x2c0003 + 0x100 * i
abbrev CP_CLK_MODE (i : Nat) : Nat := 0x2c0004 + 0x100 * i
abbrev CP_CCI_ADDR (i : Nat) : Nat := 0x2c0005 + 0x100 * i
abbrev CP_CCI_SPEED (i : Nat) : Nat := 0x2c0006 + 0x100 * i
abbrev CP_ID_REG (i : Nat) : Nat := 0x2c0007 + 0x100 * i
abbrev CP_ID_VALUE (i : Nat) : Nat := 0x2c0008 + 0x100 * i
abbrev CP_INIT (i : Nat) : Nat := 0x2c0009 + 0x100 * i
abbrev CP_PROBE_PERIOD (i : Nat) : Nat := 0x2c000a + 0x100 * i
abbrev CP_FRAME_TIMEOUT (i : Nat) : Nat := 0x2c000b + 0x100 * i
abbrev CP_RESET_WAIT (i : Nat) : Nat := 0x2c000c + 0x100 * i
abbrev CP_TRIG_SRC (i : Nat) : Nat := 0x2c000d + 0x100 * i
abbrev CP_TRIG_PITCH (i : Nat) : Nat := 0x2c000e + 0x100 * i
abbrev CP_TRIG_WIDTH (i : Nat) : Nat := 0x2c000f + 0x100 * i
abbrev CP_VIEW_DIST (i : Nat) : Nat := 0x2c0010 + 0x100 * i
abbrev CP_FRAME_NUM_SRC (i : Nat) : Nat := 0x2c0011 + 0x100 * i
abbrev CP_STATE (i : Nat) : Nat := 0x2c0012 + 0x100 * i
abbrev CP_PRESENT (i : Nat) : Nat := 0x2c0013 + 0x100 * i
abbrev CP_ID_READ (i : Nat) : Nat := 0x2c0014 + 0x100 * i
abbrev CP_FRAMES (i : Nat) : Nat := 0x2c0015 + 0x100 * i
abbrev CP_DROPS (i : Nat) : Nat := 0x2c0016 + 0x100 * i
abbrev CP_LAST_DROP (i : Nat) : Nat := 0x2c0017 + 0x100 * i
abbrev CP_ECC_CORR (i : Nat) : Nat := 0x2c0018 + 0x100 * i
abbrev CP_ECC_ERR (i : Nat) : Nat := 0x2c0019 + 0x100 * i
abbrev CP_CRC_ERR (i : Nat) : Nat := 0x2c001a + 0x100 * i
abbrev CP_SHORT (i : Nat) : Nat := 0x2c001b + 0x100 * i
abbrev CP_LONG (i : Nat) : Nat := 0x2c001c + 0x100 * i
abbrev CP_WIDTH_ERR (i : Nat) : Nat := 0x2c001d + 0x100 * i
abbrev CP_BUF_PEAK (i : Nat) : Nat := 0x2c001e + 0x100 * i
abbrev CP_RESTART (i : Nat) : Nat := 0x2c001f + 0x100 * i
abbrev IP_MODE (i : Nat) : Nat := 0x2c8001 + 0x100 * i
abbrev IP_CTX_ENABLE (i : Nat) : Nat := 0x2c8002 + 0x100 * i
abbrev IP_STATE (i : Nat) : Nat := 0x2c8003 + 0x100 * i
abbrev IP_BUSY_CTX (i : Nat) : Nat := 0x2c8004 + 0x100 * i
abbrev IP_PIXELS (i : Nat) : Nat := 0x2c8005 + 0x100 * i
abbrev IP_LOAD (i : Nat) : Nat := 0x2c8006 + 0x100 * i
abbrev IN_CTX_RECORD (i : Nat) : Nat := 0x2c9001 + 0x100 * i
abbrev IN_CTX_FRAMES (i : Nat) : Nat := 0x2c9002 + 0x100 * i
abbrev IN_STATS_LATEST (i : Nat) : Nat := 0x2c9003 + 0x100 * i
abbrev IN_STATS_NEXT (i : Nat) : Nat := 0x2c9004 + 0x100 * i

/-! In area. -/

abbrev IN_SL_PIPE : Nat := 0x2d0001
abbrev IN_SL_CONTEXT : Nat := 0x2d0002
abbrev IN_REQUIRE : Nat := 0x2d0003
abbrev IN_CLOSE_TIMEOUT : Nat := 0x2d0004
abbrev IN_VWIN_SCANS : Nat := 0x2d0005
abbrev IN_RESULTS : Nat := 0x2d0006
abbrev IN_TARGET (i : Nat) : Nat := 0x2d0101 + 0x1 * i
abbrev IN_LEARN_ENABLE (i : Nat) : Nat := 0x2d1001 + 0x100 * i
abbrev IN_LEARN_SHIFT (i : Nat) : Nat := 0x2d1002 + 0x100 * i
abbrev IN_LEARN_MIN_LINES (i : Nat) : Nat := 0x2d1003 + 0x100 * i
abbrev IN_GAIN_PENDING (i : Nat) : Nat := 0x2d1004 + 0x100 * i
abbrev IN_GAIN_STATUS (i : Nat) : Nat := 0x2d1005 + 0x100 * i
abbrev IN_GAIN_FREEZE_COUNT (i : Nat) : Nat := 0x2d1006 + 0x100 * i
abbrev IN_GAIN_UNFREEZE (i : Nat) : Nat := 0x2d1007 + 0x100 * i
abbrev IN_GAIN_FROZEN_MAP (i : Nat) : Nat := 0x2d1008 + 0x100 * i
abbrev IN_LEARN_LAST_ITEM (i : Nat) : Nat := 0x2d1009 + 0x100 * i

/-! An area. -/

abbrev AN_STATE : Nat := 0x2e0001
abbrev AN_LOAD : Nat := 0x2e0002
abbrev AN_SEQ_LATE : Nat := 0x2e0003
abbrev AN_ABORTS : Nat := 0x2e0004
abbrev AN_POWERUPS : Nat := 0x2e0005
abbrev AN_ROTATIONS : Nat := 0x2e0006
abbrev AN_TEMP_COMP : Nat := 0x2e0007
abbrev AN_CHECK_TOL : Nat := 0x2e0008
abbrev AN_SEQ_TABLE : Nat := 0x2e0009
abbrev AN_DISCARDS : Nat := 0x2e000a
abbrev AN_OVR_COUNT : Nat := 0x2e000b
abbrev AN_CH_CFG (i : Nat) : Nat := 0x2e0101 + 0x1 * i
abbrev AN_SL_ROLE (i : Nat) : Nat := 0x2e1001 + 0x100 * i
abbrev AN_SL_OFS (i : Nat) : Nat := 0x2e1002 + 0x100 * i
abbrev AN_SL_GAIN (i : Nat) : Nat := 0x2e1003 + 0x100 * i
abbrev AN_SL_OFS_MIN (i : Nat) : Nat := 0x2e1004 + 0x100 * i
abbrev AN_SL_OFS_MAX (i : Nat) : Nat := 0x2e1005 + 0x100 * i
abbrev AN_SL_GAIN_MIN (i : Nat) : Nat := 0x2e1006 + 0x100 * i
abbrev AN_SL_GAIN_MAX (i : Nat) : Nat := 0x2e1007 + 0x100 * i
abbrev AN_SL_CAL_STATUS (i : Nat) : Nat := 0x2e1008 + 0x100 * i
abbrev AN_SL_FREEZE_COUNT (i : Nat) : Nat := 0x2e1009 + 0x100 * i
abbrev AN_SL_UNFREEZE (i : Nat) : Nat := 0x2e100a + 0x100 * i
abbrev AN_SL_FAIL (i : Nat) : Nat := 0x2e100b + 0x100 * i
abbrev AN_ACC_SUBS (i : Nat) : Nat := 0x2e2000 + 0x100 * i
abbrev AN_ACC_FILTER (i : Nat) : Nat := 0x2e2001 + 0x1 * i
abbrev AN_ACC_RESULT (i : Nat) : Nat := 0x2e2101 + 0x1 * i
abbrev AN_ACC_FLAGS (i : Nat) : Nat := 0x2e2201 + 0x1 * i
abbrev AN_ACC_TIME (i : Nat) : Nat := 0x2e2301 + 0x1 * i
abbrev AN_ACC_RESET (i : Nat) : Nat := 0x2e2401 + 0x1 * i
abbrev AN_MM_SUBS (i : Nat) : Nat := 0x2e3000 + 0x100 * i
abbrev AN_MM_MIN (i : Nat) : Nat := 0x2e3001 + 0x1 * i
abbrev AN_MM_MAX (i : Nat) : Nat := 0x2e3101 + 0x1 * i
abbrev AN_MM_COUNT (i : Nat) : Nat := 0x2e3201 + 0x1 * i
abbrev AN_MM_FLAGS (i : Nat) : Nat := 0x2e3301 + 0x1 * i
abbrev AN_MM_RESET (i : Nat) : Nat := 0x2e3401 + 0x1 * i

/-! Net area. -/

abbrev UA_MODE (i : Nat) : Nat := 0x2f0001 + 0x100 * i
abbrev UA_RATE (i : Nat) : Nat := 0x2f0002 + 0x100 * i
abbrev UA_DIV (i : Nat) : Nat := 0x2f0003 + 0x100 * i
abbrev UA_RATE_ACTUAL (i : Nat) : Nat := 0x2f0004 + 0x100 * i
abbrev UA_RL_DIV (i : Nat) : Nat := 0x2f0005 + 0x100 * i
abbrev UA_DATA_BITS (i : Nat) : Nat := 0x2f0006 + 0x100 * i
abbrev UA_PARITY (i : Nat) : Nat := 0x2f0007 + 0x100 * i
abbrev UA_STOP (i : Nat) : Nat := 0x2f0008 + 0x100 * i
abbrev UA_FLOW (i : Nat) : Nat := 0x2f0009 + 0x100 * i
abbrev UA_RTS_HIGH (i : Nat) : Nat := 0x2f000a + 0x100 * i
abbrev UA_RTS_LOW (i : Nat) : Nat := 0x2f000b + 0x100 * i
abbrev UA_RX_BASE (i : Nat) : Nat := 0x2f000c + 0x100 * i
abbrev UA_RX_SIZE (i : Nat) : Nat := 0x2f000d + 0x100 * i
abbrev UA_RX_WR (i : Nat) : Nat := 0x2f000e + 0x100 * i
abbrev UA_RX_RD (i : Nat) : Nat := 0x2f000f + 0x100 * i
abbrev UA_TX_BASE (i : Nat) : Nat := 0x2f0010 + 0x100 * i
abbrev UA_TX_SIZE (i : Nat) : Nat := 0x2f0011 + 0x100 * i
abbrev UA_TX_WR (i : Nat) : Nat := 0x2f0012 + 0x100 * i
abbrev UA_TX_RD (i : Nat) : Nat := 0x2f0013 + 0x100 * i
abbrev UA_TX_BREAK (i : Nat) : Nat := 0x2f0014 + 0x100 * i
abbrev UA_LINE (i : Nat) : Nat := 0x2f0015 + 0x100 * i
abbrev UA_OVERRUNS (i : Nat) : Nat := 0x2f0016 + 0x100 * i
abbrev UA_FRAMING (i : Nat) : Nat := 0x2f0017 + 0x100 * i
abbrev UA_PARITY_ERR (i : Nat) : Nat := 0x2f0018 + 0x100 * i
abbrev UA_BREAKS (i : Nat) : Nat := 0x2f0019 + 0x100 * i
abbrev UA_FALSE_STARTS (i : Nat) : Nat := 0x2f001a + 0x100 * i
abbrev UA_STATE (i : Nat) : Nat := 0x2f001b + 0x100 * i
abbrev NET_LINK (i : Nat) : Nat := 0x2f8001 + 0x100 * i
abbrev NET_MAC (i : Nat) : Nat := 0x2f8002 + 0x100 * i
abbrev NET_IP_MODE (i : Nat) : Nat := 0x2f8003 + 0x100 * i
abbrev NET_IP_ADDR (i : Nat) : Nat := 0x2f8004 + 0x100 * i
abbrev NET_IP_MASK (i : Nat) : Nat := 0x2f8005 + 0x100 * i
abbrev NET_IP_GW (i : Nat) : Nat := 0x2f8006 + 0x100 * i
abbrev NET_PORT_ENABLE (i : Nat) : Nat := 0x2f8007 + 0x100 * i
abbrev NET_RX_DROPS_TC0 (i j : Nat) : Nat := 0x2f8008 + 0x100 * i + 1 * j
abbrev NET_RX_BAD (i : Nat) : Nat := 0x2f800b + 0x100 * i
abbrev NET_TC0_DEMOTED (i : Nat) : Nat := 0x2f800c + 0x100 * i
abbrev NET_STOP_ALL : Nat := 0x2f8801
abbrev NET_HWX_PORT : Nat := 0x2f8802
abbrev NET_HWX_ALLOW (i : Nat) : Nat := 0x2f8803 + 0x1 * i
abbrev NET_HB_PERIOD : Nat := 0x2f8807
abbrev NET_EV_RETRY : Nat := 0x2f8808
abbrev NET_HOST_LOSS_ACTION : Nat := 0x2f8809
abbrev NET_HOST_STATE : Nat := 0x2f880a
abbrev NET_SESSIONS : Nat := 0x2f880b
abbrev NET_PD_REFUSED : Nat := 0x2f880c
abbrev NET_CAN_MODE (i : Nat) : Nat := 0x2f9001 + 0x100 * i
abbrev NET_CAN_NODE (i : Nat) : Nat := 0x2f9002 + 0x100 * i
abbrev NET_CAN_NOMINAL (i : Nat) : Nat := 0x2f9003 + 0x100 * i
abbrev NET_CAN_DATA (i : Nat) : Nat := 0x2f9004 + 0x100 * i
abbrev NET_CAN_SP_NOM (i : Nat) : Nat := 0x2f9005 + 0x100 * i
abbrev NET_CAN_SP_DATA (i : Nat) : Nat := 0x2f9006 + 0x100 * i
abbrev NET_CAN_STATE (i : Nat) : Nat := 0x2f9007 + 0x100 * i
abbrev NET_CAN_ERR (i : Nat) : Nat := 0x2f9008 + 0x100 * i
abbrev NET_CAN_AUTO_RECOVER (i : Nat) : Nat := 0x2f9009 + 0x100 * i
abbrev NET_NMT_RESET_ENABLE (i : Nat) : Nat := 0x2f900a + 0x100 * i
abbrev NET_NMT_RESET_IGNORED (i : Nat) : Nat := 0x2f900b + 0x100 * i
abbrev NET_CAN_TIME (i : Nat) : Nat := 0x2f900c + 0x100 * i
abbrev NET_CAN_RECOVER (i : Nat) : Nat := 0x2f900d + 0x100 * i
abbrev NET_CAN_RESTART (i : Nat) : Nat := 0x2f900e + 0x100 * i
abbrev NET_PTP_ENABLE : Nat := 0x2f9801
abbrev NET_PTP_PORT : Nat := 0x2f9802
abbrev NET_PTP_DOMAIN : Nat := 0x2f9803
abbrev NET_PTP_STEP : Nat := 0x2f9804
abbrev NET_PTP_STATE : Nat := 0x2f9805
abbrev NET_PTP_LOCK_TOL : Nat := 0x2f9806
abbrev NET_PTP_OFFSET : Nat := 0x2f9807
abbrev NET_PTP_RATE : Nat := 0x2f9808
abbrev NET_PD_ROUTE (i : Nat) : Nat := 0x2fa001 + 0x1 * i

/-! Nv area. -/

abbrev NV_BUSY : Nat := 0x300001
abbrev NV_ECC_WARN : Nat := 0x300002
abbrev NV_SPARES_FREE : Nat := 0x300003
abbrev NV_FAILED_BLOCKS : Nat := 0x300004
abbrev NV_SUSP_READS : Nat := 0x300005
abbrev NV_BOOT_COUNT : Nat := 0x300006
abbrev NV_BLK_SEL : Nat := 0x300101
abbrev NV_BLK_STATE : Nat := 0x300102
abbrev NV_BLK_ERASES : Nat := 0x300103
abbrev NV_BLK_CORR_MAX : Nat := 0x300104
abbrev NV_BLK_SPARE : Nat := 0x300105
abbrev NV_BLK_REGION : Nat := 0x300106
abbrev NV_WP_LO : Nat := 0x300201
abbrev NV_WP_HI : Nat := 0x300202
abbrev NV_OP_BLOCK : Nat := 0x300301
abbrev NV_OP_PAGE : Nat := 0x300302
abbrev NV_OP_PAGES : Nat := 0x300303
abbrev NV_OP_SRC : Nat := 0x300304
abbrev NV_OP_CTRL : Nat := 0x300305
abbrev NV_OP_STATE : Nat := 0x300306
abbrev NV_OP_FAIL : Nat := 0x300307
abbrev NV_PROT_STAGE : Nat := 0x300401
abbrev NV_PROT_CTRL : Nat := 0x300402
abbrev NV_PROT_ACTIVE : Nat := 0x300403
abbrev NV_PROT_STATE : Nat := 0x300404
abbrev NV_OTP_VENDOR : Nat := 0x301001
abbrev NV_OTP_CUSTOMER : Nat := 0x301002
abbrev NV_OTP_STATE : Nat := 0x301003
abbrev NV_ATTEST_CHALLENGE : Nat := 0x301004
abbrev NV_ATTEST_RESPONSE : Nat := 0x301005
abbrev NV_BANK_SRC : Nat := 0x302001
abbrev NV_BANK_LEN : Nat := 0x302002
abbrev NV_BANK_CTRL : Nat := 0x302003
abbrev NV_BANK_STATE_A : Nat := 0x302004
abbrev NV_BANK_STATE_B : Nat := 0x302005
abbrev NV_BANK_PROGRESS : Nat := 0x302006
abbrev NV_BANK_FAIL : Nat := 0x302007
abbrev NV_BANK_HEADERS_A : Nat := 0x302101
abbrev NV_BANK_HEADERS_B : Nat := 0x302102

/-! Mem area. -/

abbrev MEM_BASE (i : Nat) : Nat := 0x310001 + 0x100 * i
abbrev MEM_SIZE (i : Nat) : Nat := 0x310002 + 0x100 * i
abbrev MEM_WRITABLE (i : Nat) : Nat := 0x310003 + 0x100 * i
abbrev MEM_ENABLE (i : Nat) : Nat := 0x310004 + 0x100 * i
abbrev MEM_CAN_OFFSET (i : Nat) : Nat := 0x310005 + 0x100 * i
abbrev MEM_CAN_DATA (i : Nat) : Nat := 0x310006 + 0x100 * i

end Sys2Proof.Machine.K
end

