-- ==== Sys2Proof/Machine/Bits.lean ====
section
/-! DEFINITION. Bit fields, sign extension, byte order and rounding helpers. Multi-byte values are little-endian (R5). -/

namespace Sys2Proof.Machine

/-- Bits [hi:lo] of a word. -/
def bits (x hi lo : Nat) : Nat := (x / 2 ^ lo) % 2 ^ (hi + 1 - lo)

/-- Bit i of a word. -/
def bit (x i : Nat) : Bool := x.testBit i

/-- Bit i as a number. -/
def bitN (x i : Nat) : Nat := (x / 2 ^ i) % 2

/-- A word with bit i set or cleared. -/
def withBit (x i : Nat) (b : Bool) : Nat :=
  let c := x - 2 ^ i * bitN x i
  if b then c + 2 ^ i else c

/-- The number a Bool stands for. -/
def b2n (b : Bool) : Nat := if b then 1 else 0

/-- Two's complement reading of the low w bits. -/
def sext (w x : Nat) : Int :=
  let y := x % 2 ^ w
  if y < 2 ^ (w - 1) then (y : Int) else (y : Int) - (2 ^ w : Nat)

/-- The low w bits of an integer's two's complement. -/
def ofInt (w : Nat) (x : Int) : Nat := (x % (2 ^ w : Nat)).toNat

/-- n bytes at byte offset off, as a number. -/
def fld (x off n : Nat) : Nat := (x / 256 ^ off) % 256 ^ n

/-- n bytes at byte offset off, signed. -/
def sfld (x off n : Nat) : Int := sext (8 * n) (fld x off n)

/-- x with the n bytes at byte offset off replaced. -/
def setFld (x off n v : Nat) : Nat :=
  x - fld x off n * 256 ^ off + (v % 256 ^ n) * 256 ^ off

/-- The n bytes of a number, least significant first. -/
def leBytes : Nat → Nat → List Byte
  | 0, _ => []
  | n + 1, x => BitVec.ofNat 8 x :: leBytes n (x / 256)

/-- The number a byte string spells, least significant byte first. -/
def ofLe : List Byte → Nat
  | [] => 0
  | b :: bs => b.toNat + 256 * ofLe bs

/-- The number a byte string spells, most significant byte first. -/
def ofBe (l : List Byte) : Nat := ofLe l.reverse

/-- The n bytes of a number, most significant first. -/
def beBytes (n x : Nat) : List Byte := (leBytes n x).reverse

/-- A list of numbers packed with w bytes each, first lowest. -/
def packLe (w : Nat) : List Nat → Nat
  | [] => 0
  | v :: vs => v % 256 ^ w + 256 ^ w * packLe w vs

/-- Number of set bits among the low n. -/
def popcount : Nat → Nat → Nat
  | 0, _ => 0
  | n + 1, x => x % 2 + popcount n (x / 2)

/-- The set bits among the low n, rising. -/
def bitsSet (n x : Nat) : List Nat := (List.range n).filter (fun i => bit x i)

/-- Clamp an integer into a range. -/
def clampI (lo hi x : Int) : Int := if x < lo then lo else if hi < x then hi else x

/-- Clamp a number into a range. -/
def clampN (lo hi x : Nat) : Nat := if x < lo then lo else if hi < x then hi else x

/-- Division rounded up. -/
def ceilDiv (a b : Nat) : Nat := (a + b - 1) / b

/-- Division rounded to the nearest whole number, half upwards. -/
def roundDiv (a b : Nat) : Nat := (2 * a + b) / (2 * b)

/-- A rational rounded to the nearest integer, half away from zero. -/
def roundRat (q : Rat) : Int :=
  if 0 ≤ q then (q + 1 / 2).floor else -((-q + 1 / 2).floor)

/-- A rational rounded to the nearest integer, half to even. -/
def roundEven (q : Rat) : Int :=
  let f := q.floor
  let d := q - f
  if d < 1 / 2 then f else if 1 / 2 < d then f + 1 else if f % 2 = 0 then f else f + 1

/-- Element i of a list, or a default. -/
def nth {α : Type} (d : α) (l : List α) (i : Nat) : α := l.getD i d

/-- The elements together with their place. -/
def enumFrom {α : Type} : Nat → List α → List (Nat × α)
  | _, [] => []
  | i, a :: l => (i, a) :: enumFrom (i + 1) l

/-- Fold over the places 0 .. n-1. -/
def upto {σ : Type} (n : Nat) (s : σ) (f : σ → Nat → σ) : σ := (List.range n).foldl f s

/-- One bit of the reflected CRC-32 register (IEEE 802.3). -/
def crcBit (c : Nat) : Nat := if c % 2 = 1 then (c / 2) ^^^ 0xEDB88320 else c / 2

/-- One byte into the CRC-32 register. -/
def crcByte (c : Nat) (b : Byte) : Nat := upto 8 (c ^^^ b.toNat) (fun c _ => crcBit c)

/-- CRC-32 of a byte string (IEEE 802.3): 0 for no bytes. -/
def crc32 (bs : List Byte) : Nat := (bs.foldl crcByte 0xFFFFFFFF) ^^^ 0xFFFFFFFF

/-- Pad a list to a length. -/
def padTo {α : Type} (n : Nat) (d : α) (l : List α) : List α := (l ++ List.replicate n d).take n

end Sys2Proof.Machine
end

