-- ==== Sys2Proof/Machine/Real.lean ====
section
/-! DEFINITION. REAL32, the IEEE 754 single-precision numbers (R318), as exact rationals with one rounding after each
operation. Rounding is to nearest, ties to even (DEDUCED, log entry 12: the spec says single precision and does not
name a rounding). The sign of a zero is not kept. -/

namespace Sys2Proof.Machine

/-- A single-precision value: a finite number, an infinity with its sign, or not-a-number. -/
inductive R32 where
  | fin (q : Rat)
  | inf (neg : Bool)
  | nan
  deriving DecidableEq, Repr

/-- floor of log2 of n/d for n, d above 0. -/
def R32.ilog2 (n d : Nat) : Int :=
  let e : Int := (Nat.log2 n : Int) - (Nat.log2 d : Int)
  -- 2^e <= n/d or one less
  let ge := if 0 ≤ e then decide (2 ^ e.toNat * d ≤ n) else decide (d ≤ n * 2 ^ (-e).toNat)
  if ge then e else e - 1

/-- 2 to an integer power. -/
def R32.pow2 (e : Int) : Rat := if 0 ≤ e then ((2 ^ e.toNat : Nat) : Rat) else 1 / ((2 ^ (-e).toNat : Nat) : Rat)

/-- Round an exact value to single precision. -/
def R32.round (q : Rat) : R32 :=
  if q = 0 then .fin 0
  else
    let e := R32.ilog2 q.num.natAbs q.den
    let ulp := if e < -126 then -149 else e - 23
    let r : Rat := (roundEven (q / R32.pow2 ulp) : Rat) * R32.pow2 ulp
    if R32.pow2 128 ≤ r then .inf false else if r ≤ -R32.pow2 128 then .inf true else .fin r

/-- The value of a 32-bit pattern. -/
def R32.ofBits (x : Nat) : R32 :=
  let neg := bit x 31
  let e := bits x 30 23
  let f := bits x 22 0
  if e = 255 then (if f = 0 then .inf neg else .nan)
  else
    let q : Rat := if e = 0 then (f : Rat) * R32.pow2 (-149) else ((f + 2 ^ 23 : Nat) : Rat) * R32.pow2 ((e : Int) - 150)
    .fin (if neg then -q else q)

/-- The 32-bit pattern of a value. -/
def R32.toBits : R32 → Nat
  | .nan => 0x7FC00000
  | .inf neg => if neg then 0xFF800000 else 0x7F800000
  | .fin q =>
    if q = 0 then 0
    else
      let e := R32.ilog2 q.num.natAbs q.den
      let a : Rat := if q < 0 then -q else q
      let s := if q < 0 then 2 ^ 31 else 0
      if e < -126 then s + (a / R32.pow2 (-149)).floor.toNat
      else s + (e + 127).toNat * 2 ^ 23 + ((a / R32.pow2 (e - 23)).floor.toNat - 2 ^ 23)

/-- Whether a value is finite. -/
def R32.isFin : R32 → Bool
  | .fin _ => true
  | _ => false

/-- The exact value of a finite number, 0 otherwise. -/
def R32.val : R32 → Rat
  | .fin q => q
  | _ => 0

def R32.neg : R32 → R32
  | .fin q => .fin (-q)
  | .inf b => .inf (!b)
  | .nan => .nan

def R32.add : R32 → R32 → R32
  | .fin a, .fin b => R32.round (a + b)
  | .nan, _ => .nan
  | _, .nan => .nan
  | .inf a, .inf b => if a = b then .inf a else .nan
  | .inf a, .fin _ => .inf a
  | .fin _, .inf b => .inf b

def R32.sub (a b : R32) : R32 := R32.add a b.neg

def R32.mul : R32 → R32 → R32
  | .fin a, .fin b => R32.round (a * b)
  | .nan, _ => .nan
  | _, .nan => .nan
  | .inf a, .inf b => .inf (a != b)
  | .inf a, .fin q => if q = 0 then .nan else .inf (a != decide (q < 0))
  | .fin q, .inf b => if q = 0 then .nan else .inf (b != decide (q < 0))

def R32.div : R32 → R32 → R32
  | .fin a, .fin b => if b = 0 then (if a = 0 then .nan else .inf (decide (a < 0))) else R32.round (a / b)
  | .nan, _ => .nan
  | _, .nan => .nan
  | .inf _, .inf _ => .nan
  | .inf a, .fin q => .inf (a != decide (q < 0))
  | .fin _, .inf _ => .fin 0

/-- Less than; false when either is not a number. -/
def R32.lt : R32 → R32 → Bool
  | .fin a, .fin b => decide (a < b)
  | .inf true, .inf true => false
  | .inf true, .fin _ => true
  | .inf true, .inf false => true
  | .fin _, .inf false => true
  | _, _ => false

/-- At most; false when either is not a number. -/
def R32.le : R32 → R32 → Bool
  | .nan, _ => false
  | _, .nan => false
  | a, b => !(R32.lt b a)

def R32.max (a b : R32) : R32 := if R32.lt a b then b else a
def R32.min (a b : R32) : R32 := if R32.lt b a then b else a

/-- A whole number as REAL32. -/
def R32.ofInt (x : Int) : R32 := R32.round (x : Rat)

/-- A natural number as REAL32. -/
def R32.ofNat (x : Nat) : R32 := R32.round (x : Rat)

/-- Bits of zero. -/
def R32.zero : R32 := .fin 0

end Sys2Proof.Machine
end

