-- ==== Sys2Proof/Machine/Operands.lean ====
section
/-! DEFINITION. The operand forms of an access: the type, access, range and Sampled rule of an object's card, and the
judgement of a written value by the bytes transferred (R7, R8, R319). -/

namespace Sys2Proof.Machine

/-- The outcome of an object or memory access (R319). -/
inductive Status where
  | ok | noObject | noSub | readOnly | length | range | refused | state
  | addressNotMapped | addressNotWritable | unavailable | noSession
  deriving DecidableEq, Repr

/-- The Hywex Link number of a status (R319). -/
def Status.code : Status → Nat
  | .ok => 0 | .noObject => 1 | .noSub => 2 | .readOnly => 3 | .length => 4 | .range => 5 | .refused => 6 | .state => 7
  | .addressNotMapped => 8 | .addressNotWritable => 9 | .unavailable => 10 | .noSession => 11

/-- The CANopen abort code of a status, 0 where R319 gives none. -/
def Status.abort : Status → Nat
  | .ok => 0 | .noObject => 0x06020000 | .noSub => 0x06090011 | .readOnly => 0x06010002 | .length => 0x06070010
  | .range => 0x06090030 | .refused => 0x08000020 | .state => 0x08000022 | .addressNotMapped => 0x08000024
  | .addressNotWritable => 0x06010002 | .unavailable => 0x08000021 | .noSession => 0

/-- The type of a sub-index; a DOMAIN of fixed length, or of any length up to a maximum (R5). -/
inductive ObjTy where
  | uns (n : Nat) | int (n : Nat) | real | bool | dom (n : Nat) | domVar (max : Nat)
  deriving DecidableEq, Repr

/-- The Access column (R7). -/
inductive Acc where
  | ro | rw | wo | const
  deriving DecidableEq, Repr

/-- The values a card's Range/Unit column allows. -/
inductive Rng where
  | any
  | nat (lo hi : Nat)
  | int (lo hi : Int)
  | oneOf (l : List Nat)
  | orVal (hi v : Nat)
  | mulOf (lo hi m : Nat)
  | f32Pos | f32NonNeg | f32Finite
  | f32In (lo hi : Nat)
  deriving DecidableEq, Repr

/-- The Sampled column (R8); trigger stands for a card that names its own moment. -/
inductive Sampled where
  | atOnce | commit | fire | tick | frame | enable | restart | rendering | trigger
  deriving DecidableEq, Repr

/-- One object card row: the key of its first sub-index, its instances and their key stride, its array places and their
key stride, and its columns. -/
structure ObjRow where
  base : Nat
  n1 : Nat
  s1 : Nat
  n2 : Nat
  s2 : Nat
  ty : ObjTy
  acc : Acc
  dflt : Nat
  rng : Rng
  samp : Sampled
  deriving DecidableEq, Repr

/-- The instance and array place of a key in a row, if the row holds it. -/
def ObjRow.place (r : ObjRow) (k : Nat) : Option (Nat × Nat) :=
  if k < r.base then none
  else
    let d := k - r.base
    if r.n1 = 1 then (if d % r.s2 = 0 ∧ d / r.s2 < r.n2 then some (0, d / r.s2) else none)
    else
      let q := d % r.s1
      if d / r.s1 < r.n1 ∧ q % r.s2 = 0 ∧ q / r.s2 < r.n2 then some (d / r.s1, q / r.s2) else none

/-- The size of a type in bytes; a DOMAIN of variable length has none of its own. -/
def ObjTy.size : ObjTy → Option Nat
  | .uns n => some n | .int n => some n | .real => some 4 | .bool => some 1 | .dom n => some n | .domVar _ => none

/-- Whether the number of transferred bytes fits the type (R319, LENGTH). -/
def ObjTy.lengthOk (t : ObjTy) (n : Nat) : Bool :=
  match t with
  | .domVar m => decide (n ≤ m)
  | t => t.size == some n

/-- Whether a sub-index is a DOMAIN (R320, R332). -/
def ObjTy.isDomain : ObjTy → Bool
  | .dom _ => true | .domVar _ => true | _ => false

/-- The stored number of a written byte string: its little-endian value; a DOMAIN of variable length carries a final 1
byte above its last byte, so that its length is kept. -/
def ObjTy.encode (t : ObjTy) (bs : List Byte) : Nat :=
  match t with
  | .domVar _ => ofLe bs + 256 ^ bs.length
  | _ => ofLe bs

/-- The length in bytes of a stored value of variable length. -/
def domVarLen (v : Nat) : Nat := Nat.log2 v / 8

/-- The byte string of a stored number. -/
def ObjTy.decode (t : ObjTy) (v : Nat) : List Byte :=
  match t with
  | .domVar _ => leBytes (domVarLen v) v
  | .uns n => leBytes n v | .int n => leBytes n v | .real => leBytes 4 v | .bool => leBytes 1 v | .dom n => leBytes n v

/-- Whether a value lies in a card's range, read in the type of the sub-index (R319, RANGE). -/
def Rng.allows (r : Rng) (t : ObjTy) (v : Nat) : Bool :=
  match r with
  | .any => true
  | .nat lo hi => decide (lo ≤ v ∧ v ≤ hi)
  | .int lo hi =>
    match t with
    | .int n => decide (lo ≤ sext (8 * n) v ∧ sext (8 * n) v ≤ hi)
    | _ => decide (lo ≤ (v : Int) ∧ (v : Int) ≤ hi)
  | .oneOf l => l.contains v
  | .orVal hi x => decide (v ≤ hi ∨ v = x)
  | .mulOf lo hi m => decide (lo ≤ v ∧ v ≤ hi ∧ v % m = 0)
  | .f32Pos => (R32.ofBits v).isFin && R32.lt .zero (R32.ofBits v)
  | .f32NonNeg => (R32.ofBits v).isFin && R32.le .zero (R32.ofBits v)
  | .f32Finite => (R32.ofBits v).isFin
  | .f32In lo hi => R32.le (R32.ofBits lo) (R32.ofBits v) && R32.le (R32.ofBits v) (R32.ofBits hi)

/-- Access column of a write: RO and CONST refuse it (R7). -/
def Acc.writable : Acc → Bool
  | .rw => true | .wo => true | .ro => false | .const => false

/-- The judgement of a written value by its card: access, then length, then range (R319). -/
def ObjRow.judge (r : ObjRow) (bs : List Byte) : Status :=
  if r.acc.writable = false then .readOnly
  else if r.ty.lengthOk bs.length = false then .length
  else if r.rng.allows r.ty (r.ty.encode bs) = false then .range
  else .ok

end Sys2Proof.Machine
end

