-- ==== Sys2Proof/Machine/ObjTable.lean ====
section
/-! DEFINITION. The object cards of the spec as data: for every object its key, its instances, its type, access,
default, range and Sampled rule, as its card in spec/ gives them (R7, R8, R27, R318, R319). A BOOLEAN allows 0 and 1.
Where a card's default is not a number, the row holds 0 and State.reset or the boot sets the value. -/

namespace Sys2Proof.Machine.ObjTable

open Sys2Proof.Machine

/-- The 4,096 learned gains of a head, each at 4,096 (unity), UNSIGNED16 (R73, R295). -/
def gains4096 : Nat := 4096 * ((2 ^ 65536 - 1) / 65535)

/-- A pass mask of 512 bytes with every bit 1 (R111). -/
def allOnes4096 : Nat := 2 ^ 4096 - 1

/-- The default record of its card, as one little-endian number. -/
def modelDefault : Nat := 0x3f800000000000004248000000000001

/-- The default record of its card, as one little-endian number. -/
def screenDefault : Nat := 0xff00000000000000000000000000000000000000000000000000000000000000001010101010101010101010101010100000000000000000000000ffff00000101

/-- The default record of its card, as one little-endian number. -/
def paperDefault : Nat := 0x3e8ffff0000ffff000000000b9a

/-- The default record of its card, as one little-endian number. -/
def ctxDefault : Nat := 0x1001d964d10001000100000000000000000000fff00000000000000000000000000000000000000000000000000000001000100000000

/-- The default micro-step table: 512 INTEGER16 samples of one sine period of amplitude 32,767, rounded to nearest (R254). -/
def mstepSine : Nat := 0x2f872e112c992b1f29a3282626a8252823a62223209f1f1a1d931c0b1a8218f9176e15e2145512c8113a0fab0e1c0c8c0afb096a07d9064804b6032401920000 * 2 ^ 0 +
  0x59645842571d55f554c9539b526851334ffb4ebf4d814c3f4afb49b44869471c45cd447a432541ce40733f173db83c563af2398c382436ba354d33df326e30fb * 2 ^ 512 +
  0x75a57504745f73b573077254719d70e270226f5e6e966dc96cf86c236b4a6a6d698b68a667bc66cf65dd64e863ee62f161f060eb5fe35ed75dc75cb35b9c5a82 * 2 ^ 1024 +
  0x7ffd7ff57fe97fd87fc17fa67f867f617f377f097ed57e9c7e5f7e1d7dd57d897d397ce37c887c297bc57b5c7aee7a7c7a0579897909788477fa776b76d87641 * 2 ^ 1536 +
  0x76d8776b77fa7884790979897a057a7c7aee7b5c7bc57c297c887ce37d397d897dd57e1d7e5f7e9c7ed57f097f377f617f867fa67fc17fd87fe97ff57ffd7fff * 2 ^ 2048 +
  0x5b9c5cb35dc75ed75fe360eb61f062f163ee64e865dd66cf67bc68a6698b6a6d6b4a6c236cf86dc96e966f5e702270e2719d7254730773b5745f750475a57641 * 2 ^ 2560 +
  0x326e33df354d36ba3824398c3af23c563db83f17407341ce4325447a45cd471c486949b44afb4c3f4d814ebf4ffb51335268539b54c955f5571d584259645a82 * 2 ^ 3072 +
  0x0192032404b6064807d9096a0afb0c8c0e1c0fab113a12c8145515e2176e18f91a821c0b1d931f1a209f222323a6252826a8282629a32b1f2c992e112f8730fb * 2 ^ 3584 +
  0xd079d1efd367d4e1d65dd7dad958dad8dc5adddddf61e0e6e26de3f5e57ee707e892ea1eebabed38eec6f055f1e4f374f505f696f827f9b8fb4afcdcfe6e0000 * 2 ^ 4096 +
  0xa69ca7bea8e3aa0bab37ac65ad98aecdb005b141b27fb3c1b505b64cb797b8e4ba33bb86bcdbbe32bf8dc0e9c248c3aac50ec674c7dcc946cab3cc21cd92cf05 * 2 ^ 4608 +
  0x8a5b8afc8ba18c4b8cf98dac8e638f1e8fde90a2916a9237930893dd94b695939675975a984499319a239b189c129d0f9e109f15a01da129a239a34da464a57e * 2 ^ 5120 +
  0x8003800b80178028803f805a807a809f80c980f7812b816481a181e3822b827782c7831d837883d7843b84a48512858485fb867786f7877c88068895892889bf * 2 ^ 5632 +
  0x892888958806877c86f7867785fb8584851284a4843b83d78378831d82c78277822b81e381a18164812b80f780c9809f807a805a803f80288017800b80038001 * 2 ^ 6144 +
  0xa464a34da239a129a01d9f159e109d0f9c129b189a2399319844975a9675959394b693dd93089237916a90a28fde8f1e8e638dac8cf98c4b8ba18afc8a5b89bf * 2 ^ 6656 +
  0xcd92cc21cab3c946c7dcc674c50ec3aac248c0e9bf8dbe32bcdbbb86ba33b8e4b797b64cb505b3c1b27fb141b005aecdad98ac65ab37aa0ba8e3a7bea69ca57e * 2 ^ 7168 +
  0xfe6efcdcfb4af9b8f827f696f505f374f1e4f055eec6ed38ebabea1ee892e707e57ee3f5e26de0e6df61dddddc5adad8d958d7dad65dd4e1d367d1efd079cf05 * 2 ^ 7680

def rowsCia0 : List ObjRow := [
  ⟨0x100000, 1, 0x1, 1, 1, (.uns 4), .const, 0, .any, .atOnce⟩,
  ⟨0x100100, 1, 0x1, 1, 1, (.uns 1), .ro, 128, .any, .atOnce⟩,
  ⟨0x100500, 1, 0x1, 1, 1, (.uns 4), .rw, 128, .any, .atOnce⟩,
  ⟨0x101200, 1, 0x1, 1, 1, (.uns 4), .rw, 256, .any, .atOnce⟩,
  ⟨0x101400, 1, 0x1, 1, 1, (.uns 4), .rw, 255, .any, .atOnce⟩,
  ⟨0x101500, 1, 0x1, 1, 1, (.uns 2), .rw, 0, .any, .atOnce⟩,
  ⟨0x101600, 1, 0x1, 1, 1, (.uns 1), .const, 1, .any, .atOnce⟩,
  ⟨0x101601, 1, 0x1, 1, 1, (.uns 4), .rw, 0, .any, .atOnce⟩,
  ⟨0x101700, 1, 0x1, 1, 1, (.uns 2), .rw, 0, .any, .atOnce⟩,
  ⟨0x101800, 1, 0x1, 1, 1, (.uns 1), .const, 4, .any, .atOnce⟩,
  ⟨0x101801, 4, 0x1, 1, 1, (.uns 4), .const, 0, .any, .atOnce⟩,
  ⟨0x140000, 8, 0x100, 1, 1, (.uns 1), .const, 2, .any, .atOnce⟩,
  ⟨0x140001, 8, 0x100, 1, 1, (.uns 4), .rw, 0x80000000, .any, .atOnce⟩,
  ⟨0x140002, 8, 0x100, 1, 1, (.uns 1), .rw, 255, .any, .atOnce⟩,
  ⟨0x160000, 8, 0x100, 1, 1, (.uns 1), .rw, 0, (.nat 0 16), .atOnce⟩,
  ⟨0x160001, 8, 0x100, 16, 1, (.uns 4), .rw, 0, .any, .atOnce⟩,
  ⟨0x180000, 8, 0x100, 1, 1, (.uns 1), .const, 5, .any, .atOnce⟩,
  ⟨0x180001, 8, 0x100, 1, 1, (.uns 4), .rw, 0x80000000, .any, .atOnce⟩,
  ⟨0x180002, 8, 0x100, 1, 1, (.uns 1), .rw, 255, .any, .atOnce⟩,
  ⟨0x180003, 8, 0x100, 1, 1, (.uns 2), .rw, 0, .any, .atOnce⟩,
  ⟨0x180005, 8, 0x100, 1, 1, (.uns 2), .rw, 0, .any, .atOnce⟩,
  ⟨0x1a0000, 8, 0x100, 1, 1, (.uns 1), .rw, 0, (.nat 0 16), .atOnce⟩,
  ⟨0x1a0001, 8, 0x100, 16, 1, (.uns 4), .rw, 0, .any, .atOnce⟩]

def rowsDev0 : List ObjRow := [
  ⟨0x200001, 1, 0x100, 1, 1, (.uns 1), .const, 0, .any, .atOnce⟩,
  ⟨0x200002, 1, 0x100, 1, 1, (.uns 1), .const, 0, .any, .atOnce⟩,
  ⟨0x200003, 1, 0x100, 1, 1, (.uns 8), .const, 0, .any, .atOnce⟩,
  ⟨0x200004, 1, 0x100, 1, 1, (.uns 4), .ro, 0, .any, .atOnce⟩,
  ⟨0x200005, 1, 0x100, 1, 1, (.uns 1), .ro, 0, .any, .atOnce⟩,
  ⟨0x200006, 1, 0x100, 1, 1, (.uns 1), .ro, 0, .any, .atOnce⟩,
  ⟨0x200007, 1, 0x100, 1, 1, (.uns 4), .ro, 0, .any, .atOnce⟩,
  ⟨0x200008, 1, 0x100, 1, 1, (.uns 1), .ro, 0, .any, .atOnce⟩,
  ⟨0x201001, 103, 0x1, 1, 1, (.uns 1), .ro, 0, (.nat 0 5), .atOnce⟩,
  ⟨0x202001, 1, 0x100, 1, 1, .bool, .ro, 1, (.nat 0 1), .atOnce⟩,
  ⟨0x202002, 1, 0x100, 1, 1, .real, .rw, 0, .any, .atOnce⟩,
  ⟨0x202003, 1, 0x100, 1, 1, .real, .rw, 0, .any, .atOnce⟩,
  ⟨0x202004, 1, 0x100, 1, 1, .real, .rw, 0, .any, .atOnce⟩,
  ⟨0x202005, 1, 0x100, 1, 1, .real, .rw, 0, .any, .atOnce⟩,
  ⟨0x202006, 1, 0x100, 1, 1, .real, .rw, 0x41c80000, .any, .atOnce⟩,
  ⟨0x202007, 1, 0x100, 1, 1, (.int 4), .ro, 0, .any, .atOnce⟩,
  ⟨0x202008, 1, 0x100, 1, 1, (.uns 1), .ro, 0, .any, .atOnce⟩,
  ⟨0x202009, 1, 0x100, 1, 1, (.uns 8), .ro, 0, .any, .atOnce⟩,
  ⟨0x203001, 1, 0x100, 1, 1, (.int 2), .ro, 0, .any, .atOnce⟩,
  ⟨0x203002, 1, 0x100, 1, 1, (.int 2), .ro, 0, .any, .atOnce⟩,
  ⟨0x203003, 1, 0x100, 1, 1, .bool, .ro, 0, (.nat 0 1), .atOnce⟩,
  ⟨0x203004, 1, 0x100, 1, 1, (.uns 1), .ro, 0, .any, .atOnce⟩,
  ⟨0x203005, 1, 0x100, 1, 1, (.uns 2), .rw, 2000, (.nat 0 10000), .atOnce⟩,
  ⟨0x203006, 1, 0x100, 1, 1, .bool, .rw, 0, (.nat 0 1), .atOnce⟩,
  ⟨0x203007, 1, 0x100, 1, 1, (.uns 1), .ro, 0, .any, .atOnce⟩,
  ⟨0x203008, 1, 0x100, 1, 1, .bool, .wo, 0, (.nat 0 1), .atOnce⟩,
  ⟨0x203009, 1, 0x100, 1, 1, (.int 2), .ro, 0, .any, .atOnce⟩,
  ⟨0x20300a, 1, 0x100, 1, 1, (.uns 4), .ro, 0, .any, .atOnce⟩,
  ⟨0x20300b, 1, 0x100, 1, 1, (.uns 2), .ro, 0, .any, .atOnce⟩,
  ⟨0x204001, 1, 0x100, 1, 1, (.uns 2), .rw, 1500, (.nat 100 1750), .atOnce⟩,
  ⟨0x204002, 1, 0x100, 1, 1, (.uns 2), .rw, 1560, (.nat 100 1750), .atOnce⟩,
  ⟨0x204003, 1, 0x100, 1, 1, (.uns 2), .rw, 1350, (.nat 100 1750), .atOnce⟩,
  ⟨0x204004, 1, 0x100, 1, 1, (.uns 1), .rw, 2, (.nat 0 50), .atOnce⟩,
  ⟨0x204005, 1, 0x100, 1, 1, (.uns 1), .ro, 0, .any, .atOnce⟩,
  ⟨0x204006, 1, 0x100, 1, 1, (.uns 2), .ro, 0, .any, .atOnce⟩,
  ⟨0x204007, 1, 0x100, 1, 1, (.uns 2), .ro, 0, .any, .atOnce⟩,
  ⟨0x204008, 1, 0x100, 1, 1, (.uns 4), .ro, 0, .any, .atOnce⟩,
  ⟨0x204009, 1, 0x100, 1, 1, (.uns 4), .ro, 0, .any, .atOnce⟩]

def rowsEv0 : List ObjRow := [
  ⟨0x211001, 1, 0x1, 1, 1, (.dom 32), .ro, 0, .any, .atOnce⟩,
  ⟨0x211002, 1, 0x1, 1, 1, (.uns 4), .wo, 0, .any, .atOnce⟩,
  ⟨0x211003, 1, 0x1, 1, 1, (.uns 2), .ro, 0, (.nat 0 256), .atOnce⟩,
  ⟨0x211004, 1, 0x1, 1, 1, (.uns 4), .ro, 0, .any, .atOnce⟩,
  ⟨0x211005, 1, 0x1, 1, 1, (.uns 1), .rw, 3, .any, .atOnce⟩,
  ⟨0x211101, 1, 0x1, 1, 1, (.uns 4), .ro, 0, .any, .atOnce⟩,
  ⟨0x211102, 1, 0x1, 1, 1, (.uns 4), .ro, 0, .any, .atOnce⟩,
  ⟨0x211103, 1, 0x1, 1, 1, (.uns 4), .ro, 0, .any, .atOnce⟩,
  ⟨0x211104, 1, 0x1, 1, 1, (.uns 4), .ro, 0, .any, .atOnce⟩,
  ⟨0x211105, 1, 0x1, 1, 1, (.uns 4), .ro, 0, .any, .atOnce⟩,
  ⟨0x212001, 1, 0x1, 1, 1, (.uns 2), .ro, 0, (.nat 0 4096), .atOnce⟩,
  ⟨0x212002, 1, 0x1, 1, 1, (.uns 2), .rw, 0, (.nat 0 4095), .atOnce⟩,
  ⟨0x212003, 1, 0x1, 1, 1, (.dom 32), .ro, 0, .any, .atOnce⟩,
  ⟨0x212004, 1, 0x1, 1, 1, (.uns 1), .rw, 1, .any, .atOnce⟩,
  ⟨0x212005, 1, 0x1, 1, 1, (.uns 4), .ro, 0, .any, .atOnce⟩,
  ⟨0x212006, 1, 0x1, 1, 1, (.uns 4), .ro, 0, .any, .atOnce⟩,
  ⟨0x212007, 1, 0x1, 1, 1, .bool, .wo, 0, (.nat 0 1), .atOnce⟩]

def rowsDsc0 : List ObjRow := [
  ⟨0x220001, 1, 0x1, 1, 1, (.uns 1), .ro, 0, (.nat 0 32), .atOnce⟩,
  ⟨0x220002, 1, 0x1, 1, 1, (.uns 4), .ro, 0, .any, .atOnce⟩,
  ⟨0x220003, 1, 0x1, 1, 1, (.uns 1), .wo, 0, (.nat 0 31), .atOnce⟩,
  ⟨0x220101, 32, 0x1, 1, 1, (.dom 32), .ro, 0, .any, .atOnce⟩,
  ⟨0x221001, 1, 0x1, 1, 1, (.uns 1), .rw, 0, (.nat 0 1), .restart⟩,
  ⟨0x221002, 1, 0x1, 1, 1, .bool, .rw, 0, (.nat 0 1), .restart⟩,
  ⟨0x221003, 1, 0x1, 1, 1, (.uns 2), .rw, 5000, (.nat 100 60000), .restart⟩,
  ⟨0x221004, 1, 0x1, 1, 1, (.uns 2), .rw, 1000, (.nat 100 60000), .atOnce⟩,
  ⟨0x221005, 1, 0x1, 1, 1, (.uns 1), .rw, 0, (.nat 0 2), .atOnce⟩,
  ⟨0x221101, 127, 0x1, 1, 1, (.uns 4), .rw, 0, .any, .restart⟩,
  ⟨0x221201, 127, 0x1, 1, 1, (.uns 4), .rw, 0, .any, .restart⟩,
  ⟨0x221301, 127, 0x1, 1, 1, (.uns 4), .rw, 0, .any, .restart⟩,
  ⟨0x221401, 1, 0x1, 1, 1, (.uns 1), .wo, 0, (.nat 1 127), .atOnce⟩,
  ⟨0x221402, 1, 0x1, 1, 1, (.uns 1), .ro, 0, .any, .atOnce⟩]

def rowsIt0 : List ObjRow := [
  ⟨0x230001, 1, 0x100, 1, 1, (.uns 8), .wo, 0, .any, .atOnce⟩,
  ⟨0x230002, 1, 0x100, 1, 1, (.dom 128), .wo, 0, .any, .atOnce⟩,
  ⟨0x230100, 1, 0x1, 1, 1, (.uns 2), .wo, 0, .any, .atOnce⟩,
  ⟨0x230200, 1, 0x1, 1, 1, (.uns 2), .wo, 0, .any, .atOnce⟩,
  ⟨0x230300, 1, 0x1, 1, 1, (.uns 2), .wo, 0, .any, .atOnce⟩,
  ⟨0x230401, 1, 0x1, 1, 1, (.uns 1), .ro, 0, (.nat 0 32), .atOnce⟩,
  ⟨0x230402, 1, 0x1, 1, 1, (.uns 1), .ro, 0, (.nat 0 64), .atOnce⟩,
  ⟨0x230403, 1, 0x1, 1, 1, (.uns 1), .ro, 0, (.nat 0 64), .atOnce⟩,
  ⟨0x230404, 1, 0x1, 1, 1, (.uns 1), .ro, 0, .any, .atOnce⟩,
  ⟨0x230405, 1, 0x1, 1, 1, (.uns 1), .ro, 0, (.nat 0 127), .atOnce⟩,
  ⟨0x230406, 1, 0x1, 1, 1, (.uns 4), .ro, 0xc0000, (.nat 0 0xc0000), .atOnce⟩,
  ⟨0x230501, 5, 0x1, 1, 1, .bool, .rw, 0, (.nat 0 1), .atOnce⟩,
  ⟨0x231001, 1, 0x100, 1, 1, (.uns 2), .rw, 0, .any, .atOnce⟩,
  ⟨0x231002, 1, 0x100, 1, 1, (.uns 1), .ro, 0, .any, .atOnce⟩,
  ⟨0x231003, 1, 0x100, 1, 1, (.uns 1), .ro, 0, .any, .atOnce⟩,
  ⟨0x231004, 1, 0x100, 1, 1, (.uns 4), .ro, 0, .any, .atOnce⟩,
  ⟨0x231005, 1, 0x100, 1, 1, (.uns 4), .ro, 0, .any, .atOnce⟩,
  ⟨0x231006, 1, 0x100, 1, 1, .bool, .ro, 0, (.nat 0 1), .atOnce⟩,
  ⟨0x231007, 1, 0x100, 1, 1, (.uns 8), .ro, 0, .any, .atOnce⟩,
  ⟨0x231008, 1, 0x100, 1, 1, (.uns 8), .ro, 0, .any, .atOnce⟩,
  ⟨0x231009, 1, 0x100, 1, 1, (.uns 8), .ro, 0, .any, .atOnce⟩,
  ⟨0x23100a, 1, 0x100, 1, 1, (.uns 2), .ro, 0, .any, .atOnce⟩,
  ⟨0x23100b, 1, 0x100, 1, 1, (.uns 4), .ro, 0, .any, .atOnce⟩,
  ⟨0x23100c, 1, 0x100, 1, 1, (.uns 4), .ro, 0, .any, .atOnce⟩]

def rowsRd0 : List ObjRow := [
  ⟨0x240001, 1, 0x100, 1, 1, (.uns 1), .ro, 0, (.nat 0 64), .atOnce⟩,
  ⟨0x240002, 1, 0x100, 1, 1, (.uns 2), .ro, 1000, .any, .atOnce⟩,
  ⟨0x240003, 1, 0x100, 1, 1, (.uns 2), .ro, 65535, (.nat 0 65534), .atOnce⟩,
  ⟨0x240004, 1, 0x100, 1, 1, (.uns 2), .rw, 150, (.nat 0 65534), .atOnce⟩,
  ⟨0x240005, 1, 0x100, 1, 1, (.uns 4), .ro, 0, .any, .atOnce⟩,
  ⟨0x240006, 1, 0x100, 1, 1, (.uns 4), .ro, 0, .any, .atOnce⟩,
  ⟨0x240007, 1, 0x100, 1, 1, (.uns 4), .ro, 0, .any, .atOnce⟩,
  ⟨0x240008, 1, 0x100, 1, 1, (.uns 4), .rw, 0, .any, .rendering⟩,
  ⟨0x240009, 1, 0x100, 1, 1, (.uns 2), .rw, 2000, (.nat 500 20000), .atOnce⟩,
  ⟨0x24000a, 1, 0x100, 1, 1, (.uns 2), .const, 200, .any, .atOnce⟩,
  ⟨0x24000b, 1, 0x100, 1, 1, (.uns 1), .const, 3, .any, .atOnce⟩,
  ⟨0x24000c, 1, 0x100, 1, 1, (.uns 4), .ro, 0, .any, .atOnce⟩,
  ⟨0x241001, 4, 0x100, 1, 1, (.uns 1), .ro, 0, (.nat 0 5), .atOnce⟩,
  ⟨0x241002, 4, 0x100, 1, 1, (.uns 1), .wo, 0, .any, .atOnce⟩,
  ⟨0x241003, 4, 0x100, 1, 1, (.uns 1), .rw, 0, (.nat 0 1), .trigger⟩,
  ⟨0x241004, 4, 0x100, 1, 1, (.uns 4), .ro, 0, .any, .atOnce⟩,
  ⟨0x241005, 4, 0x100, 1, 1, (.uns 2), .ro, 0, (.nat 0 1024), .atOnce⟩,
  ⟨0x241006, 4, 0x100, 1, 1, (.uns 2), .ro, 0, (.nat 0 2112), .atOnce⟩,
  ⟨0x241007, 4, 0x100, 1, 1, (.uns 1), .ro, 0, (.nat 0 255), .atOnce⟩,
  ⟨0x241008, 4, 0x100, 1, 1, (.uns 1), .ro, 255, .any, .atOnce⟩,
  ⟨0x244000, 3, 0x100, 1, 1, (.uns 1), .const, 68, .any, .atOnce⟩,
  ⟨0x244001, 68, 0x1, 1, 1, (.uns 1), .ro, 0, .any, .atOnce⟩,
  ⟨0x244101, 68, 0x1, 1, 1, (.uns 4), .ro, 0, .any, .atOnce⟩,
  ⟨0x244201, 68, 0x1, 1, 1, (.uns 1), .ro, 0, (.nat 0 64), .atOnce⟩]

def rowsHp0 : List ObjRow := [
  ⟨0x250001, 4, 0x8000, 1, 1, (.uns 1), .rw, 0, (.nat 0 2), .atOnce⟩,
  ⟨0x250002, 4, 0x8000, 1, 1, (.uns 1), .rw, 8, (.nat 1 16), .enable⟩,
  ⟨0x250003, 4, 0x8000, 1, 1, (.uns 1), .rw, 0, (.nat 0 1), .enable⟩,
  ⟨0x250004, 4, 0x8000, 1, 1, (.uns 1), .rw, 0, (.nat 0 1), .enable⟩,
  ⟨0x250005, 4, 0x8000, 1, 1, (.uns 1), .rw, 10, (.nat 10 250), .enable⟩,
  ⟨0x250006, 4, 0x8000, 1, 1, (.uns 1), .rw, 200, (.oneOf [50, 100, 200]), .enable⟩,
  ⟨0x250007, 4, 0x8000, 1, 1, (.uns 2), .rw, 0, (.nat 1 4096), .enable⟩,
  ⟨0x250008, 4, 0x8000, 1, 1, (.uns 4), .rw, 0x1e848, (.nat 20000 0x3d090), .enable⟩,
  ⟨0x250009, 4, 0x8000, 1, 1, (.uns 1), .rw, 0, .any, .enable⟩,
  ⟨0x25000a, 4, 0x8000, 1, 1, (.uns 2), .rw, 10, (.nat 5 1000), .enable⟩,
  ⟨0x25000b, 4, 0x8000, 1, 1, (.uns 2), .rw, 10, (.nat 5 1000), .enable⟩,
  ⟨0x25000c, 4, 0x8000, 1, 1, (.uns 2), .rw, 10, (.nat 5 1000), .enable⟩,
  ⟨0x25000d, 4, 0x8000, 1, 1, (.uns 2), .ro, 0, .any, .atOnce⟩,
  ⟨0x25000e, 4, 0x8000, 1, 1, (.uns 4), .ro, 0, .any, .atOnce⟩,
  ⟨0x250101, 4, 0x8000, 1, 1, .bool, .ro, 0, (.nat 0 1), .atOnce⟩,
  ⟨0x250102, 4, 0x8000, 1, 1, (.uns 1), .ro, 0, .any, .atOnce⟩,
  ⟨0x250103, 4, 0x8000, 1, 1, (.uns 1), .ro, 0, .any, .atOnce⟩,
  ⟨0x250104, 4, 0x8000, 1, 1, (.uns 2), .ro, 0, .any, .atOnce⟩,
  ⟨0x250105, 4, 0x8000, 1, 1, (.uns 4), .ro, 0, .any, .atOnce⟩,
  ⟨0x250106, 4, 0x8000, 1, 1, (.uns 1), .ro, 0, (.nat 0 64), .atOnce⟩,
  ⟨0x250107, 4, 0x8000, 1, 1, (.uns 4), .ro, 0, .any, .atOnce⟩,
  ⟨0x250108, 4, 0x8000, 1, 1, (.uns 4), .ro, 0, .any, .atOnce⟩,
  ⟨0x250109, 4, 0x8000, 1, 1, (.uns 4), .ro, 0, .any, .atOnce⟩,
  ⟨0x25010a, 4, 0x8000, 1, 1, (.uns 4), .ro, 0, .any, .atOnce⟩,
  ⟨0x25010b, 4, 0x8000, 1, 1, (.uns 2), .ro, 0, .any, .atOnce⟩,
  ⟨0x250200, 4, 0x8000, 1, 1, (.dom 128), .rw, 0, .any, .commit⟩,
  ⟨0x250301, 4, 0x8000, 1, 1, (.uns 1), .rw, 1, (.nat 1 16), .commit⟩,
  ⟨0x250302, 4, 0x8000, 1, 1, (.uns 1), .rw, 1, (.nat 1 16), .commit⟩,
  ⟨0x250303, 4, 0x8000, 1, 1, (.uns 1), .rw, 0, (.nat 0 1), .commit⟩,
  ⟨0x250304, 4, 0x8000, 16, 1, (.uns 2), .rw, 0, (.nat 0 4095), .commit⟩,
  ⟨0x250400, 4, 0x8000, 1, 1, (.uns 1), .rw, 2, (.nat 0 15), .fire⟩,
  ⟨0x250500, 4, 0x8000, 1, 1, (.uns 1), .rw, 8, (.nat 1 64), .fire⟩,
  ⟨0x250601, 4, 0x8000, 1, 1, (.uns 2), .rw, 2000, (.nat 100 8000), .atOnce⟩,
  ⟨0x250602, 4, 0x8000, 1, 1, (.uns 1), .rw, 60, (.nat 1 100), .atOnce⟩,
  ⟨0x250603, 4, 0x8000, 1, 1, (.uns 1), .ro, 0, .any, .atOnce⟩,
  ⟨0x250604, 4, 0x8000, 1, 1, (.uns 1), .ro, 0, .any, .atOnce⟩,
  ⟨0x250605, 4, 0x8000, 1, 1, .bool, .wo, 0, (.nat 0 1), .atOnce⟩,
  ⟨0x250606, 4, 0x8000, 1, 1, (.uns 4), .ro, 0, .any, .atOnce⟩,
  ⟨0x250607, 4, 0x8000, 1, 1, (.uns 1), .ro, 0, .any, .atOnce⟩,
  ⟨0x250700, 4, 0x8000, 1, 1, (.dom 66), .rw, 0, .any, .atOnce⟩]

def rowsHp1 : List ObjRow := [
  ⟨0x250801, 4, 0x8000, 1, 1, (.uns 1), .rw, 80, (.nat 8 119), .trigger⟩,
  ⟨0x250802, 4, 0x8000, 1, 1, (.uns 1), .rw, 32, (.nat 0 128), .trigger⟩,
  ⟨0x250803, 4, 0x8000, 1, 1, (.uns 1), .rw, 1, (.nat 0 1), .trigger⟩,
  ⟨0x250804, 4, 0x8000, 1, 1, (.domVar 128), .ro, 1, .any, .atOnce⟩,
  ⟨0x250805, 4, 0x8000, 1, 1, (.uns 4), .ro, 0, .any, .atOnce⟩,
  ⟨0x251000, 4, 0x8000, 1, 1, (.dom 8192), .rw, 0, .any, .commit⟩,
  ⟨0x251100, 4, 0x8000, 1, 1, (.dom 4096), .rw, 0, .any, .commit⟩,
  ⟨0x251201, 4, 0x8000, 1, 1, (.uns 1), .rw, 1, .any, .atOnce⟩,
  ⟨0x251202, 4, 0x8000, 1, 1, (.uns 2), .rw, 200, (.nat 50 500), .atOnce⟩,
  ⟨0x251203, 4, 0x8000, 1, 1, (.uns 2), .rw, 80, (.nat 20 1000), .atOnce⟩,
  ⟨0x251204, 4, 0x8000, 1, 1, (.uns 1), .rw, 0, (.nat 0 63), .atOnce⟩,
  ⟨0x251205, 4, 0x8000, 1, 1, (.uns 1), .rw, 0, (.nat 0 63), .atOnce⟩,
  ⟨0x251206, 4, 0x8000, 1, 1, .real, .rw, 0x3c23d70a, .any, .atOnce⟩,
  ⟨0x251207, 4, 0x8000, 1, 1, .real, .rw, 0x41200000, .any, .atOnce⟩,
  ⟨0x251208, 4, 0x8000, 1, 1, (.uns 2), .rw, 4, .any, .atOnce⟩,
  ⟨0x251209, 4, 0x8000, 1, 1, .bool, .rw, 1, (.nat 0 1), .atOnce⟩,
  ⟨0x25120a, 4, 0x8000, 1, 1, (.uns 1), .rw, 1, (.nat 0 100), .atOnce⟩,
  ⟨0x251301, 4, 0x8000, 1, 1, (.dom 8192), .ro, 0, .any, .atOnce⟩,
  ⟨0x251302, 4, 0x8000, 1, 1, (.dom 8192), .ro, 0, .any, .atOnce⟩,
  ⟨0x251303, 4, 0x8000, 1, 1, .bool, .wo, 0, (.nat 0 1), .atOnce⟩,
  ⟨0x251304, 4, 0x8000, 1, 1, (.uns 4), .ro, 0, .any, .atOnce⟩,
  ⟨0x251305, 4, 0x8000, 1, 1, (.uns 2), .ro, 0, .any, .atOnce⟩,
  ⟨0x251306, 4, 0x8000, 1, 1, (.uns 2), .ro, 0, .any, .atOnce⟩,
  ⟨0x251401, 4, 0x8000, 1, 1, .real, .rw, 0x40400000, (.f32In 0x3f8ccccd 0x41a00000), .atOnce⟩,
  ⟨0x251402, 4, 0x8000, 1, 1, .real, .rw, 0x3f000000, (.f32In 0x3d4ccccd 0x3f733333), .atOnce⟩,
  ⟨0x251403, 4, 0x8000, 1, 1, (.uns 1), .rw, 10, (.nat 1 100), .atOnce⟩,
  ⟨0x251404, 4, 0x8000, 1, 1, .bool, .rw, 1, (.nat 0 1), .atOnce⟩,
  ⟨0x251405, 4, 0x8000, 1, 1, (.uns 1), .rw, 3, (.nat 0 3), .atOnce⟩,
  ⟨0x251406, 4, 0x8000, 1, 1, (.uns 1), .rw, 96, .any, .commit⟩,
  ⟨0x251407, 4, 0x8000, 1, 1, (.uns 1), .rw, 32, .any, .commit⟩,
  ⟨0x251408, 4, 0x8000, 1, 1, (.uns 1), .rw, 1, (.nat 1 8), .atOnce⟩,
  ⟨0x251409, 4, 0x8000, 1, 1, (.uns 2), .rw, 16, (.nat 0 4096), .atOnce⟩,
  ⟨0x251501, 4, 0x8000, 1, 1, (.uns 2), .ro, 0, .any, .atOnce⟩,
  ⟨0x251502, 4, 0x8000, 1, 1, (.uns 2), .ro, 0, .any, .atOnce⟩,
  ⟨0x251503, 4, 0x8000, 1, 1, (.uns 2), .ro, 0, .any, .atOnce⟩,
  ⟨0x254001, 4, 0x8000, 16, 1, (.dom 1024), .rw, 0, .any, .commit⟩,
  ⟨0x254101, 4, 0x8000, 16, 1, (.dom 128), .rw, modelDefault, .any, .commit⟩,
  ⟨0x254201, 4, 0x8000, 1, 1, .real, .rw, 0x41a00000, .f32Pos, .commit⟩,
  ⟨0x254202, 4, 0x8000, 1, 1, .real, .rw, 0x42700000, .f32Pos, .commit⟩,
  ⟨0x254203, 4, 0x8000, 1, 1, .real, .rw, 0x43480000, .f32Pos, .commit⟩]

def rowsHp2 : List ObjRow := [
  ⟨0x254204, 4, 0x8000, 1, 1, .real, .rw, 0x42200000, .f32NonNeg, .commit⟩,
  ⟨0x254205, 4, 0x8000, 1, 1, .real, .rw, 0x41c80000, .f32NonNeg, .commit⟩,
  ⟨0x254206, 4, 0x8000, 1, 1, .real, .rw, 0x41200000, .f32NonNeg, .commit⟩,
  ⟨0x254207, 4, 0x8000, 1, 1, .real, .rw, 0x41000000, .f32NonNeg, .commit⟩,
  ⟨0x254208, 4, 0x8000, 1, 1, .real, .rw, 0x41700000, .f32NonNeg, .commit⟩,
  ⟨0x254209, 4, 0x8000, 1, 1, .real, .rw, 0x3f333333, (.f32In 0x0 0x3f800000), .commit⟩,
  ⟨0x25420a, 4, 0x8000, 1, 1, .real, .rw, 0x42200000, .f32Finite, .commit⟩,
  ⟨0x25420b, 4, 0x8000, 1, 1, .real, .rw, 0x3c03126f, (.f32In 0x0 0x3d4ccccd), .commit⟩,
  ⟨0x25420c, 4, 0x8000, 1, 1, .real, .rw, 0x3e19999a, (.f32In 0x0 0x40000000), .commit⟩,
  ⟨0x25420d, 4, 0x8000, 1, 1, (.uns 1), .rw, 0, (.nat 0 64), .commit⟩,
  ⟨0x25420e, 4, 0x8000, 1, 1, .real, .rw, 0x41c80000, .f32Finite, .commit⟩,
  ⟨0x25420f, 4, 0x8000, 1, 1, (.uns 1), .rw, 1, (.nat 1 8), .commit⟩,
  ⟨0x254210, 4, 0x8000, 8, 1, (.uns 1), .rw, 0, (.nat 0 63), .commit⟩,
  ⟨0x254218, 4, 0x8000, 8, 1, (.uns 1), .rw, 32, (.nat 0 63), .commit⟩,
  ⟨0x254220, 4, 0x8000, 1, 1, .real, .rw, 0x41c00000, .f32Pos, .commit⟩,
  ⟨0x254221, 4, 0x8000, 1, 1, (.uns 1), .rw, 4, (.nat 0 15), .commit⟩,
  ⟨0x254222, 4, 0x8000, 1, 1, (.uns 1), .rw, 3, (.nat 0 8), .commit⟩,
  ⟨0x254223, 4, 0x8000, 1, 1, (.uns 2), .rw, 5, (.nat 1 100), .commit⟩,
  ⟨0x254300, 4, 0x8000, 1, 1, (.int 2), .rw, 1040, (.int (320) (1920)), .commit⟩,
  ⟨0x254401, 4, 0x8000, 1, 1, (.dom 8192), .ro, gains4096, .any, .rendering⟩,
  ⟨0x254402, 4, 0x8000, 1, 1, (.uns 2), .rw, 3072, (.nat 2048 4096), .atOnce⟩,
  ⟨0x254403, 4, 0x8000, 1, 1, (.uns 2), .rw, 5120, (.nat 4096 6144), .atOnce⟩,
  ⟨0x254404, 4, 0x8000, 1, 1, .bool, .wo, 0, (.nat 0 1), .atOnce⟩,
  ⟨0x254501, 4, 0x8000, 1, 1, (.dom 128), .ro, 0, .any, .atOnce⟩,
  ⟨0x254502, 4, 0x8000, 1, 1, (.uns 1), .ro, 0, .any, .atOnce⟩,
  ⟨0x254503, 4, 0x8000, 1, 1, (.uns 8), .ro, 0, .any, .atOnce⟩,
  ⟨0x254504, 4, 0x8000, 1, 1, (.uns 8), .ro, 0, .any, .atOnce⟩,
  ⟨0x254505, 4, 0x8000, 1, 1, (.uns 4), .ro, 0, .any, .atOnce⟩,
  ⟨0x254601, 4, 0x8000, 1, 1, (.int 2), .rw, 65408, (.int (-128) (0)), .fire⟩,
  ⟨0x254602, 4, 0x8000, 1, 1, (.int 2), .rw, 128, (.int (0) (128)), .fire⟩,
  ⟨0x254701, 4, 0x8000, 1, 1, (.uns 2), .rw, 256, (.nat 0 65535), .fire⟩,
  ⟨0x254702, 4, 0x8000, 1, 1, .bool, .wo, 0, (.nat 0 1), .atOnce⟩,
  ⟨0x254801, 4, 0x8000, 1, 1, (.uns 1), .ro, 0, .any, .atOnce⟩,
  ⟨0x254802, 4, 0x8000, 1, 1, (.uns 2), .rw, 256, (.nat 0 65535), .atOnce⟩,
  ⟨0x254803, 4, 0x8000, 1, 1, .bool, .wo, 0, (.nat 0 1), .atOnce⟩,
  ⟨0x254804, 4, 0x8000, 1, 1, (.uns 2), .ro, 0, .any, .atOnce⟩,
  ⟨0x254805, 4, 0x8000, 1, 1, (.uns 1), .ro, 0, (.nat 0 4), .atOnce⟩,
  ⟨0x254806, 4, 0x8000, 1, 1, (.uns 2), .ro, 0, .any, .atOnce⟩,
  ⟨0x254807, 4, 0x8000, 1, 1, (.int 2), .ro, 0, .any, .atOnce⟩,
  ⟨0x254808, 4, 0x8000, 1, 1, (.uns 1), .ro, 0, (.nat 0 63), .atOnce⟩]

def rowsHp3 : List ObjRow := [
  ⟨0x254809, 4, 0x8000, 1, 1, (.uns 8), .ro, 0, .any, .atOnce⟩,
  ⟨0x25480a, 4, 0x8000, 1, 1, (.uns 1), .const, 4, .any, .atOnce⟩]

def rowsTh0 : List ObjRow := [
  ⟨0x270001, 4, 0x2000, 1, 1, (.uns 1), .rw, 0, (.oneOf [1, 2, 4, 8, 3, 5, 9, 6, 10, 12]), .enable⟩,
  ⟨0x270002, 4, 0x2000, 1, 1, (.uns 1), .rw, 0, (.nat 0 3), .enable⟩,
  ⟨0x270003, 4, 0x2000, 1, 1, (.uns 1), .rw, 255, (.orVal 39 255), .enable⟩,
  ⟨0x270004, 4, 0x2000, 1, 1, (.uns 1), .rw, 0, (.nat 0 8), .enable⟩,
  ⟨0x270005, 4, 0x2000, 1, 1, (.uns 4), .rw, 0x1e848, (.nat 1000 0xf4240), .enable⟩,
  ⟨0x270006, 4, 0x2000, 1, 1, (.uns 4), .rw, 0, .any, .enable⟩,
  ⟨0x270007, 4, 0x2000, 1, 1, (.uns 1), .rw, 0, (.nat 0 1), .atOnce⟩,
  ⟨0x270008, 4, 0x2000, 1, 1, (.uns 2), .rw, 0, .any, .rendering⟩,
  ⟨0x270009, 4, 0x2000, 1, 1, (.uns 2), .rw, 500, (.nat 1 65535), .commit⟩,
  ⟨0x27000a, 4, 0x2000, 1, 1, .bool, .rw, 0, (.nat 0 1), .atOnce⟩,
  ⟨0x270100, 4, 0x2000, 1, 1, (.uns 2), .rw, 500, (.nat 1 65535), .commit⟩,
  ⟨0x270201, 4, 0x2000, 1, 1, (.uns 4), .rw, 2000, (.nat 1 0xf4240), .commit⟩,
  ⟨0x270202, 4, 0x2000, 1, 1, (.uns 4), .rw, 0x30d40, (.nat 0 0x5f5e100), .commit⟩,
  ⟨0x270203, 4, 0x2000, 1, 1, (.uns 4), .rw, 4000, (.nat 1 0xf4240), .commit⟩,
  ⟨0x270301, 4, 0x2000, 16, 1, (.dom 512), .rw, allOnes4096, .any, .commit⟩,
  ⟨0x270400, 4, 0x2000, 1, 1, (.uns 4), .rw, 0, (.nat 0 0xfffff), .commit⟩,
  ⟨0x270501, 4, 0x2000, 1, 1, (.uns 1), .ro, 0, .any, .atOnce⟩,
  ⟨0x270502, 4, 0x2000, 1, 1, (.uns 1), .ro, 0, .any, .atOnce⟩,
  ⟨0x270503, 4, 0x2000, 1, 1, (.uns 1), .ro, 0, .any, .atOnce⟩,
  ⟨0x270504, 4, 0x2000, 1, 1, .bool, .wo, 0, (.nat 0 1), .atOnce⟩,
  ⟨0x270601, 4, 0x2000, 1, 1, (.uns 1), .rw, 255, (.orVal 3 255), .atOnce⟩,
  ⟨0x270602, 4, 0x2000, 1, 1, (.uns 1), .rw, 0, (.nat 0 1), .atOnce⟩,
  ⟨0x270603, 4, 0x2000, 1, 1, (.uns 1), .rw, 50, (.nat 5 95), .atOnce⟩,
  ⟨0x270604, 4, 0x2000, 1, 1, (.uns 1), .rw, 3, (.nat 1 32), .atOnce⟩,
  ⟨0x270605, 4, 0x2000, 1, 1, (.uns 2), .rw, 64, (.nat 1 65535), .atOnce⟩,
  ⟨0x270606, 4, 0x2000, 1, 1, (.uns 2), .rw, 256, (.nat 1 511), .atOnce⟩,
  ⟨0x271001, 4, 0x2000, 2, 256, (.uns 1), .rw, 0, (.nat 0 3), .enable⟩,
  ⟨0x271002, 4, 0x2000, 2, 256, (.uns 1), .rw, 0, (.nat 0 63), .enable⟩,
  ⟨0x271003, 4, 0x2000, 2, 256, .bool, .rw, 0, (.nat 0 1), .enable⟩,
  ⟨0x271004, 4, 0x2000, 2, 256, (.uns 2), .rw, 64, (.nat 0 1023), .atOnce⟩,
  ⟨0x271005, 4, 0x2000, 2, 256, (.uns 1), .rw, 128, (.nat 1 255), .atOnce⟩,
  ⟨0x271006, 4, 0x2000, 2, 256, (.uns 2), .rw, 512, (.nat 0 4095), .atOnce⟩,
  ⟨0x271007, 4, 0x2000, 2, 256, (.uns 2), .rw, 3584, (.nat 0 4095), .atOnce⟩,
  ⟨0x271008, 4, 0x2000, 2, 256, (.uns 1), .rw, 2, (.nat 0 8), .atOnce⟩,
  ⟨0x271009, 4, 0x2000, 2, 256, (.uns 2), .rw, 16, (.nat 1 65535), .atOnce⟩,
  ⟨0x27100a, 4, 0x2000, 2, 256, (.int 4), .rw, 0, .any, .enable⟩,
  ⟨0x27100b, 4, 0x2000, 2, 256, (.uns 2), .ro, 0, .any, .atOnce⟩,
  ⟨0x27100c, 4, 0x2000, 2, 256, (.uns 4), .ro, 0, .any, .atOnce⟩,
  ⟨0x27100d, 4, 0x2000, 2, 256, (.uns 1), .ro, 0, .any, .atOnce⟩,
  ⟨0x27100e, 4, 0x2000, 2, 256, (.uns 2), .rw, 256, (.nat 0 65535), .atOnce⟩]

def rowsTh1 : List ObjRow := [
  ⟨0x27100f, 4, 0x2000, 2, 256, .bool, .wo, 0, (.nat 0 1), .atOnce⟩,
  ⟨0x271010, 4, 0x2000, 2, 256, (.uns 4), .ro, 0, .any, .atOnce⟩,
  ⟨0x271201, 4, 0x2000, 1, 1, .bool, .rw, 0, (.nat 0 1), .enable⟩,
  ⟨0x271202, 4, 0x2000, 1, 1, (.int 4), .rw, 0, .any, .atOnce⟩,
  ⟨0x271203, 4, 0x2000, 1, 1, (.uns 4), .rw, 0, .any, .atOnce⟩,
  ⟨0x271204, 4, 0x2000, 1, 1, (.uns 1), .rw, 5, (.nat 1 50), .atOnce⟩,
  ⟨0x271205, 4, 0x2000, 1, 1, (.uns 4), .ro, 0, .any, .atOnce⟩,
  ⟨0x271206, 4, 0x2000, 1, 1, (.uns 4), .ro, 0, .any, .atOnce⟩,
  ⟨0x271207, 4, 0x2000, 1, 1, (.uns 2), .rw, 32, .any, .atOnce⟩,
  ⟨0x271208, 4, 0x2000, 1, 1, (.uns 4), .rw, 4096, .any, .atOnce⟩,
  ⟨0x271209, 4, 0x2000, 1, 1, (.uns 4), .rw, 4096, .any, .atOnce⟩,
  ⟨0x27120a, 4, 0x2000, 1, 1, (.uns 1), .rw, 255, (.orVal 23 255), .enable⟩,
  ⟨0x27120b, 4, 0x2000, 1, 1, .bool, .ro, 0, (.nat 0 1), .atOnce⟩,
  ⟨0x27120c, 4, 0x2000, 1, 1, (.uns 1), .ro, 0, (.nat 0 16), .atOnce⟩,
  ⟨0x27120d, 4, 0x2000, 1, 1, .bool, .wo, 0, (.nat 0 1), .atOnce⟩,
  ⟨0x27120e, 4, 0x2000, 1, 1, (.uns 2), .rw, 500, .any, .atOnce⟩,
  ⟨0x27120f, 4, 0x2000, 1, 1, (.uns 1), .ro, 0, .any, .atOnce⟩,
  ⟨0x271301, 4, 0x2000, 1, 1, .bool, .rw, 0, (.nat 0 1), .enable⟩,
  ⟨0x271302, 4, 0x2000, 1, 1, (.uns 1), .rw, 255, (.orVal 39 255), .enable⟩,
  ⟨0x271303, 4, 0x2000, 1, 1, (.uns 1), .rw, 255, (.orVal 39 255), .enable⟩,
  ⟨0x271304, 4, 0x2000, 1, 1, (.uns 1), .rw, 255, (.orVal 39 255), .enable⟩,
  ⟨0x271305, 4, 0x2000, 1, 1, (.uns 1), .rw, 255, (.orVal 23 255), .enable⟩,
  ⟨0x271306, 4, 0x2000, 1, 1, (.uns 1), .rw, 255, (.orVal 23 255), .enable⟩,
  ⟨0x271307, 4, 0x2000, 1, 1, (.uns 4), .rw, 0, .any, .enable⟩,
  ⟨0x271308, 4, 0x2000, 1, 1, (.uns 2), .rw, 1500, .any, .atOnce⟩,
  ⟨0x271309, 4, 0x2000, 1, 1, .real, .rw, 0x41a00000, .any, .atOnce⟩,
  ⟨0x27130a, 4, 0x2000, 1, 1, .real, .rw, 0x41a00000, .any, .atOnce⟩,
  ⟨0x27130b, 4, 0x2000, 1, 1, (.uns 2), .rw, 300, .any, .atOnce⟩,
  ⟨0x27130c, 4, 0x2000, 1, 1, (.uns 2), .rw, 130, .any, .atOnce⟩,
  ⟨0x27130d, 4, 0x2000, 1, 1, (.uns 2), .rw, 135, .any, .atOnce⟩,
  ⟨0x27130e, 4, 0x2000, 1, 1, (.uns 1), .rw, 20, (.nat 1 90), .atOnce⟩,
  ⟨0x27130f, 4, 0x2000, 1, 1, (.uns 2), .rw, 256, (.nat 16 65535), .atOnce⟩,
  ⟨0x271310, 4, 0x2000, 1, 1, (.uns 2), .rw, 15, .any, .atOnce⟩,
  ⟨0x271311, 4, 0x2000, 1, 1, (.uns 2), .rw, 20, .any, .atOnce⟩,
  ⟨0x271312, 4, 0x2000, 1, 1, (.uns 1), .rw, 0, (.oneOf [0, 2, 3, 4]), .enable⟩,
  ⟨0x271313, 4, 0x2000, 1, 1, (.int 4), .rw, 0, .any, .atOnce⟩,
  ⟨0x271314, 4, 0x2000, 1, 1, (.uns 4), .rw, 16000, .any, .atOnce⟩,
  ⟨0x271315, 4, 0x2000, 1, 1, (.uns 2), .rw, 64, .any, .atOnce⟩,
  ⟨0x271401, 4, 0x2000, 1, 1, (.uns 1), .ro, 0, .any, .atOnce⟩,
  ⟨0x271402, 4, 0x2000, 1, 1, (.uns 2), .ro, 0, .any, .atOnce⟩]

def rowsTh2 : List ObjRow := [
  ⟨0x271403, 4, 0x2000, 1, 1, (.uns 2), .ro, 0, .any, .atOnce⟩,
  ⟨0x271404, 4, 0x2000, 1, 1, (.uns 4), .ro, 0, .any, .atOnce⟩,
  ⟨0x271405, 4, 0x2000, 1, 1, (.uns 4), .ro, 0, .any, .atOnce⟩,
  ⟨0x271501, 4, 0x2000, 1, 1, .bool, .rw, 0, (.nat 0 1), .atOnce⟩,
  ⟨0x271502, 4, 0x2000, 1, 1, (.uns 2), .rw, 64, .any, .atOnce⟩,
  ⟨0x271503, 4, 0x2000, 1, 1, (.uns 1), .rw, 2, (.nat 0 64), .atOnce⟩,
  ⟨0x271504, 4, 0x2000, 1, 1, (.uns 4), .ro, 0, .any, .atOnce⟩,
  ⟨0x271601, 4, 0x2000, 1, 1, (.uns 1), .rw, 255, (.orVal 39 255), .enable⟩,
  ⟨0x271602, 4, 0x2000, 1, 1, (.uns 1), .rw, 255, (.orVal 23 255), .enable⟩,
  ⟨0x271603, 4, 0x2000, 1, 1, (.uns 4), .rw, 0, .any, .enable⟩,
  ⟨0x271604, 4, 0x2000, 1, 1, (.int 4), .rw, 0, .any, .atOnce⟩,
  ⟨0x271605, 4, 0x2000, 1, 1, (.int 4), .rw, 0, .any, .atOnce⟩,
  ⟨0x271606, 4, 0x2000, 1, 1, (.int 4), .rw, 0, .any, .atOnce⟩,
  ⟨0x271607, 4, 0x2000, 1, 1, (.uns 2), .rw, 500, (.nat 10 5000), .atOnce⟩,
  ⟨0x271608, 4, 0x2000, 1, 1, .bool, .rw, 0, (.nat 0 1), .atOnce⟩,
  ⟨0x271609, 4, 0x2000, 1, 1, (.uns 4), .ro, 0, .any, .atOnce⟩,
  ⟨0x271701, 4, 0x2000, 1, 1, (.uns 1), .rw, 255, (.orVal 39 255), .enable⟩,
  ⟨0x271702, 4, 0x2000, 1, 1, (.uns 1), .rw, 255, (.orVal 23 255), .enable⟩,
  ⟨0x271703, 4, 0x2000, 1, 1, (.int 4), .rw, 0, .any, .atOnce⟩,
  ⟨0x271704, 4, 0x2000, 1, 1, (.int 4), .rw, 0, .any, .atOnce⟩,
  ⟨0x271705, 4, 0x2000, 1, 1, (.int 4), .rw, 0, .any, .atOnce⟩,
  ⟨0x271706, 4, 0x2000, 1, 1, (.uns 2), .rw, 0, .any, .atOnce⟩,
  ⟨0x271707, 4, 0x2000, 1, 1, (.uns 1), .ro, 0, .any, .atOnce⟩,
  ⟨0x271708, 4, 0x2000, 1, 1, (.uns 2), .ro, 0, .any, .atOnce⟩,
  ⟨0x271709, 4, 0x2000, 1, 1, (.uns 4), .ro, 0, .any, .atOnce⟩,
  ⟨0x278001, 1, 0x1, 1, 1, (.uns 1), .rw, 0, (.nat 0 15), .atOnce⟩,
  ⟨0x278002, 1, 0x1, 1, 1, (.dom 256), .rw, 0, .any, .atOnce⟩,
  ⟨0x278003, 1, 0x1, 1, 1, (.uns 1), .wo, 0, (.nat 1 4), .atOnce⟩,
  ⟨0x278004, 1, 0x1, 1, 1, (.uns 1), .ro, 0, .any, .atOnce⟩,
  ⟨0x278005, 1, 0x1, 1, 1, (.uns 2), .ro, 0, .any, .atOnce⟩,
  ⟨0x278101, 1, 0x1, 1, 1, (.uns 2), .rw, 0, .any, .atOnce⟩,
  ⟨0x278102, 1, 0x1, 1, 1, (.uns 1), .rw, 1, (.nat 1 5), .atOnce⟩,
  ⟨0x278103, 1, 0x1, 1, 1, (.uns 1), .rw, 0, (.nat 0 3), .atOnce⟩,
  ⟨0x278104, 1, 0x1, 1, 1, (.uns 2), .rw, 0, .any, .atOnce⟩,
  ⟨0x278105, 1, 0x1, 1, 1, (.int 4), .rw, 0, .any, .atOnce⟩,
  ⟨0x278201, 1, 0x1, 1, 1, (.uns 1), .ro, 0, .any, .atOnce⟩,
  ⟨0x278202, 1, 0x1, 1, 1, (.uns 1), .ro, 0, .any, .atOnce⟩,
  ⟨0x278203, 1, 0x1, 1, 1, (.uns 2), .ro, 0, .any, .atOnce⟩,
  ⟨0x278204, 1, 0x1, 1, 1, (.int 4), .ro, 0, .any, .atOnce⟩,
  ⟨0x278205, 1, 0x1, 1, 1, (.int 2), .ro, 0, .any, .atOnce⟩]

def rowsTh3 : List ObjRow := [
  ⟨0x278206, 1, 0x1, 1, 1, (.int 2), .ro, 0, .any, .atOnce⟩,
  ⟨0x278207, 1, 0x1, 1, 1, (.int 4), .ro, 0, .any, .atOnce⟩,
  ⟨0x278208, 1, 0x1, 1, 1, (.int 4), .ro, 0, .any, .atOnce⟩,
  ⟨0x278209, 1, 0x1, 1, 1, (.dom 24), .ro, 0, .any, .atOnce⟩,
  ⟨0x27820a, 1, 0x1, 1, 1, (.dom 16), .ro, 0, .any, .atOnce⟩,
  ⟨0x27820b, 1, 0x1, 1, 1, (.uns 2), .ro, 0, .any, .atOnce⟩,
  ⟨0x278300, 1, 0x1, 1, 1, (.uns 1), .wo, 0, (.nat 0 15), .atOnce⟩]

def rowsLs0 : List ObjRow := [
  ⟨0x280001, 1, 0x100, 1, 1, (.uns 1), .rw, 1, (.nat 1 4), .enable⟩,
  ⟨0x280002, 1, 0x100, 1, 1, (.uns 1), .rw, 8, (.nat 4 12), .enable⟩,
  ⟨0x280003, 1, 0x100, 1, 1, (.uns 2), .rw, 1200, (.oneOf [300, 600, 1200]), .enable⟩,
  ⟨0x280004, 1, 0x100, 1, 1, (.uns 2), .rw, 9921, .any, .enable⟩,
  ⟨0x280005, 1, 0x100, 1, 1, (.uns 4), .rw, 0x42c1d80, (.nat 0x989680 0x7270e00), .enable⟩,
  ⟨0x280006, 1, 0x100, 1, 1, (.uns 4), .rw, 20000, .any, .enable⟩,
  ⟨0x280007, 1, 0x100, 1, 1, (.uns 1), .rw, 1, (.nat 0 1), .enable⟩,
  ⟨0x280008, 1, 0x100, 1, 1, (.uns 1), .rw, 255, (.orVal 39 255), .enable⟩,
  ⟨0x280009, 1, 0x100, 1, 1, (.uns 1), .rw, 0, (.nat 0 2), .atOnce⟩,
  ⟨0x28000a, 1, 0x100, 1, 1, (.uns 2), .rw, 60, (.nat 1 3600), .atOnce⟩,
  ⟨0x28000b, 1, 0x100, 1, 1, (.uns 2), .rw, 64, (.nat 1 4096), .enable⟩,
  ⟨0x28000c, 1, 0x100, 1, 1, (.uns 2), .rw, 20, (.nat 1 1000), .enable⟩,
  ⟨0x28000d, 1, 0x100, 1, 1, (.uns 2), .rw, 200, (.nat 2 10000), .enable⟩,
  ⟨0x28000e, 1, 0x100, 1, 1, (.uns 2), .rw, 20, (.nat 1 120), .enable⟩,
  ⟨0x28000f, 1, 0x100, 1, 1, (.uns 2), .rw, 20, (.nat 1 200), .enable⟩,
  ⟨0x280010, 1, 0x100, 1, 1, (.uns 2), .rw, 300, (.nat 10 2000), .enable⟩,
  ⟨0x280011, 1, 0x100, 1, 1, (.uns 2), .rw, 100, (.nat 10 2000), .enable⟩,
  ⟨0x280012, 1, 0x100, 1, 1, (.uns 1), .rw, 2, (.nat 0 8), .enable⟩,
  ⟨0x280013, 1, 0x100, 1, 1, .bool, .rw, 0, (.nat 0 1), .enable⟩,
  ⟨0x280014, 1, 0x100, 1, 1, (.uns 4), .rw, 0, .any, .enable⟩,
  ⟨0x280015, 1, 0x100, 1, 1, (.uns 2), .rw, 16, .any, .enable⟩,
  ⟨0x280016, 1, 0x100, 1, 1, (.uns 4), .rw, 17000, .any, .enable⟩,
  ⟨0x280017, 1, 0x100, 1, 1, (.uns 2), .rw, 50, (.nat 10 1000), .enable⟩,
  ⟨0x280018, 1, 0x100, 1, 1, (.uns 4), .rw, 0, .any, .enable⟩,
  ⟨0x280019, 1, 0x100, 1, 1, (.uns 2), .ro, 0, .any, .atOnce⟩,
  ⟨0x280101, 1, 0x100, 1, 1, (.uns 1), .ro, 0, .any, .atOnce⟩,
  ⟨0x280102, 1, 0x100, 1, 1, (.uns 1), .ro, 0, .any, .atOnce⟩,
  ⟨0x280103, 1, 0x100, 1, 1, (.uns 4), .ro, 0, .any, .atOnce⟩,
  ⟨0x280104, 1, 0x100, 1, 1, (.dom 48), .ro, 0, .any, .atOnce⟩,
  ⟨0x280105, 1, 0x100, 1, 1, (.uns 4), .ro, 0, .any, .atOnce⟩,
  ⟨0x280106, 1, 0x100, 1, 1, (.uns 4), .ro, 0, .any, .atOnce⟩,
  ⟨0x280107, 1, 0x100, 1, 1, (.dom 48), .ro, 0, .any, .atOnce⟩,
  ⟨0x280108, 1, 0x100, 1, 1, .bool, .ro, 0, (.nat 0 1), .atOnce⟩,
  ⟨0x280200, 1, 0x1, 1, 1, (.dom 24), .rw, 0, .any, .fire⟩,
  ⟨0x280300, 1, 0x1, 1, 1, (.dom 16), .rw, 0, .any, .fire⟩,
  ⟨0x280401, 1, 0x1, 1, 1, (.uns 2), .rw, 330, (.nat 64 1024), .fire⟩,
  ⟨0x280402, 1, 0x1, 1, 1, (.dom 64), .rw, 0, .any, .fire⟩,
  ⟨0x280403, 1, 0x1, 1, 1, (.uns 4), .ro, 0, .any, .atOnce⟩,
  ⟨0x280501, 16, 0x1, 1, 1, (.dom 8256), .rw, screenDefault, .any, .commit⟩,
  ⟨0x280601, 4, 0x1, 1, 1, (.uns 2), .rw, 0, (.nat 0 4095), .fire⟩]

def rowsLs1 : List ObjRow := [
  ⟨0x280605, 4, 0x1, 1, 1, (.uns 1), .rw, 255, (.orVal 63 255), .enable⟩,
  ⟨0x280609, 1, 0x100, 1, 1, (.uns 2), .rw, 0, (.nat 0 4095), .atOnce⟩,
  ⟨0x28060a, 1, 0x100, 1, 1, (.uns 2), .rw, 4095, (.nat 0 4095), .atOnce⟩,
  ⟨0x28060b, 1, 0x100, 1, 1, (.uns 1), .rw, 4, (.nat 1 255), .atOnce⟩,
  ⟨0x28060c, 1, 0x100, 1, 1, (.uns 1), .ro, 255, .any, .atOnce⟩,
  ⟨0x28060d, 1, 0x100, 1, 1, .bool, .wo, 0, (.nat 0 1), .atOnce⟩,
  ⟨0x280701, 1, 0x1, 1, 1, (.uns 1), .ro, 0, .any, .atOnce⟩,
  ⟨0x280702, 1, 0x1, 1, 1, .bool, .wo, 0, (.nat 0 1), .atOnce⟩,
  ⟨0x280703, 1, 0x1, 1, 1, (.uns 4), .ro, 0, .any, .atOnce⟩,
  ⟨0x280704, 1, 0x1, 1, 1, .bool, .rw, 1, (.nat 0 1), .atOnce⟩,
  ⟨0x280801, 1, 0x1, 1, 1, (.uns 2), .ro, 0, .any, .atOnce⟩,
  ⟨0x280802, 1, 0x1, 1, 1, (.uns 4), .ro, 0, .any, .atOnce⟩,
  ⟨0x280803, 1, 0x1, 1, 1, (.uns 1), .ro, 0, .any, .atOnce⟩,
  ⟨0x280804, 1, 0x1, 1, 1, (.uns 4), .ro, 0, .any, .atOnce⟩,
  ⟨0x280805, 1, 0x1, 1, 1, (.uns 4), .ro, 0, .any, .atOnce⟩,
  ⟨0x281001, 1, 0x100, 1, 1, (.uns 1), .rw, 0, (.nat 0 3), .atOnce⟩,
  ⟨0x281002, 1, 0x100, 1, 1, (.uns 2), .rw, 2000, (.nat 100 4500), .enable⟩,
  ⟨0x281003, 1, 0x100, 1, 1, (.uns 2), .rw, 60, (.nat 1 3600), .atOnce⟩,
  ⟨0x281004, 1, 0x100, 1, 1, (.uns 1), .rw, 255, (.orVal 39 255), .enable⟩,
  ⟨0x281005, 1, 0x100, 1, 1, (.uns 1), .rw, 255, (.orVal 39 255), .enable⟩,
  ⟨0x281006, 1, 0x100, 1, 1, (.uns 1), .rw, 255, (.orVal 39 255), .enable⟩,
  ⟨0x281007, 1, 0x100, 1, 1, (.uns 1), .rw, 255, (.orVal 39 255), .enable⟩,
  ⟨0x281008, 1, 0x100, 1, 1, (.uns 1), .rw, 255, (.orVal 39 255), .enable⟩,
  ⟨0x281009, 1, 0x100, 1, 1, (.uns 1), .ro, 0, .any, .atOnce⟩,
  ⟨0x28100a, 1, 0x100, 1, 1, .bool, .wo, 0, (.nat 0 1), .atOnce⟩,
  ⟨0x28100b, 1, 0x100, 1, 1, (.uns 2), .rw, 500, (.nat 0 10000), .atOnce⟩,
  ⟨0x281101, 4, 0x100, 1, 1, (.uns 1), .rw, 255, (.orVal 63 255), .enable⟩,
  ⟨0x281102, 4, 0x100, 1, 1, .real, .rw, 0x3f800000, .any, .enable⟩,
  ⟨0x281103, 4, 0x100, 1, 1, .real, .rw, 0, .any, .enable⟩,
  ⟨0x281104, 4, 0x100, 1, 1, (.uns 1), .rw, 255, (.orVal 63 255), .enable⟩,
  ⟨0x281105, 4, 0x100, 1, 1, .real, .rw, 0x3dcccccd, .any, .enable⟩,
  ⟨0x281106, 4, 0x100, 1, 1, .real, .rw, 0, .any, .enable⟩,
  ⟨0x281107, 4, 0x100, 1, 1, (.uns 1), .rw, 0, (.nat 0 1), .enable⟩,
  ⟨0x281108, 4, 0x100, 1, 1, .real, .rw, 0x3951b717, .any, .atOnce⟩,
  ⟨0x281109, 4, 0x100, 1, 1, .real, .rw, 0x3ca3d70a, .any, .atOnce⟩,
  ⟨0x28110a, 4, 0x100, 1, 1, .real, .rw, 0x3b03126f, .any, .atOnce⟩,
  ⟨0x28110b, 4, 0x100, 1, 1, .real, .rw, 0x3e4ccccd, .any, .atOnce⟩,
  ⟨0x28110c, 4, 0x100, 1, 1, (.uns 2), .rw, 1000, (.nat 1 65535), .atOnce⟩,
  ⟨0x28110d, 4, 0x100, 1, 1, (.uns 2), .rw, 3000, .any, .atOnce⟩,
  ⟨0x28110e, 4, 0x100, 1, 1, (.uns 2), .rw, 500, .any, .atOnce⟩]

def rowsLs2 : List ObjRow := [
  ⟨0x28110f, 4, 0x100, 1, 1, (.uns 2), .rw, 20, .any, .atOnce⟩,
  ⟨0x281110, 4, 0x100, 1, 1, (.uns 2), .rw, 50, (.nat 1 5000), .atOnce⟩,
  ⟨0x281111, 4, 0x100, 1, 1, (.uns 2), .rw, 3686, (.nat 0 4095), .atOnce⟩,
  ⟨0x281112, 4, 0x100, 1, 1, (.uns 2), .rw, 0, .any, .atOnce⟩,
  ⟨0x281113, 4, 0x100, 1, 1, (.uns 1), .rw, 0, .any, .atOnce⟩,
  ⟨0x281114, 4, 0x100, 1, 1, (.int 4), .rw, 0, .any, .fire⟩,
  ⟨0x281115, 4, 0x100, 1, 1, (.int 4), .rw, 0, .any, .fire⟩,
  ⟨0x281116, 4, 0x100, 1, 1, (.uns 1), .ro, 0, .any, .atOnce⟩,
  ⟨0x281117, 4, 0x100, 1, 1, (.int 2), .ro, 0, .any, .atOnce⟩,
  ⟨0x281118, 4, 0x100, 1, 1, (.int 2), .ro, 0, .any, .atOnce⟩,
  ⟨0x281119, 4, 0x100, 1, 1, (.uns 2), .ro, 0, .any, .atOnce⟩,
  ⟨0x281501, 16, 0x1, 1, 1, (.dom 16), .rw, 0, .any, .fire⟩,
  ⟨0x281601, 1, 0x1, 1, 1, (.uns 2), .rw, 200, (.nat 0 4000), .atOnce⟩,
  ⟨0x281602, 1, 0x1, 1, 1, (.uns 2), .rw, 100, (.nat 20 1000), .atOnce⟩,
  ⟨0x281603, 3, 0x1, 1, 1, (.uns 1), .rw, 255, (.orVal 63 255), .enable⟩,
  ⟨0x281606, 1, 0x1, 1, 1, .bool, .rw, 1, (.nat 0 1), .enable⟩,
  ⟨0x281607, 3, 0x1, 1, 1, (.uns 2), .rw, 410, .any, .atOnce⟩,
  ⟨0x28160a, 3, 0x1, 1, 1, (.uns 2), .rw, 1640, .any, .atOnce⟩,
  ⟨0x28160d, 1, 0x1, 1, 1, .real, .rw, 0x3d4ccccd, .any, .atOnce⟩,
  ⟨0x28160e, 1, 0x1, 1, 1, .real, .rw, 0x3b03126f, .any, .atOnce⟩,
  ⟨0x28160f, 1, 0x1, 1, 1, (.uns 1), .rw, 100, (.nat 1 100), .atOnce⟩,
  ⟨0x281610, 1, 0x1, 1, 1, .bool, .rw, 1, (.nat 0 1), .atOnce⟩,
  ⟨0x281611, 1, 0x1, 1, 1, (.int 2), .rw, 2240, .any, .atOnce⟩,
  ⟨0x281612, 1, 0x1, 1, 1, (.uns 2), .rw, 48, .any, .atOnce⟩,
  ⟨0x281613, 1, 0x1, 1, 1, (.uns 2), .rw, 160, .any, .atOnce⟩,
  ⟨0x281614, 1, 0x1, 1, 1, (.uns 2), .rw, 2000, (.nat 0 60000), .atOnce⟩,
  ⟨0x281615, 1, 0x1, 1, 1, (.int 2), .rw, 1600, .any, .atOnce⟩,
  ⟨0x281616, 1, 0x1, 1, 1, (.uns 2), .rw, 500, .any, .atOnce⟩,
  ⟨0x281617, 1, 0x1, 1, 1, (.uns 2), .rw, 320, .any, .atOnce⟩,
  ⟨0x281618, 1, 0x1, 1, 1, (.uns 2), .rw, 10, (.nat 1 120), .atOnce⟩,
  ⟨0x281619, 1, 0x1, 1, 1, (.uns 2), .rw, 32, .any, .atOnce⟩,
  ⟨0x28161a, 1, 0x1, 1, 1, .bool, .wo, 0, (.nat 0 1), .atOnce⟩,
  ⟨0x28161b, 1, 0x1, 1, 1, (.dom 66), .rw, 0, .any, .atOnce⟩,
  ⟨0x281701, 1, 0x1, 1, 1, (.uns 1), .ro, 0, .any, .atOnce⟩,
  ⟨0x281702, 3, 0x1, 1, 1, (.int 2), .ro, 0, .any, .atOnce⟩,
  ⟨0x281705, 1, 0x1, 1, 1, (.uns 4), .ro, 0, .any, .atOnce⟩,
  ⟨0x281706, 1, 0x1, 1, 1, (.uns 2), .ro, 0, .any, .atOnce⟩,
  ⟨0x281707, 1, 0x1, 1, 1, (.uns 1), .ro, 0, .any, .atOnce⟩,
  ⟨0x281708, 1, 0x1, 1, 1, (.uns 4), .ro, 0, .any, .atOnce⟩,
  ⟨0x281801, 16, 0x1, 1, 1, (.uns 4), .rw, 0xb400b40, .any, .fire⟩]

def rowsLs3 : List ObjRow := [
  ⟨0x282001, 16, 0x1, 1, 1, (.dom 32), .rw, paperDefault, .any, .commit⟩,
  ⟨0x282101, 7, 0x1, 1, 1, (.uns 1), .rw, 255, (.orVal 23 255), .enable⟩,
  ⟨0x282108, 7, 0x1, 1, 1, (.int 4), .rw, 0, .any, .enable⟩,
  ⟨0x28210f, 1, 0x1, 1, 1, (.int 4), .rw, 0, .any, .enable⟩,
  ⟨0x282110, 1, 0x1, 1, 1, (.int 4), .rw, 0, .any, .enable⟩,
  ⟨0x282111, 1, 0x1, 1, 1, (.int 4), .rw, 0, .any, .enable⟩,
  ⟨0x282112, 1, 0x1, 1, 1, (.uns 4), .rw, 0, .any, .enable⟩,
  ⟨0x282113, 1, 0x1, 1, 1, (.uns 2), .rw, 30, .any, .enable⟩,
  ⟨0x282114, 1, 0x1, 1, 1, (.uns 2), .rw, 2000, .any, .enable⟩,
  ⟨0x282115, 1, 0x1, 1, 1, (.uns 4), .rw, 2000, .any, .enable⟩,
  ⟨0x282116, 1, 0x1, 1, 1, (.int 4), .rw, 0, .any, .enable⟩,
  ⟨0x282117, 1, 0x1, 1, 1, (.uns 2), .rw, 600, .any, .atOnce⟩,
  ⟨0x282118, 1, 0x1, 1, 1, (.uns 2), .rw, 20, .any, .atOnce⟩,
  ⟨0x282119, 1, 0x1, 1, 1, (.uns 1), .rw, 2, (.nat 0 8), .atOnce⟩,
  ⟨0x28211a, 1, 0x1, 1, 1, (.uns 2), .rw, 200, .any, .atOnce⟩,
  ⟨0x28211b, 1, 0x1, 1, 1, (.uns 2), .rw, 200, .any, .atOnce⟩,
  ⟨0x28211c, 1, 0x1, 1, 1, (.uns 2), .rw, 100, .any, .atOnce⟩,
  ⟨0x28211d, 1, 0x1, 1, 1, (.uns 4), .rw, 4000, .any, .atOnce⟩,
  ⟨0x28211e, 1, 0x1, 1, 1, (.uns 2), .rw, 2000, (.nat 0 60000), .atOnce⟩,
  ⟨0x28211f, 1, 0x1, 1, 1, (.uns 1), .rw, 255, (.orVal 23 255), .enable⟩,
  ⟨0x282120, 1, 0x1, 1, 1, (.uns 2), .rw, 4000, .any, .atOnce⟩,
  ⟨0x282201, 1, 0x1, 1, 1, (.uns 1), .ro, 0, .any, .atOnce⟩,
  ⟨0x282202, 1, 0x1, 1, 1, (.int 4), .ro, 0, .any, .atOnce⟩,
  ⟨0x282203, 1, 0x1, 1, 1, (.uns 1), .ro, 0, .any, .atOnce⟩,
  ⟨0x282204, 1, 0x1, 1, 1, (.uns 1), .ro, 0, .any, .atOnce⟩,
  ⟨0x282205, 1, 0x1, 1, 1, (.uns 2), .ro, 0, .any, .atOnce⟩,
  ⟨0x282206, 1, 0x1, 1, 1, .bool, .wo, 0, (.nat 0 1), .atOnce⟩,
  ⟨0x282207, 1, 0x1, 1, 1, .bool, .wo, 0, (.nat 0 1), .atOnce⟩,
  ⟨0x282208, 1, 0x1, 1, 1, (.uns 4), .ro, 0, .any, .atOnce⟩,
  ⟨0x282209, 1, 0x1, 1, 1, (.uns 1), .ro, 0, (.nat 0 3), .atOnce⟩,
  ⟨0x28220a, 1, 0x1, 1, 1, (.uns 4), .ro, 0, .any, .atOnce⟩]

def rowsAx0 : List ObjRow := [
  ⟨0x2a0001, 1, 0x100, 1, 1, (.uns 8), .rw, 0x100000, .any, .atOnce⟩,
  ⟨0x2a0002, 1, 0x100, 1, 1, (.uns 1), .wo, 0, (.nat 0 39), .tick⟩,
  ⟨0x2a0003, 1, 0x100, 1, 1, (.uns 1), .ro, 0, (.nat 0 255), .atOnce⟩,
  ⟨0x2a0004, 1, 0x100, 1, 1, (.uns 8), .ro, 0, .any, .atOnce⟩,
  ⟨0x2a0005, 1, 0x100, 1, 1, (.uns 4), .ro, 0xffffffff, .any, .atOnce⟩,
  ⟨0x2a0006, 1, 0x100, 1, 1, (.uns 8), .ro, 0, .any, .atOnce⟩,
  ⟨0x2a0801, 4, 0x100, 1, 1, .bool, .wo, 0, (.nat 0 1), .atOnce⟩,
  ⟨0x2a0802, 4, 0x100, 1, 1, (.uns 1), .rw, 255, (.orVal 23 255), .atOnce⟩,
  ⟨0x2a0803, 4, 0x100, 1, 1, (.uns 8), .ro, 0, .any, .atOnce⟩,
  ⟨0x2a0804, 4, 0x100, 1, 1, (.uns 8), .ro, 0, .any, .atOnce⟩,
  ⟨0x2a1001, 8, 0x100, 1, 1, .bool, .rw, 0, (.nat 0 1), .atOnce⟩,
  ⟨0x2a1002, 8, 0x100, 1, 1, .bool, .rw, 0, (.nat 0 1), .enable⟩,
  ⟨0x2a1003, 8, 0x100, 1, 1, (.uns 1), .rw, 4, (.nat 0 255), .enable⟩,
  ⟨0x2a1004, 8, 0x100, 1, 1, (.int 4), .ro, 0, .any, .atOnce⟩,
  ⟨0x2a1005, 8, 0x100, 1, 1, (.int 4), .ro, 0, .any, .atOnce⟩,
  ⟨0x2a1006, 8, 0x100, 1, 1, (.uns 4), .ro, 0, .any, .atOnce⟩,
  ⟨0x2a1801, 8, 0x100, 1, 1, .bool, .rw, 0, (.nat 0 1), .atOnce⟩,
  ⟨0x2a1802, 8, 0x100, 1, 1, (.uns 1), .rw, 0, (.nat 0 1), .enable⟩,
  ⟨0x2a1803, 8, 0x100, 1, 1, .bool, .rw, 0, (.nat 0 1), .enable⟩,
  ⟨0x2a1804, 8, 0x100, 1, 1, (.uns 2), .rw, 100, (.nat 20 2000), .trigger⟩,
  ⟨0x2a1805, 8, 0x100, 1, 1, (.int 4), .ro, 0, .any, .atOnce⟩,
  ⟨0x2a2001, 24, 0x1, 1, 1, (.uns 2), .rw, 36, .any, .atOnce⟩,
  ⟨0x2a2100, 1, 0x1, 1, 1, (.uns 4), .ro, 0, .any, .atOnce⟩,
  ⟨0x2a2201, 24, 0x1, 1, 1, (.uns 4), .ro, 0, .any, .atOnce⟩,
  ⟨0x2a4001, 40, 0x100, 1, 1, (.uns 1), .ro, 0, .any, .atOnce⟩,
  ⟨0x2a4002, 40, 0x100, 1, 1, .bool, .rw, 0, (.nat 0 1), .atOnce⟩,
  ⟨0x2a4003, 40, 0x100, 1, 1, (.int 4), .rw, 0, .any, .tick⟩,
  ⟨0x2a4004, 40, 0x100, 1, 1, (.uns 4), .rw, 0, .any, .tick⟩,
  ⟨0x2a4005, 40, 0x100, 1, 1, (.uns 4), .rw, 0, .any, .tick⟩,
  ⟨0x2a4006, 40, 0x100, 1, 1, (.uns 4), .rw, 0, .any, .tick⟩,
  ⟨0x2a4007, 40, 0x100, 1, 1, (.uns 4), .rw, 0, .any, .tick⟩,
  ⟨0x2a4008, 40, 0x100, 1, 1, (.int 4), .rw, 0, .any, .tick⟩,
  ⟨0x2a4009, 40, 0x100, 1, 1, (.int 2), .rw, 0, .any, .tick⟩,
  ⟨0x2a400a, 40, 0x100, 1, 1, .bool, .rw, 0, (.nat 0 1), .tick⟩,
  ⟨0x2a400b, 40, 0x100, 1, 1, .bool, .wo, 0, (.nat 0 1), .tick⟩,
  ⟨0x2a400c, 40, 0x100, 1, 1, .bool, .wo, 0, (.nat 0 1), .tick⟩,
  ⟨0x2a400d, 40, 0x100, 1, 1, .bool, .wo, 0, (.nat 0 1), .atOnce⟩,
  ⟨0x2a400e, 40, 0x100, 1, 1, .bool, .wo, 0, (.nat 0 1), .atOnce⟩,
  ⟨0x2a400f, 40, 0x100, 1, 1, (.uns 1), .rw, 255, (.orVal 3 255), .atOnce⟩,
  ⟨0x2a4010, 40, 0x100, 1, 1, .bool, .ro, 0, (.nat 0 1), .atOnce⟩]

def rowsAx1 : List ObjRow := [
  ⟨0x2a4011, 40, 0x100, 1, 1, (.int 8), .ro, 0, .any, .atOnce⟩,
  ⟨0x2a4012, 40, 0x100, 1, 1, (.int 4), .ro, 0, .any, .atOnce⟩,
  ⟨0x2a4013, 40, 0x100, 1, 1, (.int 4), .ro, 0, .any, .atOnce⟩,
  ⟨0x2a4014, 40, 0x100, 1, 1, (.int 4), .ro, 0, .any, .atOnce⟩,
  ⟨0x2a4015, 40, 0x100, 1, 1, .bool, .ro, 1, (.nat 0 1), .atOnce⟩,
  ⟨0x2a4016, 40, 0x100, 1, 1, (.uns 1), .ro, 0, .any, .atOnce⟩,
  ⟨0x2a4017, 40, 0x100, 1, 1, (.uns 1), .ro, 0, .any, .atOnce⟩,
  ⟨0x2a4018, 40, 0x100, 1, 1, (.uns 1), .ro, 0, .any, .atOnce⟩,
  ⟨0x2a4019, 40, 0x100, 1, 1, (.uns 4), .ro, 0, .any, .atOnce⟩,
  ⟨0x2a401a, 40, 0x100, 1, 1, (.uns 4), .ro, 0, .any, .atOnce⟩,
  ⟨0x2a401b, 40, 0x100, 1, 1, (.uns 4), .ro, 0, .any, .atOnce⟩,
  ⟨0x2a4020, 40, 0x100, 1, 1, (.uns 1), .ro, 0, .any, .atOnce⟩,
  ⟨0x2a4021, 40, 0x100, 1, 1, (.int 2), .ro, 0, .any, .atOnce⟩,
  ⟨0x2a4022, 40, 0x100, 1, 1, (.int 2), .ro, 0, .any, .atOnce⟩,
  ⟨0x2a4023, 40, 0x100, 1, 1, (.int 4), .ro, 0, .any, .atOnce⟩,
  ⟨0x2a4024, 40, 0x100, 1, 1, (.uns 1), .ro, 0, .any, .atOnce⟩,
  ⟨0x2a4025, 40, 0x100, 1, 1, (.uns 2), .ro, 0, .any, .atOnce⟩]

def rowsDrv0 : List ObjRow := [
  ⟨0x2b0001, 100, 0x100, 1, 1, (.uns 1), .ro, 0, .any, .atOnce⟩,
  ⟨0x2b0002, 100, 0x100, 1, 1, (.uns 1), .ro, 255, .any, .atOnce⟩,
  ⟨0x2b0003, 100, 0x100, 1, 1, (.int 2), .ro, 0, .any, .atOnce⟩,
  ⟨0x2b0004, 100, 0x100, 1, 1, (.uns 1), .ro, 0, .any, .atOnce⟩,
  ⟨0x2b0005, 100, 0x100, 1, 1, .bool, .wo, 0, (.nat 0 1), .atOnce⟩,
  ⟨0x2b0006, 100, 0x100, 1, 1, (.uns 2), .ro, 0, .any, .atOnce⟩,
  ⟨0x2b0007, 100, 0x100, 1, 1, (.uns 4), .ro, 0, .any, .atOnce⟩,
  ⟨0x2b0008, 100, 0x100, 1, 1, (.uns 4), .ro, 0, .any, .atOnce⟩,
  ⟨0x2b0009, 100, 0x100, 1, 1, (.uns 4), .ro, 0, .any, .atOnce⟩,
  ⟨0x2b000a, 100, 0x100, 1, 1, (.uns 4), .ro, 0, .any, .atOnce⟩,
  ⟨0x2b000b, 100, 0x100, 1, 1, (.uns 4), .ro, 0, .any, .atOnce⟩,
  ⟨0x2b000c, 100, 0x100, 1, 1, (.uns 1), .ro, 255, .any, .atOnce⟩,
  ⟨0x2ba001, 1, 0x100, 1, 1, (.dom 1024), .rw, mstepSine, .any, .enable⟩,
  ⟨0x2bc001, 2, 0x100, 1, 1, (.uns 1), .rw, 255, (.orVal 63 255), .atOnce⟩,
  ⟨0x2bc002, 2, 0x100, 1, 1, .real, .rw, 0x41f00000, .any, .atOnce⟩,
  ⟨0x2bc003, 2, 0x100, 1, 1, (.uns 2), .rw, 400, .any, .atOnce⟩,
  ⟨0x2bc004, 2, 0x100, 1, 1, (.uns 2), .rw, 410, .any, .atOnce⟩,
  ⟨0x2bc005, 2, 0x100, 1, 1, (.uns 2), .rw, 420, .any, .atOnce⟩,
  ⟨0x2bc006, 2, 0x100, 1, 1, (.uns 2), .rw, 460, .any, .atOnce⟩,
  ⟨0x2bc007, 2, 0x100, 1, 1, .bool, .rw, 1, (.nat 0 1), .atOnce⟩,
  ⟨0x2bc008, 2, 0x100, 1, 1, (.uns 2), .rw, 10, (.nat 1 1000), .atOnce⟩,
  ⟨0x2bc009, 2, 0x100, 1, 1, (.uns 2), .rw, 100, (.nat 10 5000), .atOnce⟩,
  ⟨0x2bc00a, 2, 0x100, 1, 1, (.uns 2), .ro, 0, .any, .atOnce⟩,
  ⟨0x2bc00b, 2, 0x100, 1, 1, (.uns 1), .ro, 0, .any, .atOnce⟩,
  ⟨0x2bc00c, 2, 0x100, 1, 1, .bool, .wo, 0, (.nat 0 1), .atOnce⟩,
  ⟨0x2bc00d, 2, 0x100, 1, 1, .bool, .wo, 0, (.nat 0 1), .atOnce⟩,
  ⟨0x2bc00e, 2, 0x100, 1, 1, (.uns 4), .ro, 0, .any, .atOnce⟩,
  ⟨0x2bc00f, 2, 0x100, 1, 1, (.uns 2), .ro, 0, .any, .atOnce⟩,
  ⟨0x2bc010, 2, 0x100, 1, 1, (.uns 4), .ro, 0, .any, .atOnce⟩]

def rowsCp0 : List ObjRow := [
  ⟨0x2c0001, 8, 0x100, 1, 1, .bool, .rw, 0, (.nat 0 1), .atOnce⟩,
  ⟨0x2c0002, 8, 0x100, 1, 1, (.uns 1), .rw, 2, (.oneOf [1, 2, 4]), .enable⟩,
  ⟨0x2c0003, 8, 0x100, 1, 1, (.uns 2), .rw, 1500, (.nat 80 2500), .enable⟩,
  ⟨0x2c0004, 8, 0x100, 1, 1, (.uns 1), .rw, 0, (.nat 0 1), .enable⟩,
  ⟨0x2c0005, 8, 0x100, 1, 1, (.uns 1), .rw, 16, (.nat 8 119), .atOnce⟩,
  ⟨0x2c0006, 8, 0x100, 1, 1, (.uns 1), .rw, 1, (.nat 0 1), .atOnce⟩,
  ⟨0x2c0007, 8, 0x100, 1, 1, (.uns 2), .rw, 0, .any, .atOnce⟩,
  ⟨0x2c0008, 8, 0x100, 1, 1, (.uns 2), .rw, 65535, .any, .atOnce⟩,
  ⟨0x2c0009, 8, 0x100, 1, 1, (.domVar 512), .rw, 1, .any, .trigger⟩,
  ⟨0x2c000a, 8, 0x100, 1, 1, (.uns 2), .rw, 500, (.nat 100 10000), .atOnce⟩,
  ⟨0x2c000b, 8, 0x100, 1, 1, (.uns 2), .rw, 200, (.nat 10 10000), .atOnce⟩,
  ⟨0x2c000c, 8, 0x100, 1, 1, (.uns 2), .rw, 10, (.nat 0 1000), .trigger⟩,
  ⟨0x2c000d, 8, 0x100, 1, 1, (.uns 1), .rw, 0, (.nat 0 5), .enable⟩,
  ⟨0x2c000e, 8, 0x100, 1, 1, (.uns 4), .rw, 16, .any, .enable⟩,
  ⟨0x2c000f, 8, 0x100, 1, 1, (.uns 2), .rw, 100, (.nat 1 65535), .enable⟩,
  ⟨0x2c0010, 8, 0x100, 1, 1, (.int 4), .rw, 0, .any, .enable⟩,
  ⟨0x2c0011, 8, 0x100, 1, 1, (.uns 1), .rw, 0, (.nat 0 1), .enable⟩,
  ⟨0x2c0012, 8, 0x100, 1, 1, (.uns 1), .ro, 0, .any, .atOnce⟩,
  ⟨0x2c0013, 8, 0x100, 1, 1, .bool, .ro, 0, (.nat 0 1), .atOnce⟩,
  ⟨0x2c0014, 8, 0x100, 1, 1, (.uns 2), .ro, 0, .any, .atOnce⟩,
  ⟨0x2c0015, 8, 0x100, 1, 1, (.uns 4), .ro, 0, .any, .atOnce⟩,
  ⟨0x2c0016, 8, 0x100, 1, 1, (.uns 4), .ro, 0, .any, .atOnce⟩,
  ⟨0x2c0017, 8, 0x100, 1, 1, (.uns 2), .ro, 0, .any, .atOnce⟩,
  ⟨0x2c0018, 8, 0x100, 1, 1, (.uns 4), .ro, 0, .any, .atOnce⟩,
  ⟨0x2c0019, 8, 0x100, 1, 1, (.uns 4), .ro, 0, .any, .atOnce⟩,
  ⟨0x2c001a, 8, 0x100, 1, 1, (.uns 4), .ro, 0, .any, .atOnce⟩,
  ⟨0x2c001b, 8, 0x100, 1, 1, (.uns 4), .ro, 0, .any, .atOnce⟩,
  ⟨0x2c001c, 8, 0x100, 1, 1, (.uns 4), .ro, 0, .any, .atOnce⟩,
  ⟨0x2c001d, 8, 0x100, 1, 1, (.uns 4), .ro, 0, .any, .atOnce⟩,
  ⟨0x2c001e, 8, 0x100, 1, 1, (.uns 4), .ro, 0, .any, .atOnce⟩,
  ⟨0x2c001f, 8, 0x100, 1, 1, .bool, .wo, 0, (.nat 0 1), .atOnce⟩,
  ⟨0x2c8001, 4, 0x100, 1, 1, (.uns 1), .rw, 0, (.nat 0 2), .atOnce⟩,
  ⟨0x2c8002, 4, 0x100, 1, 1, (.uns 1), .rw, 0, (.nat 0 3), .frame⟩,
  ⟨0x2c8003, 4, 0x100, 1, 1, (.uns 1), .ro, 0, .any, .atOnce⟩,
  ⟨0x2c8004, 4, 0x100, 1, 1, (.uns 1), .ro, 255, .any, .atOnce⟩,
  ⟨0x2c8005, 4, 0x100, 1, 1, (.uns 8), .ro, 0, .any, .atOnce⟩,
  ⟨0x2c8006, 4, 0x100, 1, 1, (.uns 1), .ro, 0, .any, .atOnce⟩,
  ⟨0x2c9001, 8, 0x100, 1, 1, (.dom 128), .rw, ctxDefault, .any, .frame⟩,
  ⟨0x2c9002, 8, 0x100, 1, 1, (.uns 4), .ro, 0, .any, .atOnce⟩,
  ⟨0x2c9003, 8, 0x100, 1, 1, (.dom 5440), .ro, 0, .any, .atOnce⟩]

def rowsCp1 : List ObjRow := [
  ⟨0x2c9004, 8, 0x100, 1, 1, (.uns 2), .ro, 0, .any, .atOnce⟩]

def rowsIn0 : List ObjRow := [
  ⟨0x2d0001, 1, 0x1, 1, 1, (.uns 1), .rw, 255, (.orVal 3 255), .atOnce⟩,
  ⟨0x2d0002, 1, 0x1, 1, 1, (.uns 1), .rw, 0, (.nat 0 1), .atOnce⟩,
  ⟨0x2d0003, 1, 0x1, 1, 1, (.uns 1), .rw, 0, .any, .atOnce⟩,
  ⟨0x2d0004, 1, 0x1, 1, 1, (.uns 2), .rw, 500, (.nat 10 10000), .atOnce⟩,
  ⟨0x2d0005, 1, 0x1, 1, 1, (.uns 1), .rw, 10, (.nat 1 32), .commit⟩,
  ⟨0x2d0006, 1, 0x1, 1, 1, (.uns 4), .ro, 0, .any, .atOnce⟩,
  ⟨0x2d0101, 16, 0x1, 1, 1, (.dom 1024), .rw, 0, .any, .commit⟩,
  ⟨0x2d1001, 4, 0x100, 1, 1, .bool, .rw, 0, (.nat 0 1), .atOnce⟩,
  ⟨0x2d1002, 4, 0x100, 1, 1, (.uns 1), .rw, 3, (.nat 0 8), .atOnce⟩,
  ⟨0x2d1003, 4, 0x100, 1, 1, (.uns 2), .rw, 64, (.nat 1 65535), .atOnce⟩,
  ⟨0x2d1004, 4, 0x100, 1, 1, (.dom 8192), .ro, gains4096, .any, .atOnce⟩,
  ⟨0x2d1005, 4, 0x100, 1, 1, (.uns 1), .ro, 0, .any, .atOnce⟩,
  ⟨0x2d1006, 4, 0x100, 1, 1, (.uns 2), .rw, 256, (.nat 0 65535), .atOnce⟩,
  ⟨0x2d1007, 4, 0x100, 1, 1, .bool, .wo, 0, (.nat 0 1), .atOnce⟩,
  ⟨0x2d1008, 4, 0x100, 1, 1, (.dom 512), .ro, 0, .any, .atOnce⟩,
  ⟨0x2d1009, 4, 0x100, 1, 1, (.uns 2), .ro, 0, .any, .atOnce⟩]

def rowsAn0 : List ObjRow := [
  ⟨0x2e0001, 1, 0x100, 1, 1, (.uns 1), .ro, 0, .any, .atOnce⟩,
  ⟨0x2e0002, 1, 0x100, 1, 1, (.uns 1), .ro, 0, .any, .atOnce⟩,
  ⟨0x2e0003, 1, 0x100, 1, 1, (.uns 4), .ro, 0, .any, .atOnce⟩,
  ⟨0x2e0004, 1, 0x100, 1, 1, (.uns 4), .ro, 0, .any, .atOnce⟩,
  ⟨0x2e0005, 1, 0x100, 1, 1, (.uns 4), .ro, 0, .any, .atOnce⟩,
  ⟨0x2e0006, 1, 0x100, 1, 1, (.uns 4), .ro, 0, .any, .atOnce⟩,
  ⟨0x2e0007, 1, 0x100, 1, 1, (.int 4), .ro, 0, .any, .atOnce⟩,
  ⟨0x2e0008, 1, 0x100, 1, 1, (.uns 1), .rw, 8, (.nat 2 64), .atOnce⟩,
  ⟨0x2e0009, 1, 0x100, 1, 1, (.dom 1024), .rw, 0, .any, .atOnce⟩,
  ⟨0x2e000a, 1, 0x100, 1, 1, (.dom 352), .ro, 0, .any, .atOnce⟩,
  ⟨0x2e000b, 1, 0x100, 1, 1, (.dom 352), .ro, 0, .any, .atOnce⟩,
  ⟨0x2e0101, 64, 0x1, 1, 1, (.uns 2), .rw, 16, .any, .atOnce⟩,
  ⟨0x2e1001, 5, 0x100, 1, 1, (.uns 1), .ro, 0, .any, .atOnce⟩,
  ⟨0x2e1002, 5, 0x100, 1, 1, (.int 2), .ro, 0, .any, .atOnce⟩,
  ⟨0x2e1003, 5, 0x100, 1, 1, (.int 4), .ro, 0, .any, .atOnce⟩,
  ⟨0x2e1004, 5, 0x100, 1, 1, (.int 2), .rw, 65280, (.int (-1024) (0)), .trigger⟩,
  ⟨0x2e1005, 5, 0x100, 1, 1, (.int 2), .rw, 256, (.int (0) (1024)), .trigger⟩,
  ⟨0x2e1006, 5, 0x100, 1, 1, (.int 4), .rw, 0xffffec78, (.int (-20000) (0)), .trigger⟩,
  ⟨0x2e1007, 5, 0x100, 1, 1, (.int 4), .rw, 5000, (.int (0) (20000)), .trigger⟩,
  ⟨0x2e1008, 5, 0x100, 1, 1, (.uns 1), .ro, 0, .any, .atOnce⟩,
  ⟨0x2e1009, 5, 0x100, 1, 1, (.uns 2), .rw, 256, (.nat 0 65535), .atOnce⟩,
  ⟨0x2e100a, 5, 0x100, 1, 1, .bool, .wo, 0, (.nat 0 1), .atOnce⟩,
  ⟨0x2e100b, 5, 0x100, 1, 1, (.uns 1), .ro, 0, .any, .atOnce⟩,
  ⟨0x2e2000, 5, 0x100, 1, 1, (.uns 1), .const, 128, .any, .atOnce⟩,
  ⟨0x2e2001, 128, 0x1, 1, 1, (.uns 1), .rw, 0, .any, .atOnce⟩,
  ⟨0x2e2101, 128, 0x1, 1, 1, (.uns 2), .ro, 0, .any, .atOnce⟩,
  ⟨0x2e2201, 128, 0x1, 1, 1, (.uns 1), .ro, 0, .any, .atOnce⟩,
  ⟨0x2e2301, 128, 0x1, 1, 1, (.uns 8), .ro, 0, .any, .atOnce⟩,
  ⟨0x2e2401, 128, 0x1, 1, 1, .bool, .wo, 0, (.nat 0 1), .atOnce⟩,
  ⟨0x2e3000, 5, 0x100, 1, 1, (.uns 1), .const, 128, .any, .atOnce⟩,
  ⟨0x2e3001, 128, 0x1, 1, 1, (.uns 2), .ro, 4095, .any, .atOnce⟩,
  ⟨0x2e3101, 128, 0x1, 1, 1, (.uns 2), .ro, 0, .any, .atOnce⟩,
  ⟨0x2e3201, 128, 0x1, 1, 1, (.uns 4), .ro, 0, .any, .atOnce⟩,
  ⟨0x2e3301, 128, 0x1, 1, 1, (.uns 1), .ro, 0, .any, .atOnce⟩,
  ⟨0x2e3401, 128, 0x1, 1, 1, .bool, .wo, 0, (.nat 0 1), .atOnce⟩]

def rowsNet0 : List ObjRow := [
  ⟨0x2f0001, 8, 0x100, 1, 1, (.uns 1), .rw, 0, (.nat 0 3), .atOnce⟩,
  ⟨0x2f0002, 8, 0x100, 1, 1, (.uns 4), .rw, 0x1c200, (.nat 300 0xbebc20), .trigger⟩,
  ⟨0x2f0003, 8, 0x100, 1, 1, (.uns 4), .ro, 0x87a24, .any, .atOnce⟩,
  ⟨0x2f0004, 8, 0x100, 1, 1, (.uns 4), .ro, 0x1c200, .any, .atOnce⟩,
  ⟨0x2f0005, 8, 0x100, 1, 1, (.uns 2), .rw, 54, (.nat 3 65535), .trigger⟩,
  ⟨0x2f0006, 8, 0x100, 1, 1, (.uns 1), .rw, 8, (.nat 7 8), .trigger⟩,
  ⟨0x2f0007, 8, 0x100, 1, 1, (.uns 1), .rw, 0, (.nat 0 4), .trigger⟩,
  ⟨0x2f0008, 8, 0x100, 1, 1, (.uns 1), .rw, 1, (.nat 1 2), .trigger⟩,
  ⟨0x2f0009, 8, 0x100, 1, 1, (.uns 1), .rw, 0, (.nat 0 1), .enable⟩,
  ⟨0x2f000a, 8, 0x100, 1, 1, (.uns 1), .rw, 48, (.nat 1 64), .atOnce⟩,
  ⟨0x2f000b, 8, 0x100, 1, 1, (.uns 1), .rw, 16, (.nat 0 63), .atOnce⟩,
  ⟨0x2f000c, 8, 0x100, 1, 1, (.uns 8), .rw, 0, (.mulOf 0 0xffffffffffffffff 2), .enable⟩,
  ⟨0x2f000d, 8, 0x100, 1, 1, (.uns 2), .rw, 1024, (.nat 16 32768), .enable⟩,
  ⟨0x2f000e, 8, 0x100, 1, 1, (.uns 2), .ro, 0, .any, .atOnce⟩,
  ⟨0x2f000f, 8, 0x100, 1, 1, (.uns 2), .rw, 0, .any, .atOnce⟩,
  ⟨0x2f0010, 8, 0x100, 1, 1, (.uns 8), .rw, 0, .any, .enable⟩,
  ⟨0x2f0011, 8, 0x100, 1, 1, (.uns 2), .rw, 1024, (.nat 16 65535), .enable⟩,
  ⟨0x2f0012, 8, 0x100, 1, 1, (.uns 2), .rw, 0, .any, .atOnce⟩,
  ⟨0x2f0013, 8, 0x100, 1, 1, (.uns 2), .ro, 0, .any, .atOnce⟩,
  ⟨0x2f0014, 8, 0x100, 1, 1, .bool, .rw, 0, (.nat 0 1), .atOnce⟩,
  ⟨0x2f0015, 8, 0x100, 1, 1, (.uns 1), .ro, 0, .any, .atOnce⟩,
  ⟨0x2f0016, 8, 0x100, 1, 1, (.uns 4), .ro, 0, .any, .atOnce⟩,
  ⟨0x2f0017, 8, 0x100, 1, 1, (.uns 4), .ro, 0, .any, .atOnce⟩,
  ⟨0x2f0018, 8, 0x100, 1, 1, (.uns 4), .ro, 0, .any, .atOnce⟩,
  ⟨0x2f0019, 8, 0x100, 1, 1, (.uns 4), .ro, 0, .any, .atOnce⟩,
  ⟨0x2f001a, 8, 0x100, 1, 1, (.uns 4), .ro, 0, .any, .atOnce⟩,
  ⟨0x2f001b, 8, 0x100, 1, 1, (.uns 1), .ro, 1, .any, .atOnce⟩,
  ⟨0x2f8001, 2, 0x100, 1, 1, (.uns 1), .ro, 0, .any, .atOnce⟩,
  ⟨0x2f8002, 2, 0x100, 1, 1, (.uns 8), .const, 0, .any, .atOnce⟩,
  ⟨0x2f8003, 2, 0x100, 1, 1, (.uns 1), .rw, 1, (.nat 0 1), .enable⟩,
  ⟨0x2f8004, 2, 0x100, 1, 1, (.uns 4), .rw, 0, .any, .enable⟩,
  ⟨0x2f8005, 2, 0x100, 1, 1, (.uns 4), .rw, 0xffffff00, .any, .enable⟩,
  ⟨0x2f8006, 2, 0x100, 1, 1, (.uns 4), .rw, 0, .any, .enable⟩,
  ⟨0x2f8007, 2, 0x100, 1, 1, .bool, .rw, 1, (.nat 0 1), .atOnce⟩,
  ⟨0x2f8008, 2, 0x100, 3, 1, (.uns 4), .ro, 0, .any, .atOnce⟩,
  ⟨0x2f800b, 2, 0x100, 1, 1, (.uns 4), .ro, 0, .any, .atOnce⟩,
  ⟨0x2f800c, 2, 0x100, 1, 1, (.uns 4), .ro, 0, .any, .atOnce⟩,
  ⟨0x2f8801, 1, 0x100, 1, 1, .bool, .wo, 0, (.nat 0 1), .atOnce⟩,
  ⟨0x2f8802, 1, 0x100, 1, 1, (.uns 2), .rw, 47700, (.nat 1024 65535), .restart⟩,
  ⟨0x2f8803, 4, 0x1, 1, 1, (.uns 8), .rw, 0, .any, .atOnce⟩]

def rowsNet1 : List ObjRow := [
  ⟨0x2f8807, 1, 0x100, 1, 1, (.uns 2), .rw, 100, (.nat 10 10000), .atOnce⟩,
  ⟨0x2f8808, 1, 0x100, 1, 1, (.uns 2), .rw, 2, (.nat 1 1000), .atOnce⟩,
  ⟨0x2f8809, 1, 0x100, 1, 1, (.uns 1), .rw, 0, (.nat 0 2), .atOnce⟩,
  ⟨0x2f880a, 1, 0x100, 1, 1, (.uns 1), .ro, 0, .any, .atOnce⟩,
  ⟨0x2f880b, 1, 0x100, 1, 1, (.uns 1), .ro, 0, (.nat 0 4), .atOnce⟩,
  ⟨0x2f880c, 1, 0x100, 1, 1, (.uns 4), .ro, 0, .any, .atOnce⟩,
  ⟨0x2f9001, 2, 0x100, 1, 1, (.uns 1), .rw, 0, (.nat 0 1), .restart⟩,
  ⟨0x2f9002, 2, 0x100, 1, 1, (.uns 1), .rw, 127, (.nat 1 127), .restart⟩,
  ⟨0x2f9003, 2, 0x100, 1, 1, (.uns 2), .rw, 500, (.oneOf [125, 250, 500, 1000]), .restart⟩,
  ⟨0x2f9004, 2, 0x100, 1, 1, (.uns 1), .rw, 2, (.oneOf [1, 2, 4, 5]), .restart⟩,
  ⟨0x2f9005, 2, 0x100, 1, 1, (.uns 1), .rw, 80, (.nat 50 90), .restart⟩,
  ⟨0x2f9006, 2, 0x100, 1, 1, (.uns 1), .rw, 75, (.nat 50 90), .restart⟩,
  ⟨0x2f9007, 2, 0x100, 1, 1, (.uns 1), .ro, 0, .any, .atOnce⟩,
  ⟨0x2f9008, 2, 0x100, 1, 1, (.uns 2), .ro, 0, .any, .atOnce⟩,
  ⟨0x2f9009, 2, 0x100, 1, 1, .bool, .rw, 1, (.nat 0 1), .atOnce⟩,
  ⟨0x2f900a, 2, 0x100, 1, 1, .bool, .rw, 0, (.nat 0 1), .atOnce⟩,
  ⟨0x2f900b, 2, 0x100, 1, 1, (.uns 4), .ro, 0, .any, .atOnce⟩,
  ⟨0x2f900c, 2, 0x100, 1, 1, (.uns 8), .ro, 0, .any, .atOnce⟩,
  ⟨0x2f900d, 2, 0x100, 1, 1, .bool, .wo, 0, (.nat 0 1), .atOnce⟩,
  ⟨0x2f900e, 2, 0x100, 1, 1, .bool, .wo, 0, (.nat 0 1), .atOnce⟩,
  ⟨0x2f9801, 1, 0x1, 1, 1, .bool, .rw, 0, (.nat 0 1), .atOnce⟩,
  ⟨0x2f9802, 1, 0x1, 1, 1, (.uns 1), .rw, 0, (.nat 0 1), .enable⟩,
  ⟨0x2f9803, 1, 0x1, 1, 1, (.uns 1), .rw, 0, (.nat 0 127), .enable⟩,
  ⟨0x2f9804, 1, 0x1, 1, 1, (.uns 4), .rw, 1000, .any, .atOnce⟩,
  ⟨0x2f9805, 1, 0x1, 1, 1, (.uns 1), .ro, 0, .any, .atOnce⟩,
  ⟨0x2f9806, 1, 0x1, 1, 1, (.uns 2), .rw, 1000, (.nat 50 65535), .atOnce⟩,
  ⟨0x2f9807, 1, 0x1, 1, 1, (.int 4), .ro, 0, .any, .atOnce⟩,
  ⟨0x2f9808, 1, 0x1, 1, 1, (.int 4), .ro, 0, .any, .atOnce⟩,
  ⟨0x2fa001, 16, 0x1, 1, 1, (.uns 1), .rw, 0, (.nat 0 2), .trigger⟩]

def rowsNv0 : List ObjRow := [
  ⟨0x300001, 1, 0x100, 1, 1, (.uns 1), .ro, 0, .any, .atOnce⟩,
  ⟨0x300002, 1, 0x100, 1, 1, (.uns 1), .rw, 3, (.nat 1 4), .atOnce⟩,
  ⟨0x300003, 1, 0x100, 1, 1, (.uns 1), .ro, 8, .any, .atOnce⟩,
  ⟨0x300004, 1, 0x100, 1, 1, (.uns 1), .ro, 0, .any, .atOnce⟩,
  ⟨0x300005, 1, 0x100, 1, 1, (.uns 4), .ro, 0, .any, .atOnce⟩,
  ⟨0x300006, 1, 0x100, 1, 1, (.uns 4), .ro, 0, .any, .atOnce⟩,
  ⟨0x300101, 1, 0x100, 1, 1, (.uns 1), .rw, 0, (.nat 0 127), .atOnce⟩,
  ⟨0x300102, 1, 0x100, 1, 1, (.uns 1), .ro, 0, .any, .atOnce⟩,
  ⟨0x300103, 1, 0x100, 1, 1, (.uns 4), .ro, 0, .any, .atOnce⟩,
  ⟨0x300104, 1, 0x100, 1, 1, (.uns 1), .ro, 0, (.nat 0 4), .atOnce⟩,
  ⟨0x300105, 1, 0x100, 1, 1, (.uns 1), .ro, 255, .any, .atOnce⟩,
  ⟨0x300106, 1, 0x100, 1, 1, (.uns 1), .ro, 0, .any, .atOnce⟩,
  ⟨0x300201, 1, 0x1, 1, 1, (.uns 8), .rw, 0, .any, .atOnce⟩,
  ⟨0x300202, 1, 0x1, 1, 1, (.uns 8), .rw, 0, .any, .atOnce⟩,
  ⟨0x300301, 1, 0x1, 1, 1, (.uns 1), .rw, 70, (.nat 70 127), .trigger⟩,
  ⟨0x300302, 1, 0x1, 1, 1, (.uns 1), .rw, 0, (.nat 0 255), .trigger⟩,
  ⟨0x300303, 1, 0x1, 1, 1, (.uns 2), .rw, 1, (.nat 1 256), .trigger⟩,
  ⟨0x300304, 1, 0x1, 1, 1, (.uns 8), .rw, 0, .any, .trigger⟩,
  ⟨0x300305, 1, 0x1, 1, 1, (.uns 1), .wo, 0, (.nat 1 2), .atOnce⟩,
  ⟨0x300306, 1, 0x1, 1, 1, (.uns 1), .ro, 0, .any, .atOnce⟩,
  ⟨0x300307, 1, 0x1, 1, 1, (.uns 1), .ro, 0, .any, .atOnce⟩,
  ⟨0x300401, 1, 0x1, 1, 1, (.dom 256), .rw, 0, .any, .trigger⟩,
  ⟨0x300402, 1, 0x1, 1, 1, (.uns 1), .wo, 0, (.nat 1 2), .atOnce⟩,
  ⟨0x300403, 1, 0x1, 1, 1, (.dom 256), .ro, 0, .any, .atOnce⟩,
  ⟨0x300404, 1, 0x1, 1, 1, (.uns 1), .ro, 0, .any, .atOnce⟩,
  ⟨0x301001, 1, 0x1, 1, 1, (.dom 448), .ro, 0, .any, .atOnce⟩,
  ⟨0x301002, 1, 0x1, 1, 1, (.dom 64), .rw, 0, .any, .atOnce⟩,
  ⟨0x301003, 1, 0x1, 1, 1, (.uns 1), .ro, 0, .any, .atOnce⟩,
  ⟨0x301004, 1, 0x1, 1, 1, (.dom 32), .wo, 0, .any, .atOnce⟩,
  ⟨0x301005, 1, 0x1, 1, 1, (.dom 32), .ro, 0, .any, .atOnce⟩,
  ⟨0x302001, 1, 0x1, 1, 1, (.uns 8), .rw, 0, .any, .trigger⟩,
  ⟨0x302002, 1, 0x1, 1, 1, (.uns 4), .rw, 0, (.nat 256 0x180000), .trigger⟩,
  ⟨0x302003, 1, 0x1, 1, 1, (.uns 1), .wo, 0, (.nat 1 3), .atOnce⟩,
  ⟨0x302004, 1, 0x1, 1, 1, (.uns 1), .ro, 0, .any, .atOnce⟩,
  ⟨0x302005, 1, 0x1, 1, 1, (.uns 1), .ro, 0, .any, .atOnce⟩,
  ⟨0x302006, 1, 0x1, 1, 1, (.uns 1), .ro, 0, (.nat 0 100), .atOnce⟩,
  ⟨0x302007, 1, 0x1, 1, 1, (.uns 1), .ro, 0, .any, .atOnce⟩,
  ⟨0x302101, 1, 0x1, 1, 1, (.dom 512), .ro, 0, .any, .atOnce⟩,
  ⟨0x302102, 1, 0x1, 1, 1, (.dom 512), .ro, 0, .any, .atOnce⟩]

def rowsMem0 : List ObjRow := [
  ⟨0x310001, 8, 0x100, 1, 1, (.uns 8), .rw, 0, (.mulOf 0 0xffffffffff 8), .atOnce⟩,
  ⟨0x310002, 8, 0x100, 1, 1, (.uns 4), .rw, 0, (.mulOf 0 0xfffffff8 8), .atOnce⟩,
  ⟨0x310003, 8, 0x100, 1, 1, .bool, .rw, 0, (.nat 0 1), .atOnce⟩,
  ⟨0x310004, 8, 0x100, 1, 1, .bool, .rw, 0, (.nat 0 1), .atOnce⟩,
  ⟨0x310005, 8, 0x100, 1, 1, (.uns 4), .rw, 0, .any, .atOnce⟩,
  ⟨0x310006, 8, 0x100, 1, 1, (.domVar 4294967295), .rw, 1, .any, .atOnce⟩]

/-- The rows of the area an index belongs to (R27). -/
def rowsOf (area : Nat) : List ObjRow :=
  match area with
  | 0x10 | 0x14 | 0x16 | 0x18 | 0x1a => rowsCia0
  | 0x20 => rowsDev0
  | 0x21 => rowsEv0
  | 0x22 => rowsDsc0
  | 0x23 => rowsIt0
  | 0x24 => rowsRd0
  | 0x25 | 0x26 => rowsHp0 ++ rowsHp1 ++ rowsHp2 ++ rowsHp3
  | 0x27 => rowsTh0 ++ rowsTh1 ++ rowsTh2 ++ rowsTh3
  | 0x28 => rowsLs0 ++ rowsLs1 ++ rowsLs2 ++ rowsLs3
  | 0x2a => rowsAx0 ++ rowsAx1
  | 0x2b => rowsDrv0
  | 0x2c => rowsCp0 ++ rowsCp1
  | 0x2d => rowsIn0
  | 0x2e => rowsAn0
  | 0x2f => rowsNet0 ++ rowsNet1
  | 0x30 => rowsNv0
  | 0x31 => rowsMem0
  | _ => []

end Sys2Proof.Machine.ObjTable
end

