-- ==== Sys2Proof/Machine/Store.lean ====
section
/-! DEFINITION. Sparse data by key in one canonical form: keys strictly rising, and no entry that holds what an
unlisted key reads as. Device memory and the object values are both held so. -/

namespace Sys2Proof.Machine.Store

variable {α : Type} [DecidableEq α]

/-- The first entry of a key, if it is listed. -/
def find (k : Nat) : List (Nat × α) → Option α
  | [] => none
  | (a, v) :: l => if a = k then some v else find k l

/-- What a key reads as: its entry, or the default of an unlisted key. -/
def get (dflt : Nat → α) (k : Nat) (l : List (Nat × α)) : α :=
  match find k l with
  | some v => v
  | none => dflt k

/-- The list without a key. -/
def erase (k : Nat) : List (Nat × α) → List (Nat × α)
  | [] => []
  | (a, v) :: l => if a = k then erase k l else (a, v) :: erase k l

/-- The list with a key's entry set. -/
def insert (k : Nat) (v : α) : List (Nat × α) → List (Nat × α)
  | [] => [(k, v)]
  | (a, w) :: l => if a < k then (a, w) :: insert k v l else if a = k then (k, v) :: l else (k, v) :: (a, w) :: l

/-- Write a key and keep the canonical form: the default removes the entry. -/
def put (dflt : Nat → α) (k : Nat) (v : α) (l : List (Nat × α)) : List (Nat × α) :=
  if v = dflt k then erase k l else insert k v l

/-- Every listed key is above k, keys rise, no entry holds its default. -/
def wfAbove (dflt : Nat → α) : Option Nat → List (Nat × α) → Bool
  | _, [] => true
  | lo, (a, v) :: l => (match lo with | none => true | some k => decide (k < a)) && decide (v ≠ dflt a) && wfAbove dflt (some a) l

/-- The canonical form. -/
def wf (dflt : Nat → α) (l : List (Nat × α)) : Bool := wfAbove dflt none l

/-- Several writes in order. -/
def putAll (dflt : Nat → α) (ws : List (Nat × α)) (l : List (Nat × α)) : List (Nat × α) :=
  ws.foldl (fun l w => put dflt w.1 w.2 l) l

end Sys2Proof.Machine.Store
end

