-- ==== Sys2Proof/Machine/State.lean ====
section
/-! DEFINITION. The state of the block as plain data: the object values, the runtime state of every unit the spec
describes, device memory, and the queue of waiting commands. INVENTORY.md lists every piece with its rule. -/

namespace Sys2Proof.Machine

open Sys2Proof

/-- Reasons for which a step stops. None is raised by any meaning of this model: every command of the table has an
effect, and what the spec leaves undefined is a free value. The one constructor names an access outside the model's
own data (safe: nothing is claimed of such a step). -/
inductive Fault where
  /-- Raised by no meaning; kept so that the type has an element (safe). -/
  | outsideModel
  deriving DecidableEq, Repr

/-- Commands without a meaning. -/
inductive Refusal where
  /-- A command that the model does not cover yet, by its mnemonic (safe: the machine stops). -/
  | notModelled (mnemonic : String)
  deriving DecidableEq, Repr

/-- The variants of R3. -/
inductive Variant where
  | mp6440 | mp6420 | mp6410
  deriving DecidableEq, Repr

/-! ### Events, R327, R335 -/

/-- An event record. data holds the values the owning chapter lists, in its order (R335). sent counts transmissions. -/
structure EvRec where
  seq : Nat
  code : Nat
  tc1 : Bool
  promoted : Bool
  logged : Bool
  time : Nat
  data : List Nat
  sent : Nat
  lastSent : Nat
  deriving DecidableEq, Repr

/-- An event consumer's queue (R335): at most 256 records, oldest first, and its lost count. gather is the moment a
TC1 gathering began. -/
structure Consumer where
  queue : List EvRec := []
  lost : Nat := 0
  gather : Option Nat := none
  deriving DecidableEq, Repr

/-- What the block puts out during one command, in order: event frames, EMCY and other CAN messages, Hywex frames,
pin changes and serial characters. The list is empty at the start of each command. -/
inductive Out where
  /-- An event frame to a session slot (1-4). -/
  | eventFrame (slot : Nat) (seqs : List Nat)
  /-- An EMCY on CF0 (R340). -/
  | emcy (code seq : Nat) (errorRegister : Nat)
  /-- A CAN message on port CF0 or CF1. -/
  | can (port : Nat) (id : Nat) (data : List Byte)
  /-- A Hywex Link response: slot (0 outside a session), session number, operation, request number, status, data, MORE. -/
  | hywex (slot session op seq : Nat) (status : Status) (data : List Byte) (more : Bool)
  /-- A HEARTBEAT frame to a slot (R342): STATE, LAST_SEQ, TIME. -/
  | heartbeat (slot st lastSeq time : Nat)
  /-- A process data frame to a slot: PDO number and data (R331). -/
  | pdFrame (slot pdo : Nat) (data : List Byte)
  /-- Another Ethernet frame (ARP, ICMP, DHCP, PTP) on a port, by kind. -/
  | ethOther (port : Nat) (kind : Nat) (data : List Byte)
  /-- The answer to an access by SDO or USDO (R319): abort code, 0 for success, and data. -/
  | sdo (port : Nat) (abort : Nat) (data : List Byte)
  /-- The answer to an object access made as a command of its own: status and the response data. -/
  | reply (status : Status) (data : List Byte)
  /-- The edges of a beam's video in one sweep: beam, (on, off) in steps of 31.25 ps of device time. -/
  | video (beam : Nat) (edges : List (Nat × Nat))
  /-- From a stamp on (31.25 ps) every beam is dark, whatever edges the sweep in progress still had to come (R192: blanked at once). -/
  | dark (at_ : Nat)
  /-- A gate pulse of a heater: heater, start and width in 10 ns of device time. -/
  | gate (heater start width : Nat)
  /-- An exposure pulse on CPn_TRIG (R287). -/
  | trig (port : Nat)
  /-- A character on a UART's TXD: port, character bits, from which level on. -/
  | uart (port value : Nat)
  deriving DecidableEq, Repr

/-- Events and consumers: the last SEQ (0 at reset), CF0's queue, the four session slots' queues, and records waiting for
the flash log. -/
structure EvState where
  seq : Nat := 0
  cf0 : Consumer := {}
  slots : List Consumer := List.replicate 4 {}
  logQueue : List EvRec := []
  deriving DecidableEq, Repr

/-- The supervisor: held in reset, booting, READY, restarting after R10, swapping banks (R365), or recovery mode
(R351). -/
inductive SupMode where
  | reset | booting | ready | restarting | swapping | recovery
  deriving DecidableEq, Repr

/-! ### Items, R29-R54 -/

/-- The states an item in the table can have (R33); NONE is an ID that is not in the table. -/
inductive ItemState where
  | defined | rendering | committed | admitted | printing | done | spoiled | cancelled
  deriving DecidableEq, Repr

/-- The plan of one head of an item (R83-R89): where it lies in the plan pool, its entry readings (R84, R86), what
its plan band of this round reported, and what HP_PLAN_STATUS shows. Temperatures are REAL32. -/
structure HeadPlan where
  head : Nat
  dots : Nat
  addr : Nat
  sums : Nat
  entry : Option (List R32) := none
  entryFixed : Bool := false
  amb : R32 := .zero
  issued : Bool := false
  reported : Bool := false
  refused : Bool := false
  rendered : List Nat := []
  speeds : List Nat := []
  exit : List R32 := []
  peak : Int := 0
  peakBlock : Nat := 0
  peakLine : Nat := 0
  deriving DecidableEq, Repr

/-- The planning of an item (R87-R91): round, segment speeds of the round and of the initial profile (0.1 mm/s),
which segments were lowered, and which line records were rendered again. -/
structure PlanState where
  round : Nat := 0
  complete : Bool := false
  initial : List Nat := []
  speeds : List Nat := []
  floor : Nat := 0
  lowered : List Bool := []
  rerendered : List Nat := []
  profileAddr : Nat := 0
  heads : List HeadPlan := []
  deriving DecidableEq, Repr

/-- One entry of the item table (R32). record is the 128-byte record as one little-endian number; order counts definitions; snap is the commit
snapshot (R38): the object values of every commit-sampled key that differ from their defaults; gains is the published
gain copy (R19) and maps the dot map (R131) of every head of its station, taken at entry into RENDERING; span is the pool memory reserved (R14) as (address, bytes);
touched says that its image or window list changed while it was RENDERING (R17). -/
structure Item where
  id : Nat
  record : Nat
  order : Nat := 0
  state : ItemState := .defined
  reason : Nat := 0
  linesFired : Nat := 0
  shortLines : Nat := 0
  shortList : List Nat := []
  spoilLine : Nat := 0
  mediaUsed : Bool := false
  tCommit : Nat := 0
  tStart : Nat := 0
  tEnd : Nat := 0
  plannedMin : Nat := 0
  released : Bool := false
  gen : Nat := 0
  deadline : Nat := 0
  heads : List Nat := []
  fallback : Bool := false
  singleCap : Nat := 0
  gains : List (Nat × Nat) := []
  maps : List (Nat × Nat) := []
  cal : Nat := 0
  snap : List (Nat × Nat) := []
  span : Option (Nat × Nat) := none
  sumSpan : Option (Nat × Nat) := none
  plan : PlanState := {}
  vwin : List Nat := []
  vwinCopied : Bool := false
  inspected : Bool := false
  feedDone : Bool := false
  endDone : Bool := false
  videoOff : Option Nat := none
  pickBegun : Bool := false
  gateAt : Option Nat := none
  touched : Bool := false
  deriving DecidableEq, Repr

/-! ### Bands and clusters, R55-R73 -/

/-- Kinds of bands, codes 0-3 (R55). -/
inductive BandKind where
  | thermalEnergy | thermalPlan | laserVideo | inspection
  deriving DecidableEq, Repr

/-- A band: its descriptor fields (R57), the order of definition of its item (for R60), and the cloves on which one of
its attempts failed (R68). seq tells the INSPECTION bands of one item apart. discard marks a band whose output is thrown away (R58), waiting one that has not been injected.
mark is the checkpoint of a THERMAL_PLAN band (R56), by the lines it had simulated there: Mach.checkpoint says what it holds; 0 is none. -/
structure Band where
  item : Nat
  kind : BandKind
  unit : Nat
  attempt : Nat
  gen : Nat
  row : Nat
  col : Nat
  deadline : Nat
  src : Nat
  dst : Nat
  order : Nat
  failed : List (Nat × Nat)
  seq : Nat := 0
  discard : Bool := false
  waiting : Bool := true
  mark : Nat := 0
  deriving DecidableEq, Repr

/-- States of a clove (R75). -/
inductive CloveState where
  | inService | standby | fencedHang | fencedParity | off
  deriving DecidableEq, Repr

/-- A clove: its state, its deque front first, the slot of the front entry (R59), the band in progress, when its last
progress mark came and when it last tried a remote steal (µs), and whether it is loading its kernel as a spare. -/
structure Clove where
  state : CloveState
  deque : List Band := []
  front : Nat := 0
  cur : Option Band := none
  lastMark : Nat := 0
  lastRemote : Option Nat := none
  loading : Bool := false
  bands : Nat := 0
  deriving DecidableEq, Repr

/-- What a cluster that is UPDATING or STARTING is doing (R71). -/
inductive ClusterPhase where
  | idle | draining | copying | selfTest
  deriving DecidableEq, Repr

/-- A render cluster: its work queue, its cloves, whether its kernel region holds a verified kernel, of which generation
and which bytes (R59; none written yet: empty), the bank a LOAD in progress copies from with its generation, its retired
granules, which granules from the top of staging replace which (R69), whether it is reloading its kernel image (R69), its
phase, and what RD_CL_SPARE shows (R75). -/
structure Cluster where
  queue : List Band := []
  cloves : List Clove := []
  verified : Bool := false
  gen : Nat := 0
  kernel : List Byte := []
  loadSel : Nat := 0
  loadGen : Nat := 0
  retired : List Nat := []
  replaced : List (Nat × Nat) := []
  reloading : Bool := false
  phase : ClusterPhase := .idle
  spareOf : Nat := 0xFF
  deriving DecidableEq, Repr

/-! ### Head ports, R100-R130 -/

/-- One entry of a line's fire sequence (R106): phase, slot, when its strobe starts (10 ns of device time) and for how
long it is on (10 ns). -/
structure FireEntry where
  phase : Nat
  slot : Nat
  start : Nat
  dur : Nat
  deriving DecidableEq, Repr

/-- The line a head port is firing: item, line record, image line, trigger time, its sequence, when it ends (10 ns), and for each entry
the dots its load carries as 1, bit d for dot d (R104, R105). -/
structure FiringLine where
  item : Nat
  record : Nat
  line : Nat
  trigger : Nat
  entries : List FireEntry
  busyUntil : Nat
  loads : List Nat
  deriving DecidableEq, Repr

/-- A trim block of a head: value in 1/1024, its R24 status, the count of consecutive pinned updates. -/
structure TrimBlock where
  value : Int := 0
  status : Nat := 0
  pinned : Nat := 0
  deriving DecidableEq, Repr

/-- Where the insertion sequence of R120 stands. -/
inductive FitStep where
  | none | seen | powered | reading | waitRetry | scanning | done | failed
  deriving DecidableEq, Repr

/-- A dot resistance scan (R126-R129): whether it is the insertion pass, the next dot, the step in progress with its
strobe (group, from, to in 10 ns), its three conversions with their over-range flags, whether the strobe was ended early,
when the last step started (µs), the line of the last line-gap step, which dots have a result in this pass, the steps
invalid by over-range per dot, and per dot the class in force and the class of the pass before. -/
structure ScanRun where
  insertion : Bool := false
  dot : Nat := 0
  pulsing : Bool := false
  strobe : Nat × Nat × Nat := (0, 0, 0)
  iOff : Option (Nat × Bool) := none
  iOn : Option (Nat × Bool) := none
  vOn : Option (Nat × Bool) := none
  cut : Bool := false
  lastStart : Option Nat := none
  stepEnd : Nat := 0
  lineTag : Option (Nat × Nat) := none
  valid : List Nat := []
  ovr : List (Nat × Nat) := []
  classes : List (Nat × Nat) := []
  pending : List Nat := []
  deriving DecidableEq, Repr

/-- The sequencer of one head port: pins and supply (and when the supply enable fell last, µs), insertion sequence, whether the
seated head's identity is known, position tracking of R109, due triggers, the
line in progress, pepper latch, the line record from which the strobes are held off for the rest of the item, trim, thermistor watch and scan, the learning loop of the density gains (R296: pinned count per dot), and per dot the consecutive
inspected items it failed in (R131). Times are in 10 ns unless named µs. -/
structure HeadRt where
  presN : Bool := true
  presSince : Nat := 0
  pwrEn : Bool := false
  pwrFell : Option Nat := none
  fit : FitStep := .none
  fitEdge : Nat := 0
  fitNext : Nat := 0
  idTries : Nat := 0
  idKnown : Bool := false
  lastCrc : Option Nat := none
  firstFit : Bool := true
  sameHead : Bool := false
  pepper : Bool := false
  off : Option Nat := none
  suspended : Bool := false
  high : Int := 0
  origin : Int := 0
  pass : Nat := 0
  nextLine : Nat := 0
  armed : Bool := false
  due : List (Nat × Nat) := []
  firing : Option FiringLine := none
  runStart : Nat := 0
  trim : List TrimBlock := List.replicate 64 {}
  thmBad : List (Option Nat) := List.replicate 8 none
  thmRaised : List Bool := List.replicate 8 false
  strobes : List (Nat × Nat × Nat) := []
  planPinned : Nat := 0
  scan : ScanRun := {}
  gainStatus : List Nat := []
  gainPinned : List Nat := []
  opt : List (Nat × Nat) := []
  deriving DecidableEq, Repr
/-! ### Media path, R147-R164 -/

/-- A sense channel (R147-R149, R155): whether it is in the gap/mark state with the station line position of the entry
edge (1/16 line) and the sum and count of its conversions, the medium conversions since the last accepted episode (last
4,096), the levels L_m and L_g, the pinned count, the lowest and highest signal of a learning feed, whether it is in the
out state, and since which position or rest moment (µs) it has read medium level. -/
structure SenseChan where
  inMark : Bool := false
  entry : Int := 0
  sum : Nat := 0
  n : Nat := 0
  medium : List Nat := []
  lm : Rat := 0
  lg : Rat := 0
  pinned : Nat := 0
  lo : Nat := 4095
  hi : Nat := 0
  learned : Bool := false
  out : Bool := false
  back : Option Int := none
  restBack : Option Nat := none
  deriving DecidableEq, Repr

/-- An alignment of an item (R152): the TOF used (none while it seeks), whether it was predicted, P_0 in 1/16 line, a new
P_0 that waits for the next tick, where the feed began, and where a seek began; TH_TOF_OFFSET and TH_SEEK_MAX as read at admission
(R166); whether its start is not known yet, and whether the item's profile has begun. -/
structure AlignRun where
  item : Nat
  tof : Option Int := none
  predicted : Bool := false
  p0 : Int := 0
  move : Option Int := none
  start : Int := 0
  seek : Option Int := none
  ofs : Int := 0
  seekMax : Nat := 0
  waiting : Bool := false
  begun : Bool := false
  deriving DecidableEq, Repr

/-- A ribbon save run (R160): item, line records at which the head is lifted, the ribbon held, the head lowered, and the
line whose boundary checks it. -/
structure SaveRun where
  item : Nat
  lift : Nat
  hold : Nat
  lower : Nat
  check : Nat
  deriving DecidableEq, Repr

/-- A panel positioning (R161): whether a set start is sought, the take-up position at its start (pos), the ribbon travel
(1/16 line) at which it stops once its mark is known, whether the stop there is commanded, whether the head goes down, and since when
(µs). -/
structure PanelRun where
  item : Nat
  set : Bool
  from_ : Rat
  target : Option Int := none
  going : Bool := false
  lowering : Option Nat := none
  deriving DecidableEq, Repr

/-- Where the cut of an item stands (R162, R163): none, the cut point at the blade, the stroke out, the stroke back, home
confirmed and the feed moving back or the presenter acting. -/
inductive CutPhase where
  | none
  | ready (item : Nat)
  | out (item : Nat)
  | back (item : Nat)
  | after (item : Nat)
  deriving DecidableEq, Repr

/-- The media path of a thermal station: its two sense channels, TOF positions at the head line, the last accepted TOF,
the last accepted lengths, alignments, a learning feed (start and TOFs in succession), ribbon radii (mm), travel used and
saved since the fit (mm), the window in progress (line position and both spool positions), consecutive invalid windows
per spool, where the ribbon has been held from, head lifted, save runs, panel positioning, whether the ribbon stands at a
set start, the cut with its travel (pos), start and home positions and deadline (µs), the presented item with its moment, and the
values that a cut and a present read as they begin (R166). -/
structure StationRt where
  chans : List SenseChan := [{}, {}]
  tofs : List Int := []
  lastTof : Option Int := none
  tofSeen : Bool := false
  lens : List Nat := []
  aligns : List AlignRun := []
  learn : Option (Int × Nat) := none
  rs : Rat := 0
  rt : Rat := 0
  used : Rat := 0
  saved : Rat := 0
  window : Option (Int × Rat × Rat) := none
  badS : Nat := 0
  badT : Nat := 0
  heldAt : Option Int := none
  lifted : Bool := false
  saves : List SaveRun := []
  panel : Option PanelRun := none
  atSet : Bool := false
  cut : CutPhase := .none
  cutTravel : Rat := 0
  cutHome : Rat := 0
  cutDeadline : Nat := 0
  presItem : Nat := 0
  presSince : Nat := 0
  cutFull : Int := 0
  cutPart : Int := 0
  cutTimeout : Nat := 0
  cutBack : Bool := false
  presTimeout : Nat := 0
  presRetract : Int := 0
  deriving DecidableEq, Repr


/-! ### Motion planner, R222-R246 -/

/-- A piece of a profile (R245): from position x0 at time t0 (s from the profile's start), a length, jerk and
constant-acceleration times of its ramp, its duration, and the speeds at its ends; a0 other than 0 marks a turn, in which
the acceleration falls from a0 to 0 at constant jerk. Positions in the axis's pos. -/
structure Piece where
  x0 : Rat
  len : Rat
  t0 : Rat
  tj : Rat
  ta : Rat
  dur : Rat
  v0 : Rat
  v1 : Rat
  a0 : Rat := 0
  deriving DecidableEq, Repr

/-- What a queued profile of a station feed is for (R245). -/
inductive ProfKind where
  | pass (item pass : Nat)
  | retract (item pass : Nat)
  | align (item : Nat)
  | seek
  | cutFeed (item : Nat)
  | cutReturn (item : Nat)
  | learn
  | panel (item : Nat)
  | present (item move : Nat)
  | ramp (speed : Nat)
  deriving DecidableEq, Repr

/-- A profile: its purpose, its pieces, its duration in 10 ns, the speed at its end, and whether it starts moving. -/
structure Profile where
  kind : ProfKind
  pieces : List Piece
  dur10 : Nat
  vEnd : Rat
  vStart : Rat
  length : Rat
  deriving DecidableEq, Repr

/-- Where the answer to a write goes that is answered later (R227): an access made as a command of its own, a Hywex Link
request by slot, class, operation and number, an SDO transfer by port, or nowhere. -/
inductive ReplyTo where
  | local
  | hywex (slot tc op seq : Nat)
  | sdo (port : Nat)
  | quiet
  deriving DecidableEq, Repr

/-- Commands that a start group arms (R234) or that wait for their tick (R229). refresh holds the entry's bytes as they
stood when the write arrived (R228). -/
inductive AxCmd where
  | target (x : Int)
  | velocity (v : Int)
  | current (ma : Int)
  | follow (on : Bool)
  | home
  | halt
  | speed (v : Nat) | accel (v : Nat) | decel (v : Nat) | jerk (v : Nat)
  | refresh (seen : Nat) (dest : ReplyTo)
  deriving DecidableEq, Repr

/-- Steps of the homing sequence (R241): seeking, slowing after the first edge, moving away until the input is inactive,
the further back-off, seeking slowly, slowing after the latch. -/
inductive HomeStep where
  | seek | slowDown | back | backOff | approach | finish
  deriving DecidableEq, Repr

/-- The mode an axis plans in. -/
inductive AxMode where
  | rest
  | position (target : Int)
  | velocity (v : Int)
  | current (ma : Int)
  | follow (ending : Bool)
  | profile (p : Profile)
  | home (step : HomeStep) (from_ : Rat) (latch : Rat)
  | halt
  deriving DecidableEq, Repr

/-- A plan in force: pieces from a start (10 ns of device time), positions relative to an origin in pos. -/
structure Plan where
  pieces : List Piece
  start10 : Nat
  origin : Rat
  deriving DecidableEq, Repr

/-- How a sensorless or field-oriented axis runs (R264-R266): released, probing, braking the rotor, aligning, driven
open-loop, closed loop. -/
inductive FocPhase where
  | off | probe | brake | align | openLoop | closed
  deriving DecidableEq, Repr

/-- Which amplitude an axis's drive is set to (R255, R258, R259): I_RUN, I_HOLD, none, or the one between an enable and the first
motion, which the spec leaves open. -/
inductive AmpLevel where
  | open_ | run | hold | none
  deriving DecidableEq, Repr

/-- Whether an axis's ports are driven, at standstill, in high impedance, or with the low sides on. -/
inductive PortDrive where
  | driven | standstill | highZ | shorted
  deriving DecidableEq, Repr

/-- The drive of an axis (R254-R267): the drive fields in use since the last enable (PWM_FREQ, DEADTIME, POLE_PAIRS,
FOC_FB as the entry then in force), its microstep table as read at enable, which amplitude is in force and the open one (mA, log entry 3), the bridge's state,
actuator pull-in, the start of a sensorless axis (phase, since when in µs, whether a flying start is owed), currents and
voltages of the latest PWM period, speed integral, electrical speed, the current loops' accumulators, the duties of the next period,
since when the observer has agreed with the open-loop angle (µs), consecutive predicted periods, when 0x2B06 was last sent (µs), and
since when its ports are shorted (µs). -/
structure DriveRt where
  enabled : Nat := 0
  table : Nat := 0
  level : AmpLevel := .none
  amp : Int := 0
  bridge : PortDrive := .highZ
  energised : Bool := false
  pullSince : Nat := 0
  foc : FocPhase := .off
  focSince : Nat := 0
  flyDue : Bool := false
  id : Rat := 0
  iq : Rat := 0
  vd : Rat := 0
  vq : Rat := 0
  speedInt : Rat := 0
  omega : Rat := 0
  accD : Rat := 0
  accQ : Rat := 0
  duty : List Rat := [0, 0, 0]
  agreeAt : Option Nat := none
  predicted : Nat := 0
  limitAt : Option Nat := none
  shortSince : Nat := 0
  deriving DecidableEq, Repr

/-- One axis: the working copy of its entry (256 bytes as a number, KIND 0 at reset), position (pos), speed and
acceleration as of the last tick or stop, its mode and plan, the profile queue of 8, the armed command, commands waiting
for their tick with the moment they were acknowledged (µs), S, A, D and J in force, encoder reference, following (position and
moment of the last step), when it came to rest (µs), the item whose profile began last with its P_0, whether its move will pass its
target, and its drive. -/
structure AxisRt where
  work : Nat := 0
  pos : Rat := 0
  vel : Rat := 0
  acc : Rat := 0
  mode : AxMode := .rest
  plan : Option Plan := none
  queue : List Profile := []
  armed : Option AxCmd := none
  waiting : List (Nat × AxCmd) := []
  s : Nat := 0
  a : Nat := 0
  d : Nat := 0
  j : Nat := 0
  replan : Bool := false
  encRef : Rat := 0
  followQ : Rat := 0
  lastStep : Option Nat := none
  sdDelay : Nat := 0
  limited : Bool := false
  limitedSeen : Bool := false
  restSince : Nat := 0
  begun : Option (Nat × Rat) := none
  passing : Bool := false
  drive : DriveRt := {}
  deriving DecidableEq, Repr

/-- A phase port (R251, R256, R257): failed, chopper phase (driving) since when (ns), whether the current has fallen to i_lo before
CHOP_TOFF_MIN is over, its set-point (mA), whether a threshold changed in this cycle, and the pinned count of its offset loop. -/
structure PortRt where
  failed : Bool := false
  driving : Bool := false
  since : Nat := 0
  lowSeen : Bool := false
  lastSet : Rat := 0
  changed : Bool := true
  pinned : Nat := 0
  deriving DecidableEq, Repr

/-- A motor supply bus (R268-R271): its present voltage as the comparators see it (mV), which states hold, the chopper and
when it was switched on (µs) at which BUS_VOLTAGE, whether its rise has been checked, and brake time in µs. -/
structure BusRt where
  warning : Bool := false
  braking : Bool := false
  failed : Bool := false
  cut : Bool := false
  onSince : Option Nat := none
  onVoltage : Nat := 0
  checked : Bool := false
  level : Nat := 0
  brakeMicros : Nat := 0
  deriving DecidableEq, Repr

/-- The planner beside its axes: start groups with a start pending (group and the moment from which it may run, µs), the
axes most recently commanded first (R227), accepted levels of the encoders (A + 2 B), the latest edge of each
step input (10 ns), the encoder counts before the changes of the last 20 ms (moment in 10 ns, encoder, count),
when the last tick ran, up to which moment (10 ns) line boundaries have been found, when each sense input
last changed (µs), the phase ports and the two buses. -/
structure MotionState where
  starts : List (Nat × Nat) := []
  recent : List Nat := []
  qePhase : List Nat := List.replicate 8 0
  sdLast : List (Option Nat) := List.replicate 8 none
  qeHist : List (Nat × Nat × Int) := []
  lastTick : Option Nat := none
  horizon : Nat := 0
  siAt : List Nat := List.replicate 24 0
  ports : List PortRt := List.replicate 100 {}
  buses : List BusRt := [{}, {}]
  deriving DecidableEq, Repr

/-! ### Laser station, R169-R219. Stamps of SOS and EOS edges are in steps of 31.25 ps of device time. -/

/-- The scanner (R172-R177): when its lock timer began and beam 0 was lit for the search (µs), a search paused since (µs),
whether SOS edges can be predicted, whether one has come since LOCKING was entered, the last SOS (actual or predicted, and which),
the facet of the sweep in progress, measured intervals
per facet and the one just measured (R266), whether the next SOS follows an index pulse and how many have come since the last, the revolution in progress
(SOS edges, whether one was missed, its start), good revolutions, the run of missed SOS, the page of the sweep in progress, EOS seen in
this sweep, whether event 0x2805 has been raised since the last page, how many APC windows of this sweep have ended, bad power
results per beam, when the last SL item left flight (µs), and whether the interlock input is open. -/
structure ScanRt where
  startAt : Nat := 0
  searchAt : Nat := 0
  pausedAt : Option Nat := none
  acquired : Bool := false
  found : Bool := false
  last : Nat := 0
  predicted : Bool := false
  facet : Nat := 0
  intervals : List (Option Nat) := List.replicate 12 none
  measured : Option Nat := none
  indexed : Bool := false
  sinceIndex : Nat := 0
  edges : Nat := 0
  missed : Bool := false
  revStart : Option Nat := none
  good : Nat := 0
  missRun : Nat := 0
  page : Option Nat := none
  eosSeen : Bool := false
  eosIdle : Bool := false
  apcDone : Nat := 0
  pmonBad : List Nat := List.replicate 4 0
  idleAt : Option Nat := none
  intlkOpen : Bool := false
  deriving DecidableEq, Repr

/-- A released page (R184-R186): its video image, geometry, the sweep it reaches next, when its image may begin (stamp),
the SOS of sweep 0 (stamp), the first blanked sweep with the sweep of the scanner in which its cause arose (R193), the tables read at
its release, and which of its once-a-page events have been raised. -/
structure PageRun where
  item : Nat
  base : Nat
  length : Nat
  sweeps : Nat
  next : Nat := 0
  notBefore : Nat := 0
  sos0 : Option Nat := none
  blank : Option Nat := none
  cause : Nat × Nat := (0, 0)
  facetT : Nat := 0
  beamO : Nat := 0
  bowS : Nat := 0
  bowT : Nat := 0
  eosDone : Bool := false
  bowDone : Bool := false
  cutDone : Bool := false
  deriving DecidableEq, Repr

/-- A sheet in the path (R212-R216): item, length (0.1 mm), the commanded motion that carries it, at the gate since (µs),
released at (µs), started by the registration roller, its high-voltage windows made, the stages its leading and trailing edges have passed, its position at stage 1's leading edge, the tries
of its pick, a missed pick since (µs), and the class record of LS_HV_SET with HV_ON and HV_OFF read at the pick. -/
structure SheetRt where
  item : Nat
  length : Nat
  plan : Plan
  gate : Option Nat := none
  released : Option Nat := none
  rolled : Bool := false
  windowed : Bool := false
  lead : List Nat := []
  trail : List Nat := []
  edge1 : Rat := 0
  tries : Nat := 0
  missedAt : Option Nat := none
  hvSet : Nat := 0
  hvOn : List Int := []
  hvOff : List Int := []
  deriving DecidableEq, Repr

/-- A high-voltage channel (R205, R206): ramped set-point, the two accumulators, since when it has been out of tolerance
and limited (µs), and whether it ramps down to 0 for a stop. -/
structure HvRt where
  r : Rat := 0
  accA : Rat := 0
  accB : Rat := 0
  badSince : Option Nat := none
  limSince : Option Nat := none
  active : Bool := false
  deriving DecidableEq, Repr

/-- A page's high-voltage window on one channel (R204): item, record, from and to (µs). -/
structure HvWin where
  chan : Nat
  record : Nat
  on_ : Int
  off : Int
  deriving DecidableEq, Repr

/-- A heater (R207, R210): accumulator, credit, last demand, since when u has been at least 0.9 with the temperature
then (1/16 °C), and its latest gate pulse (start and width in 10 ns). -/
structure HeaterRt where
  acc : Rat := 0
  sd : Rat := 0
  u : Rat := 0
  rise : Option (Nat × Rat) := none
  pulse : Nat × Nat := (0, 0)
  deriving DecidableEq, Repr

/-- The laser station beside its scanner (R188, R200-R219): the power references of the beams as last read, the process speed of a started process (0.1 mm/s, 0 none), warm-up step and its start (µs), stop step and its start, idle since,
targets cut by a jam, targets in band since, the last zero crossing (10 ns), heaters and channels, HV windows, sheets,
pages, the last release with the pitch to the next (µs), a hold set by a cause, purge start, and the last HV update (µs). -/
structure SlRt where
  scan : ScanRt := {}
  pref : List Nat := [0, 0, 0, 0]
  speed : Nat := 0
  pages : List PageRun := []
  sheets : List SheetRt := []
  warm : Nat := 0
  warmAt : Nat := 0
  stop : Nat := 0
  stopAt : Nat := 0
  idleAt : Option Nat := none
  bandSince : Option Nat := none
  zc : Option Nat := none
  heaters : List HeaterRt := [{}, {}]
  hv : List HvRt := List.replicate 4 {}
  wins : List HvWin := []
  lastRelease : Option (Nat × Nat) := none
  causeHold : Bool := false
  purgeAt : Nat := 0
  hvAt : Nat := 0
  fusCodes : List Nat := [0, 0, 0]
  deriving DecidableEq, Repr


/-! ### Inspection, R274-R298 -/

/-- Where a camera port's fit sequence stands (R278). -/
inductive CamStep where
  | off | reset | replay | armed | ready | failed
  deriving DecidableEq, Repr

/-- A stamp of a camera port (R287): source position (1/16 line or scan line), the SL item it belongs to, and when it was latched (µs). -/
structure Stamp where
  pos : Int := 0
  sheet : Nat := 0
  at_ : Nat := 0
  deriving DecidableEq, Repr

/-- A camera row on its way through rectification (R288): its coordinate (1/16 line), when it was stamped and when it arrived (µs), and
its codes. -/
structure CamRow where
  pos : Rat
  stamped : Nat
  arrived : Nat
  codes : List Nat
  deriving DecidableEq, Repr

/-- A frame of a camera port (R282-R284): number, context (pipeline × 2 + context, 255 none) with the record, defect list and shading
tables that govern it, whether temporal noise reduction begins without a reference at it, rows from the first (none for a missing row)
with their moments of arrival, the trigger stamp of the frame and of each row of a line-scan context, marks, device times of start and
end, and whether it has ended and has been taken by its pipeline. -/
structure CamFrame where
  num : Nat
  ctx : Nat
  record : Nat
  defects : List (Nat × Nat) := []
  shading : Nat := 0
  noRef : Bool := false
  rows : List (Option (List Nat)) := []
  arrivals : List Nat := []
  stamp : Stamp := {}
  stamps : List Stamp := []
  marks : Nat := 0
  tFs : Nat
  tFe : Nat := 0
  ended : Bool := false
  taken : Bool := false
  deriving DecidableEq, Repr

/-- A camera port (R274-R287): last probe, consecutive missed probes, fit step with the moments of its reset, arming and last
frame start, whether it repeats steps 2-5, whether temporal noise reduction begins anew at its next frame, consecutive HDR frames, frames from the oldest (the last may be in progress), whether
the rest of a frame is ignored, the port's own frame count and the camera's last frame number, pixels of the taken frame not
processed with their moment (µs), trigger stamps that wait, the latest stamp, the highest multiple passed with its sheet, since
when frames are due, when its latest trigger pulse began (µs), and the second of the last 0x2C05. -/
structure CamRt where
  probeAt : Option Nat := none
  misses : Nat := 0
  step : CamStep := .off
  fitAt : Nat := 0
  armedAt : Nat := 0
  startAt : Option Nat := none
  again : Bool := false
  noRef : Bool := true
  hdrRun : Nat := 0
  frames : List CamFrame := []
  receiving : Bool := false
  dropping : Bool := false
  count16 : Nat := 0
  lastNum : Nat := 0
  backlog : Nat := 0
  backlogAt : Nat := 0
  stamps : List Stamp := []
  lastStamp : Stamp := {}
  high : Option (Nat × Int) := none
  due : Option Nat := none
  trigAt : Option Nat := none
  markSecond : Option Nat := none
  deriving DecidableEq, Repr

/-- A context (R281): whether a written record waits for the next frame, the record in force, the defect list and shading
tables copied with it, the previous frame after stage 2, and the last row of a line-scan context. -/
structure CtxRt where
  fresh : Bool := true
  record : Nat := 0
  defects : List (Nat × Nat) := []
  shading : Nat := 0
  prev : Option (List (List Nat)) := none
  lastRow : Option CamRow := none
  deriving DecidableEq, Repr

/-- A pipeline (R283): the port whose frame it processes with its start (µs), and its busy spans of the last 100 ms. -/
structure PipeRt where
  cur : Option (Nat × Nat) := none
  busy : List (Nat × Nat) := []
  deriving DecidableEq, Repr

/-- A rectified row (R288): coordinate (1/16 line), samples (none where not viewed), when the earlier of its camera rows was stamped and
the later one arrived (µs). -/
structure RectRow where
  pos : Int
  y : List (Option Nat)
  stamped : Nat := 0
  arrived : Nat := 0
  deriving DecidableEq, Repr

/-- The inspection of an item (R289): pipeline (0xFF none), context (pipeline × 2 + context), port, coordinate of item line 0,
the moment from which rows count (µs, none before its last pass), rectified rows, marks and number of the frames used, drops, when the boundary of the
last line reached the camera view, rows not yet cut into bands, bands issued, and the status and moment of closing. -/
structure InspRun where
  item : Nat
  pipe : Nat
  ctx : Nat
  port : Nat
  line0 : Int := 0
  since : Option Nat := none
  rows : List RectRow := []
  marks : Nat := 0
  used : Nat := 0
  drops : Nat := 0
  boundaryAt : Option Nat := none
  bands : Nat := 0
  closed : Option (Nat × Nat) := none
  deriving DecidableEq, Repr

/-! ### Analogue subsystem, R299-R315 -/

/-- What a conversion is for: a sequence entry, an urgent current sample of an axis, an urgent dot-scan conversion
(head port, and which of I_off, I_on, V_on), or the in-service check. -/
inductive ConvKind where
  | entry (e : Nat)
  | current (axis : Nat)
  | scan (hp which : Nat)
  | check
  deriving DecidableEq, Repr

/-- A conversion on a slice: its channel, purpose, the slot (62.5 ns) at which it started and ends, when it was due,
and whether its result is discarded (R310, R311). -/
structure Conv where
  chan : Nat
  kind : ConvKind
  start : Nat
  endSlot : Nat
  due : Nat
  discard : Bool
  settled : Bool
  deriving DecidableEq, Repr

/-- A converter slice: the conversion in progress, the channel converted before, whether the next conversion is a
recovery (R311), since when it serves, a waiting in-service check, what it fed since its last passed check, the pinned
counts of its two loops, and the status of each. -/
structure Slice where
  conv : Option Conv := none
  prev : Option Nat := none
  recover : Bool := false
  since : Nat := 0
  checkDue : Bool := false
  fedAcc : List Nat := []
  fedMm : List Nat := []
  ofsPinned : Nat := 0
  gainPinned : Nat := 0
  ofsStatus : Nat := 0
  gainStatus : Nat := 0
  calSince : Nat := 0
  calibrated : Bool := false
  deriving DecidableEq, Repr

/-- A conversion that waits: its due slot and sequence entry. -/
structure AnWait where
  due : Nat
  entry : Nat
  deriving DecidableEq, Repr

/-- An urgent conversion that waits (R309): request slot, purpose, channel, and the last slot at which it may start. -/
structure AnUrgent where
  req : Nat
  kind : ConvKind
  chan : Nat
  last : Option Nat
  deriving DecidableEq, Repr

/-- The working values of an accumulator (R312). -/
structure AccRt where
  n : Nat := 0
  sum : Nat := 0
  flagged : Bool := false
  y : Option Rat := none
  clean : Nat := 0
  deriving DecidableEq, Repr

/-- The analogue subsystem: slices, waiting conversions, the table in force and the one that waits for the next 1 µs
tick, the next due moment of each entry (µs), discards owed after a gain change, accumulators, the temperature factor,
which second last saw a late entry and which saw an over-range of each channel, busy slots for AN_LOAD, power, and whether slices
rotate and a calibrated slice waits to take its place (R302). -/
structure AnState where
  slices : List Slice := List.replicate 5 {}
  waiting : List AnWait := []
  urgent : List AnUrgent := []
  table : Nat := 0
  staged : Option (Nat × Nat) := none
  next : List Nat := List.replicate 128 0
  gainDiscard : List (Nat × Nat) := []
  accs : List AccRt := List.replicate 128 {}
  kT : Rat := 1
  lateSecond : Option Nat := none
  ovrSecond : List (Nat × Nat) := []
  busy : List (Nat × Nat) := []
  powered : Bool := true
  powerUp : Option Nat := none
  lastEnd : Nat := 0
  working : Bool := false
  rotate : Bool := false
  rotDue : Bool := false
  deriving DecidableEq, Repr

/-! ### Network block, R318-R347 -/

/-- A Hywex Link session (R334): number, port, source address and UDP port, heartbeat timeout (ms), event mask, process
data, last valid frame (µs), for each class the last request executed (SEQ, OP) with its stored response if it has one, and the
DOMAIN write in progress: key and bytes received so far. -/
structure Session where
  number : Nat
  port : Nat
  addr : Nat
  udp : Nat
  timeout : Nat
  mask : Nat
  pd : Bool
  lastSeen : Nat
  last : List (Option (Nat × Nat × Option Out)) := [none, none, none]
  domain : Option (Nat × List Byte) := none
  deriving DecidableEq, Repr

/-- A Hywex Link request waiting in a receive queue (R322, R330): its class, operation, request number, session number, MORE
flag, source address and UDP port, and payload. -/
structure RxFrame where
  tc : Nat
  op : Nat
  seq : Nat
  session : Nat
  more : Bool
  addr : Nat
  udp : Nat
  payload : List Byte
  deriving DecidableEq, Repr

/-- NMT states of the CF0 node (R339). -/
inductive Nmt where
  | preOperational | operational | stopped
  deriving DecidableEq, Repr

/-- The network block: sessions by slot, the number the next session takes, receive queues per port (EN0, EN1) in order of arrival,
the second of the last queue-overflow event per port and class, whether the ports have an address by DHCP, the NMT state of CF0;
the UDP port each Ethernet port took at its enable; per RPDO the data a synchronous one waits with for its SYNC; per TPDO the SYNCs
counted, when it was last sent (µs) and the data its events are judged against on CF0 and on Hywex Link; when the host of 0x1016 was last seen (none: never) and whether it has lapsed, when the EMCY inhibit
time ends, when heartbeats were last sent on CAN and to the sessions, which CAN ports were asked to leave bus off, and the fraction
of device time (2⁻³² µs). -/
structure NetState where
  sessions : List (Option Session) := List.replicate 4 none
  nextSession : Nat := 1
  rx : List (List RxFrame) := [[], []]
  rxEvent : List (Nat × Nat × Nat) := []
  enAddr : List Bool := [false, false]
  hwxPort : List Nat := [47700, 47700]
  nmt : Nmt := .preOperational
  rpdoHeld : List (Option (List Byte)) := List.replicate 8 none
  syncCount : List Nat := List.replicate 8 0
  tpdoLast : List Nat := List.replicate 8 0
  tpdoSent : List (Option (List Byte)) := List.replicate 8 none
  tpdoHwx : List (Option (List Byte)) := List.replicate 8 none
  hbLast : Option Nat := none
  hbLapsed : Bool := false
  emcyUntil : Nat := 0
  canHbLast : Nat := 0
  hbSent : Nat := 0
  recover : List Bool := [false, false]
  timeFrac : Nat := 0
  deriving DecidableEq, Repr

/-! ### Flash, OTP row and firmware banks, R363-R392 -/

/-- A physical block of the flash (R370): the block of manufacture its unlisted bytes come from (none: 0xFF), the bytes that
differ from those by offset, the segments whose content is undefined, its erase count and whether its stamp row is valid
(R374, R377). -/
structure FlashBlk where
  factory : Option Nat := none
  cells : List (Nat × Byte) := []
  undef : List Nat := []
  erases : Nat := 0
  stamp : Bool := true
  deriving DecidableEq, Repr

/-- What the controller still has to program or erase (R375): background erases of the log and of the calibration region, bank
programming (bank, slot, image), user operations (R380: block; first page and the bytes left), and the protected
configuration (R383: block and record). Log records wait in their own queue. -/
inductive FlashJob where
  | logErase (block : Nat)
  | calErase (block : Nat)
  | bank (bank slot : Nat) (image : List Byte)
  | userErase (block : Nat)
  | userProg (block page : Nat) (data : List Byte)
  | protErase (block record : Nat)
  | protProg (block record : Nat)
  deriving DecidableEq, Repr

/-- A block that waits for its replacement (R378): whether the spare starts blank (its erase failed), the segment whose program
failed with its intended data (offset and bytes), and the operation that ends or goes on with the replacement. -/
structure Migr where
  block : Nat
  blank : Bool := false
  patch : Option (Nat × List Byte) := none
  job : Option FlashJob := none
  deriving DecidableEq, Repr

/-- The flash controller: physical blocks 0-135; per logical block since the reset the highest corrected count and whether
it reads WEAK or FAILED; the spare map (logical, spare) and spares set aside; blocks that wait for replacement; jobs, begun
when the first of them is in progress; whether event 0x3006 was sent for the erase in progress; journal head block and next
page; active bank, trial flag and boot count (R384); the state of the slots (supervisor A, kernel A, supervisor B, kernel B:
0 empty, 1 passes, 2 does not pass, 3 reads empty after a failure); calibration head block, next page, the block of each
set's newest record; per log block its segments (none: neither blank nor valid), the head block, the blocks a clear still has
to erase, the second of the last 0x300A; and the OTP row (R385). -/
structure FlashState where
  blks : List FlashBlk :=
    (List.range 136).map (fun b => { factory := if b < 2 || (6 ≤ b && b < 34) then some b else none })
  corrMax : List Nat := List.replicate 128 0
  weak : List Bool := List.replicate 128 false
  failed : List Bool := List.replicate 128 false
  map : List (Nat × Nat) := []
  aside : List Nat := []
  migr : List Migr := []
  jobs : List FlashJob := []
  begun : Bool := false
  suspRead : Bool := false
  jHead : Nat := 4
  jPage : Nat := 0
  active : Nat := 0
  trial : Bool := false
  bootCount : Nat := 0
  slots : List Nat := [1, 1, 0, 0]
  calHead : Nat := 62
  calPage : Nat := 0
  calLoc : List (Option Nat) := List.replicate 16 none
  log : List (List (Option Nat)) := List.replicate 4 []
  logHead : Nat := 0
  logClear : List Nat := []
  logDropAt : Option Nat := none
  otp : Nat := setFld (Config.otpVendor % 2 ^ 3584) 1 1 3
  deriving DecidableEq, Repr

/-! ### Serial ports, R393-R406 -/

/-- The settings a character is received or sent with (R397): divider in 1/256 clock (Railaly: ticks of UA_RL_DIV), data bits,
parity and stop bits. -/
structure UartSet where
  div : Nat := 555556
  bits : Nat := 8
  parity : Nat := 0
  stop : Nat := 1
  deriving DecidableEq, Repr

/-- A UART: receive FIFO, transmit FIFO, settings of the character being received and of the one being sent, those read at the
enable for a Railaly mode, whether a start edge has been taken, whether the line must read high before the next, whether
characters were lost before the next entry, the character being sent, whether a character waits for CTS, the levels of CTS, RXD
and RTS as last sampled or driven (at reset as UA_LINE reads 0), the moment of the last 0x2F01 and the seconds of the last 0x2F02
and 0x2F03, whether characters of the transmit ring were fetched since the last 0x2F05, whether a break holds TXD low, when the last one was
released (µs), and whether the line has stayed low since a received break. -/
structure UartRt where
  rx : List Nat := []
  tx : List Byte := []
  rxSet : UartSet := {}
  txSet : UartSet := {}
  held : UartSet := {}
  started : Bool := false
  waitHigh : Bool := false
  lost : Bool := false
  sending : Option Byte := none
  waitCts : Bool := false
  ctsHigh : Bool := true
  rxdHigh : Bool := false
  rtsHigh : Bool := true
  ringEvent : Option Nat := none
  ovrSecond : Option Nat := none
  errSecond : Option Nat := none
  txUsed : Bool := false
  breaking : Bool := false
  breakEnd : Option Nat := none
  inBreak : Bool := false
  deriving DecidableEq, Repr

/-! ### CF1, power, temperature and boot, R349-R366, R408-R423 -/

/-- A node of CF1 that is being identified (R359): since when (µs), until when it waits for its next try, last heartbeat, and
when NMT start was last sent for a node that left Operational (R360). -/
structure NodeRt where
  asked : Option Nat := none
  retryAt : Option Nat := none
  hbLast : Option Nat := none
  startSent : Option Nat := none
  deriving DecidableEq, Repr

/-- The CF1 port: end of its last reset (µs), whether its boot-up has ended (R362), and whether an LSS assignment runs with its
node ID (R361). -/
structure Cf1State where
  bootAt : Nat := 0
  bootDone : Bool := false
  lss : Option Nat := none
  nodes : List NodeRt := List.replicate 128 {}
  deriving DecidableEq, Repr

/-- Power, temperature, clocks and boot: the start of the VMON warning in force, and the windows of 20 ms that run, by their starts
(R412, R413); when the throttle's grace time ends, and since when the temperature in use has been below 100 °C (R420); when the last
die reading came, since when every reading has been identical, and whether one has come (R418, R419); the values of DEV_POWER_EST of
the last second with their moments (R409); the boot cause (R350); the cause of a clock failure to be logged (R417); when the supervisor
restart or swap began (R10, R365); the cause of a rollback or fallback (R366); what the boot found: interrupted blocks (R377), and
whether no protected configuration was valid (R383); and the events held back until the supervisor is READY (R10, R389). -/
structure DevRt where
  warnFrom : Nat := 0
  warnAt : List Nat := []
  graceAt : Option Nat := none
  coolAt : Option Nat := none
  tempAt : Nat := 0
  sameAt : Nat := 0
  powers : List (Nat × Nat) := []
  tempSeen : Bool := false
  cause : Nat := 0
  clkFail : Nat := 0
  swapAt : Option Nat := none
  rollback : Option Nat := none
  intBlocks : List Nat := []
  protBad : Bool := false
  deferred : List (Nat × List Nat × Nat) := []
  deriving DecidableEq, Repr


/-- The test access port (R439): the levels of TCK, TMS, TDI and TRST_N by their pulls, and of TEST_EN. TRST_N low holds the port in
reset; no command of the table drives these balls (log entry 291). -/
structure TestPort where
  tck : Bool := false
  tms : Bool := true
  tdi : Bool := true
  trstN : Bool := false
  testEn : Bool := false
  deriving DecidableEq, Repr

/-! ### The machine -/

/-- The record in force without a valid protected configuration (R383): FORMAT 1, every ceiling at the top of its range. -/
def protDefault : Nat :=
  1 * 256 ^ 4 + 8000 * 256 ^ 0x18 + 100 * 256 ^ 0x1A + 0xFFFF * 256 ^ 0x1C + 0xFFFF * 256 ^ 0x1E

/-- Everything but device memory and the queue of waiting commands. dict holds the object values, held the values in use
of the enable-, restart- and fit-sampled keys (R8), both by key and in canonical form; time is device time in µs (R344);
fresh numbers the draws of free values and is the model's own; out is what the current command puts out; stores are the
bytes the current command writes to device memory, applied when it ends. vmonLow tells that VMON inhibits firing (R412);
prot is the protected configuration in force (R382); sup the supervisor (R350); order numbers definitions (R60); ledger holds the bands in
work (R58); badWords the DRAM words found uncorrectable (R12); calSets and calFlash
are the working copies and the stored records of the calibration sets (R142); calStoring are the sets whose STORE is in progress or waits
with the records to be programmed (R142); calResult is the pattern, port and station of the latest DONE measurement (R140). -/
structure Mach where
  variant : Variant := .mp6440
  dict : List (Nat × Nat) := []
  held : List (Nat × Nat) := []
  time : Nat := 0
  fresh : Nat := 0
  vmonLow : Bool := false
  prot : Nat := protDefault
  sup : SupMode := .reset
  ev : EvState := {}
  items : List Item := []
  order : Nat := 0
  ledger : List Band := []
  clusters : List Cluster := []
  heads : List HeadRt := List.replicate 4 {}
  net : NetState := {}
  test : TestPort := {}
  an : AnState := {}
  axes : List AxisRt := List.replicate 40 {}
  motion : MotionState := {}
  stations : List StationRt := List.replicate 4 {}
  sl : SlRt := {}
  cams : List CamRt := List.replicate 8 {}
  ctxs : List CtxRt := List.replicate 8 {}
  pipes : List PipeRt := List.replicate 4 {}
  insp : List InspRun := []
  calSets : List Nat := List.replicate 16 0
  calFlash : List Nat := List.replicate 16 0
  calStoring : List (Nat × Nat) := []
  calResult : Nat × Nat × Nat := (0, 0, 0xFF)
  badWords : List Nat := []
  flash : FlashState := {}
  uarts : List UartRt := List.replicate 8 {}
  cf1 : Cf1State := {}
  dev : DevRt := {}
  out : List Out := []
  stores : List (Nat × Byte) := []
  deriving DecidableEq, Repr

/-- Device memory (R13): the DRAM bytes that differ from what an unlisted address reads as. -/
structure Mem where
  cells : List Host.Cell := []
  deriving DecidableEq, Repr

/-- The state of the block: the commands that wait, first in first out, device memory, and the machine. -/
structure State where
  pending : List Instr := []
  mem : Mem := {}
  m : Mach := {}
  deriving DecidableEq, Repr

/-- What an unlisted DRAM address reads as (DESIGN CHOICE, log entry 2: the spec states no contents after power-on). -/
def Mem.fill (_a : Nat) : Byte := 0#8

/-- The canonical form of memory. -/
def Mem.wf (x : Mem) : Bool := Store.wf Mem.fill x.cells

/-- What an object value reads as when it is not listed: the default of its card. -/
def objDefault (k : Nat) : Nat :=
  match (ObjTable.rowsOf (k / 65536)).find? (fun r => (r.place k).isSome) with
  | some r => r.dflt
  | none => 0

/-- Clusters of a variant and cloves of a cluster: 16, and on the MP-6440 a spare (R3, R55). -/
def Variant.clusters (v : Variant) : List Cluster :=
  let cloves : List Clove := List.replicate (if v = .mp6440 then 17 else 16) { state := .off }
  List.replicate (match v with | .mp6440 => 4 | .mp6420 => 2 | .mp6410 => 1) { cloves }

/-- Object values at reset that are no default of their card: the serial ports read STARTING (R405), the slices of the converter
are calibrating (R305). -/
def resetDict : List (Nat × Nat) :=
  Store.putAll objDefault ((List.range 8).map (fun u => (0x201030 + u, 1)) ++ (List.range 5).map (fun i => (K.AN_SL_ROLE i, 1))) []

/-- The machine of a variant right after a reset, but for what a reset keeps. -/
def Mach.atReset (v : Variant) : Mach := { variant := v, clusters := v.clusters, dict := resetDict }

/-- The block right after power-on and reset: held until the reset is released (R349, R350). The variant is a DESIGN CHOICE (log
entry 5). -/
def State.reset : State := { m := Mach.atReset .mp6440 }

end Sys2Proof.Machine
end

