-- ==== Sys2Proof/Machine/Flags.lean ====
section
/-! DEFINITION. The flags of the block: the class of every event (TC0 or TC1, the event tables of each chapter), which
events the supervisor raises itself (R28, R346), which are always logged (R21), and the keys of DEV_READINESS (R352). -/

namespace Sys2Proof.Machine

/-- Offsets of head port events (R99, R125, R130) that are TC0. -/
def hpTc0 : List Nat := [0x01, 0x02, 0x06]

/-- Offsets of station events that are TC0 (R125, R167). -/
def thTc0 : List Nat := []

/-- TC0 events outside the head port and station blocks. -/
def tc0Codes : List Nat :=
  [0x2101, 0x2304, 0x2307, 0x2401, 0x2402, 0x2404, 0x2802, 0x2804, 0x2806, 0x2808, 0x2812, 0x2814, 0x2815, 0x2816,
   0x2818, 0x2A01, 0x2B01, 0x2B12, 0x2B13, 0x2C03, 0x2E01, 0x2F85, 0x2F89, 0x2F8C, 0x2003, 0x2007, 0x2009, 0x200A,
   0x200C, 0x3002]

/-- Whether an event is of class TC0. -/
def isTc0 (code : Nat) : Bool :=
  let a := code / 256
  if a = 0x25 ∨ a = 0x26 then hpTc0.contains (code % 0x80)
  else if a = 0x27 ∧ code < 0x2780 then thTc0.contains (code % 0x20)
  else tc0Codes.contains code

/-- Whether the supervisor raises the event itself, so that it is kept back while it restarts (R28, R346): item,
readiness, discovery and bank events, and the events of the functions it hosts. -/
def isSupervisorEvent (code : Nat) : Bool :=
  let a := code / 256
  a = 0x23 || a = 0x22 || (a = 0x20 && !([0x2007, 0x2009, 0x200A, 0x200C].contains code)) || (a = 0x30 && code != 0x3002) || code = 0x2102
    || code = 0x2405 || code = 0x2407 || code = 0x2408 || code = 0x2409 || code = 0x240A || !(isTc0 code)

/-- Events that are written to the flash log whatever EV_LOG_MASK holds: boot, thermal shutdown, bus over-voltage cut,
clock failure (R21, R388, the event table of R425). -/
def alwaysLogged : List Nat := [0x2001, 0x2007, 0x2B13, 0x200D]

/-- DEV_READINESS sub-indices (R352). -/
def rdySup : Nat := 0x01
def rdyAnalogue : Nat := 0x02
def rdyFlash : Nat := 0x03
def rdyCluster (k : Nat) : Nat := 0x08 + k
def rdyHead (h : Nat) : Nat := 0x10 + h
def rdyStation (st : Nat) : Nat := 0x14 + st
def rdySL : Nat := 0x18
def rdyCamera (c : Nat) : Nat := 0x20 + c
def rdyPipe (p : Nat) : Nat := 0x28 + p
def rdyUart (u : Nat) : Nat := 0x30 + u
def rdyCan (c : Nat) : Nat := 0x38 + c
def rdyEth (e : Nat) : Nat := 0x3A + e
def rdyAxis (a : Nat) : Nat := 0x40 + a

/-- Readiness values (R75, R352). -/
def vOff : Nat := 0
def vStarting : Nat := 1
def vReady : Nat := 2
def vDegraded : Nat := 3
def vFault : Nat := 4
def vUpdating : Nat := 5

end Sys2Proof.Machine
end

