-- ==== Sys2Proof/Machine/Ops.lean ====
section
/-! DEFINITION. The named operations every meaning is written with: object values, values in use, counters, free values,
memory, events and consumers, readiness, replies, and running a meaning on the state. -/

namespace Sys2Proof.Machine

open Sys2Proof

/-! ### Object values -/

/-- The value of an object. -/
def Mach.g (m : Mach) (k : Nat) : Nat := Store.get objDefault k m.dict

/-- Store an object value. -/
def Mach.put (m : Mach) (k v : Nat) : Mach := { m with dict := Store.put objDefault k v m.dict }

/-- The value of an object as a signed number of w bits. -/
def Mach.gi (m : Mach) (w k : Nat) : Int := sext w (m.g k)

/-- Store a signed value of w bits. -/
def Mach.puti (m : Mach) (w k : Nat) (v : Int) : Mach := m.put k (ofInt w v)

/-- The value of a REAL32 object. -/
def Mach.gf (m : Mach) (k : Nat) : R32 := R32.ofBits (m.g k)

/-- Whether a BOOLEAN object is 1. -/
def Mach.gb (m : Mach) (k : Nat) : Bool := m.g k != 0

/-- Count up a 32-bit counter object. -/
def Mach.count (m : Mach) (k : Nat) (n : Nat := 1) : Mach := m.put k ((m.g k + n) % 2 ^ 32)

/-- Store the values the list gives. -/
def Mach.puts (m : Mach) (l : List (Nat × Nat)) : Mach := l.foldl (fun m p => m.put p.1 p.2) m

/-- The value in use of an enable- or restart-sampled object: the one read when its function was enabled (R8), the
card's default before the first enable. -/
def Mach.h (m : Mach) (k : Nat) : Nat :=
  match Store.find k m.held with
  | some v => v
  | none => objDefault k

/-- The value in use, signed. -/
def Mach.hi (m : Mach) (w k : Nat) : Int := sext w (m.h k)

/-- Read the listed objects into use (R8). -/
def Mach.sample (m : Mach) (ks : List Nat) : Mach :=
  { m with held := ks.foldl (fun l k => Store.insert k (m.g k) l) m.held }

/-- A free value below a bound: what the spec leaves open (log entry 3). -/
def Mach.freeBelow (m : Mach) (n : Nat) : Nat × Mach := (Config.freeNat m.fresh % n, { m with fresh := m.fresh + 1 })

/-! ### The units of a variant, R3 -/

def Mach.nClusters (m : Mach) : Nat := match m.variant with | .mp6440 => 4 | .mp6420 => 2 | .mp6410 => 1
def Mach.hasSpares (m : Mach) : Bool := m.variant == .mp6440
def Mach.nHeads (m : Mach) : Nat := match m.variant with | .mp6440 => 4 | _ => 2
def Mach.nStations (m : Mach) : Nat := m.nHeads
def Mach.hasSL (m : Mach) : Bool := m.variant != .mp6410
def Mach.nAxes (m : Mach) : Nat := match m.variant with | .mp6440 => 40 | .mp6420 => 24 | .mp6410 => 16
/-- Usable phase ports; the MP-6440 has four spares above them. -/
def Mach.nPhasePorts (m : Mach) : Nat := match m.variant with | .mp6440 => 96 | .mp6420 => 56 | .mp6410 => 36
def Mach.nPortsAll (m : Mach) : Nat := match m.variant with | .mp6440 => 100 | .mp6420 => 56 | .mp6410 => 36
def Mach.nCameras (m : Mach) : Nat := match m.variant with | .mp6440 => 8 | .mp6420 => 4 | .mp6410 => 2
def Mach.nPipes (m : Mach) : Nat := match m.variant with | .mp6440 => 4 | .mp6420 => 2 | .mp6410 => 1
def Mach.nSpareBlocks (m : Mach) : Nat := if m.hasSpares then 8 else 0

/-! ### Runtime records by number -/

def Mach.head (m : Mach) (h : Nat) : HeadRt := m.heads.getD h {}
def Mach.modHead (m : Mach) (h : Nat) (f : HeadRt → HeadRt) : Mach := { m with heads := m.heads.modify h f }
def Mach.cluster (m : Mach) (k : Nat) : Cluster := m.clusters.getD k {}
def Mach.modCluster (m : Mach) (k : Nat) (f : Cluster → Cluster) : Mach := { m with clusters := m.clusters.modify k f }
def Mach.item? (m : Mach) (id : Nat) : Option Item := m.items.find? (fun it => it.id == id)
def Mach.modItem (m : Mach) (id : Nat) (f : Item → Item) : Mach :=
  { m with items := m.items.map (fun it => if it.id = id then f it else it) }
def Mach.session (m : Mach) (slot : Nat) : Option Session := (m.net.sessions.getD slot none)

/-- Put something out. -/
def Mach.emit (m : Mach) (o : Out) : Mach := { m with out := m.out ++ [o] }

/-! ### Device memory, R12-R16 -/

/-- A DRAM byte. -/
def Mem.byte (x : Mem) (a : Nat) : Byte := Store.get Mem.fill a x.cells

/-- n bytes from an address, as a little-endian number. -/
def Mem.read (x : Mem) (a : Nat) : Nat → Nat
  | 0 => 0
  | n + 1 => (x.byte a).toNat + 256 * Mem.read x (a + 1) n

/-- The bytes from an address. -/
def Mem.bytes (x : Mem) (a n : Nat) : List Byte := (List.range n).map (fun i => x.byte (a + i))

/-- Write bytes at single addresses, in order. -/
def Mem.write (x : Mem) (ws : List (Nat × Byte)) : Mem := { x with cells := Store.putAll Mem.fill ws x.cells }

/-- Whether n bytes from an address lie in the host area (R13). -/
def inHostArea (a n : Nat) : Bool := decide (a + n ≤ 0xC0000000)

/-- Whether n bytes from an address lie in DRAM. -/
def inDram (a n : Nat) : Bool := decide (a + n ≤ 0x100000000)

/-- The stores of the current command: bytes of a list from an address on. -/
def Mach.storeBytes (m : Mach) (a : Nat) (bs : List Byte) : Mach :=
  { m with stores := m.stores ++ (bs.mapIdx (fun i b => (a + i, b))) }

/-- The stores of a number of n bytes. -/
def Mach.storeNum (m : Mach) (a n v : Nat) : Mach := m.storeBytes a (leBytes n v)

/-- The 64-bit words that a list of byte stores replaces in full (R12). -/
def wholeWords (ws : List (Nat × Byte)) : List Nat :=
  let as := ws.map Prod.fst
  (as.filter (fun a => a % 8 = 0 && (List.range 8).all (fun i => as.contains (a + i)))).map (· / 8)

/-- Whether any of n bytes from an address lies in an uncorrectable word (R12). -/
def Mach.badIn (m : Mach) (a n : Nat) : Bool := m.badWords.any (fun w => decide (w * 8 < a + n ∧ a < w * 8 + 8))

/-- A word found uncorrectable among n bytes from an address: it stays so until it is next written in full (R12). Which of the words
it is, a report does not say: open (log entry 3). -/
def Mach.badFound (m : Mach) (a n : Nat) : Mach :=
  let w := a / 8 + Config.freeNat m.fresh % ((a + n - 1) / 8 + 1 - a / 8)
  { m with fresh := m.fresh + 1, badWords := if m.badWords.contains w then m.badWords else m.badWords ++ [w] }

/-! ### Events and consumers, R327, R335, R340 -/

/-- Whether a protection of R20 is in force: bit 0 of the CANopen error register (R340). -/
def Mach.protection (m : Mach) : Bool :=
  (List.range 4).any (fun h => m.g (K.HP_PEPPER_STATE h) != 0)
    || (m.gb K.LS_INTLK_ENABLE && m.g K.LS_INTLK_STATE != 0) || m.g K.LS_FUS_TRIPPED != 0
    || (List.range 2).any (fun b => m.g (K.BUS_STATE b) == 4) || m.g K.DEV_SHUTDOWN != 0

/-- Append a record to a consumer's queue of 256; a full queue discards its oldest TC1 record, else its oldest (R335). -/
def Consumer.push (c : Consumer) (r : EvRec) : Consumer :=
  if c.queue.length < 256 then { c with queue := c.queue ++ [r] }
  else
    let q := match c.queue.findIdx? (fun x => x.tc1) with
      | some i => c.queue.eraseIdx i
      | none => c.queue.drop 1
    { c with queue := q ++ [r], lost := (c.lost + 1) % 2 ^ 32 }

/-- The item an item event concerns: the first value it carries (R54). -/
def EvRec.item (r : EvRec) : Option Nat := if r.code / 256 = 0x23 then r.data.head? else none

/-- Mark the queued, unsent TC1 records of the item of a TC0 record as promoted (R327). -/
def Consumer.promote (c : Consumer) (r : EvRec) : Consumer :=
  match r.item with
  | none => c
  | some id => { c with queue := c.queue.map (fun x =>
      if x.tc1 && x.sent = 0 && x.item == some id then { x with promoted := true } else x) }

/-- Whether a record is to be sent at once: TC0, or promoted, and never sent. -/
def EvRec.urgent (r : EvRec) : Bool := (!r.tc1 || r.promoted) && r.sent = 0

/-- Send every urgent record of a session's queue in one event frame, in queue order. -/
def Mach.sendUrgent (m : Mach) (slot : Nat) : Mach :=
  let c := m.ev.slots.getD slot {}
  let u := (c.queue.filter EvRec.urgent).map EvRec.seq
  if u = [] then m
  else
    let q := c.queue.map (fun r => if r.urgent then { r with sent := 1, lastSent := m.time } else r)
    { m with ev := { m.ev with slots := m.ev.slots.set slot { c with queue := q } } }.emit (.eventFrame (slot + 1) u)

/-- Lists of at most n of the elements, in order; k bounds their number. -/
def chunks {α : Type} (n : Nat) : Nat → List α → List (List α)
  | 0, _ => []
  | k + 1, l => match l with
    | [] => []
    | a :: r => (a :: r).take n :: chunks n k ((a :: r).drop n)

/-- End of a gathering (R335): the TC1 records of a session's queue are sent, those not acknowledged among them, up to 16 to a
frame. -/
def Mach.sendGathered (m : Mach) (slot : Nat) : Mach :=
  let c := m.ev.slots.getD slot {}
  if !(c.queue.any (fun r => r.tc1 && r.sent == 0)) then
    { m with ev := { m.ev with slots := m.ev.slots.set slot { c with gather := none } } }
  else
    let q := c.queue.map (fun r => if r.tc1 then { r with sent := r.sent + 1, lastSent := m.time } else r)
    let frames := chunks 16 16 ((c.queue.filter (fun r => r.tc1)).map EvRec.seq)
    frames.foldl (fun m u => m.emit (.eventFrame (slot + 1) u))
      { m with ev := { m.ev with slots := m.ev.slots.set slot { c with queue := q, gather := none } } }

/-- Send the unsent TC0 records of CF0 as EMCY messages, each when the inhibit time of 0x1015 (100 µs units) has passed
since the one before (R340); a port in bus off sends nothing. -/
def Mach.sendEmcy (m : Mach) : Mach :=
  if m.g (K.NET_CAN_STATE 0) = 2 then m
  else
    m.ev.cf0.queue.foldl (fun m r =>
      if r.tc1 || r.sent ≠ 0 || m.time < m.net.emcyUntil then m
      else
        let q := m.ev.cf0.queue.map (fun x => if x.seq = r.seq then { x with sent := 1, lastSent := m.time } else x)
        { m with ev := { m.ev with cf0 := { m.ev.cf0 with queue := q } },
                 net := { m.net with emcyUntil := m.time + 100 * m.g K.CIA_EMCY_INHIBIT } }.emit
          (.emcy r.code r.seq (0x80 + b2n m.protection))) m

/-- Queue a record with one session: gather TC1 records for at most 1 ms and 16 records (R335). -/
def Mach.pushSlot (m : Mach) (slot : Nat) (r : EvRec) : Mach :=
  match m.session slot with
  | none => m
  | some s =>
    if !(bit s.mask (if r.tc1 then 1 else 0)) then m
    else
      let c := (m.ev.slots.getD slot {})
      let c := (if r.tc1 then c else c.promote r).push r
      let c := if r.tc1 && c.gather.isNone then { c with gather := some m.time } else c
      let m := { m with ev := { m.ev with slots := m.ev.slots.set slot c } }.sendUrgent slot
      if 16 ≤ (c.queue.filter (fun x => x.tc1 && x.sent == 0)).length then m.sendGathered slot else m

/-- Records the log queue takes: 64, of which 8 places are kept for those always written (R388). -/
def EvState.logFull (e : EvState) (code : Nat) : Bool := if alwaysLogged.contains code then false else decide (56 ≤ e.logQueue.length)

/-- Record an event of a moment: SEQ, class, consumers, log (R327, R335, R340, R388). The answer also lists the consumers whose
lost count rose: 0 for CF0, 1-4 for the sessions by slot; and whether a log record was dropped. -/
def Mach.record (m : Mach) (code : Nat) (data : List Nat) (time : Nat) : Mach × List Nat × Bool :=
  let tc1 := !(isTc0 code)
  let logged := bit (m.g K.EV_LOG_MASK) (if tc1 then 1 else 0) || alwaysLogged.contains code
  let r : EvRec := { seq := (m.ev.seq + 1) % 2 ^ 32, code, tc1, promoted := false, logged, time, data, sent := 0, lastSent := 0 }
  let before := m.ev.cf0.lost :: m.ev.slots.map Consumer.lost
  let toCf0 := bit (m.g K.EV_CAN_MASK) (if tc1 then 1 else 0)
  let cf0 := if toCf0 then (if tc1 then m.ev.cf0 else m.ev.cf0.promote r).push r else m.ev.cf0
  let drop := logged && m.ev.logFull code
  let lq := if logged && !drop then m.ev.logQueue ++ [r] else m.ev.logQueue
  let m := { m with ev := { m.ev with seq := r.seq, cf0, logQueue := lq } }
  let m := if drop then m.count K.EV_LOG_DROPPED else m
  let m := upto 4 m (fun m i => m.pushSlot i r)
  let m := m.sendEmcy
  let after := m.ev.cf0.lost :: m.ev.slots.map Consumer.lost
  (m, (List.range 5).filter (fun i => before.getD i 0 ≠ after.getD i 0), drop)

/-- Record an event of a moment with what follows from full queues: event 0x2F87 for each consumer that lost a record, and event
0x300A for dropped log records at most once a second (R335, R388). -/
def Mach.raiseAt (m : Mach) (code : Nat) (data : List Nat) (time : Nat) : Mach :=
  let (m, lost, drop) := m.record code data time
  let m := lost.foldl (fun m c =>
    let n := if c = 0 then m.ev.cf0.lost else (m.ev.slots.getD (c - 1) {}).lost
    (m.record 0x2F87 [c, n] m.time).1) m
  let second := m.time / 1000000
  if drop && m.flash.logDropAt != some second then
    ({ m with flash := { m.flash with logDropAt := some second } }.record 0x300A [m.g K.EV_LOG_DROPPED] m.time).1
  else m

/-- Raise an event. One the supervisor raises is kept back until it reads READY: after a restart (R346), and after a boot,
whose first record is 0x2001 (R389; DEDUCED, log entry 231). -/
def Mach.raise (m : Mach) (code : Nat) (data : List Nat := []) : Mach :=
  if m.sup != .ready && m.sup != .recovery && isSupervisorEvent code then
    { m with dev := { m.dev with deferred := m.dev.deferred ++ [(code, data, m.time)] } }
  else m.raiseAt code data m.time

/-- Raise an event when a condition holds. -/
def Mach.raiseIf (m : Mach) (b : Bool) (code : Nat) (data : List Nat := []) : Mach := if b then m.raise code data else m

/-- Event of a head port (R99, R125): its block base plus the offset. -/
def Mach.raiseHp (m : Mach) (h off : Nat) (data : List Nat := []) : Mach := m.raise (0x2500 + 0x80 * h + off) data

/-- Event of a thermal station (R125): its block base plus the offset. -/
def Mach.raiseTh (m : Mach) (st off : Nat) (data : List Nat := []) : Mach := m.raise (0x2700 + 0x20 * st + off) data

/-! ### Readiness, R352 -/

/-- The readiness a function reads. -/
def Mach.ready (m : Mach) (sub : Nat) : Nat := m.g (K.DEV_READINESS (sub - 1))

/-- Whether a function reads READY or DEGRADED. -/
def Mach.isUp (m : Mach) (sub : Nat) : Bool := m.ready sub == vReady || m.ready sub == vDegraded

/-- Set a function's readiness; a change raises event 0x2002 (R352). -/
def Mach.setReady (m : Mach) (sub v : Nat) : Mach :=
  let old := m.ready sub
  if old = v then m else (m.put (K.DEV_READINESS (sub - 1)) v).raise 0x2002 [sub, old, v]

/-! ### Replies, R319, R326 -/

/-- Answer an access. -/
def Mach.reply (m : Mach) (st : Status) (data : List Byte := []) : Mach := m.emit (.reply st data)

/-- Whether the dictionary is reachable: not while held in reset, booting, restarting or swapping. -/
def Mach.dictUp (m : Mach) : Bool := m.sup == .ready || m.sup == .recovery

/-- A write that a chapter judges itself: the machine afterwards with the status. -/
abbrev WriteResult := Mach × Status

/-- A refused write: no effect. -/
def refuse (m : Mach) (st : Status) : WriteResult := (m, st)

/-- An accepted write. -/
def accept (m : Mach) : WriteResult := (m, .ok)

/-! ### Running a meaning -/

/-- Whether an address lies in an item's image or in its verification window list (R17, R29, R294). -/
def Item.inputAt (it : Item) (a : Nat) : Bool :=
  let base := fld it.record 0x10 5
  let width := fld it.record 8 2
  let line := match fld it.record 6 1 with | 0 => 2 * width | 1 => width | _ => (width + 7) / 8
  let list := fld it.record 0x30 5
  decide (base ≤ a ∧ a < base + fld it.record 0x18 4 * (fld it.record 0xC 4 - 1) + line)
    || decide (list ≤ a ∧ a < list + 16 * fld it.record 0x25 1)

/-- Mark the items RENDERING whose inputs the stores change (R17). -/
def Mach.markTouched (m : Mach) : List Item :=
  if m.stores = [] then m.items
  else m.items.map (fun it =>
    if it.state = .rendering && m.stores.any (fun w => it.inputAt w.1) then { it with touched := true } else it)

/-- Apply the stores of a command to memory and clear them: one write port for every unit. Words replaced in full lose
their error (R12). -/
def State.settle (s : State) (m : Mach) : State :=
  { s with mem := s.mem.write m.stores,
           m := { m with stores := [], items := m.markTouched, badWords := m.badWords.filter (fun w => !(wholeWords m.stores).contains w) } }

/-- Run a meaning: the outputs start empty, and its stores reach memory when it ends. -/
def State.run (s : State) (f : Mem → Mach → Mach) : State := s.settle (f s.mem { s.m with out := [] })

/-- The outcome of a meaning that always has an effect. -/
def done (s : State) (f : Mem → Mach → Mach) : Host.Outcome State Fault Refusal := .next (s.run f)

end Sys2Proof.Machine
end

