-- ==== Sys2Proof/Machine/Reserved.lean ====
section
/-! DEFINITION. The reserved fields of what a host writes (R6): which bits of an object, a record or a table are reserved. A
non-zero reserved field leaves undefined what its object, record or frame governs (R443, R445): the value taken is free. -/

namespace Sys2Proof.Machine

open Sys2Proof

/-- The bits [hi:lo] of the field at a byte offset. -/
def bitsAt (off hi lo : Nat) : Nat := (2 ^ (hi + 1) - 2 ^ lo) * 256 ^ off

/-- All bits of the bytes at offsets a to b. -/
def bytesAt (a b : Nat) : Nat := 256 ^ (b + 1) - 256 ^ a

/-- A mask of w bytes, n times. -/
def maskRep (n w x : Nat) : Nat := x * ((256 ^ (n * w) - 1) / (256 ^ w - 1))

/-- The reserved bits of a screen record, whose cell says where its thresholds end (R181). -/
def screenReserved (v : Nat) : Nat :=
  let w := fld v 0 1
  let h := fld v 1 1
  let n := w * h
  bytesAt 3 3 + bytesAt 6 0xF + maskRep 15 1 0x80 * 256 ^ 0x11 + bytesAt 0x20 0x3F
    + (if w = 0 ∨ 64 < w ∨ h = 0 ∨ 64 < h then 0
       else maskRep n 2 0xF800 * 256 ^ 0x40 + (if n < 4096 then bytesAt (0x40 + 2 * n) 0x203F else 0))

/-- The reserved bits of a model record (R81). -/
def modelReserved : Nat := bitsAt 1 7 4 + bytesAt 2 3 + bytesAt 0x38 0x3B + bytesAt 0x70 0x7F

/-- The reserved bits of a context record (R281). -/
def contextReserved : Nat :=
  bitsAt 1 7 5 + bitsAt 2 7 3 + bitsAt 3 7 5 + bytesAt 0x1D 0x1F + bytesAt 0x29 0x2B + bytesAt 0x35 0x35 + bitsAt 0x3C 7 4
    + bytesAt 0x3D 0x3F + bytesAt 0x5D 0x5F + bytesAt 0x62 0x7F

/-- The reserved bits of a calibration record (R141). -/
def calReserved : Nat := bytesAt 6 7 + bytesAt 0x29 0x2F + bytesAt 0x58 0xFB

/-- The reserved bits of a protected configuration record (R382). -/
def protReserved : Nat := bitsAt 6 7 1 + bytesAt 7 7 + bitsAt 0x1B 7 1 + bytesAt 0x20 0xFB

/-- The reserved bits of an item record (R30): PASSES, PRE_FEED, POST_FEED, SPEED and END_ACTION too where it names SL. -/
def recordReserved (sl : Bool) : Nat :=
  bitsAt 3 7 2 + bitsAt 4 7 4 + bitsAt 5 7 4 + bytesAt 0x15 0x17 + bytesAt 0x26 0x27 + bytesAt 0x35 0x37 + bytesAt 0x3D 0x3F
    + bytesAt 0x44 0x7F + (if sl then bitsAt 7 7 4 + bytesAt 0x1C 0x21 + bytesAt 0x24 0x24 else 0)

/-- The reserved bits of an axis entry (R226, R252): MICROSTEPS too but for kind 1. -/
def entryReserved (kind : Nat) : Nat :=
  bitsAt 1 7 5 + (if kind = 1 then 0 else bytesAt 3 3) + bytesAt 0xD 0xF + bytesAt 0x54 0x7F + bitsAt 0x86 7 2 + bitsAt 0x87 7 2
    + bytesAt 0x97 0x97 + bytesAt 0x9E 0x9F + bitsAt 0xA5 7 2 + bitsAt 0xD0 7 1 + bytesAt 0xD1 0xD1 + bytesAt 0xDA 0xDF

/-- The reserved bits of a verification window entry (R294). -/
def windowReserved : Nat := bitsAt 0xC 7 2 + bytesAt 0xE 0xF

/-- The reserved bits of an image header (R363). -/
def headerReserved : Nat := bitsAt 6 7 3 + bytesAt 7 7 + bitsAt 0x10 31 24 + bytesAt 0x1C 0x3F + bytesAt 0xE0 0xFF

/-- The reserved bits of a value written to an object, as its card or its record's table has them (R6). Bytes of a dot map beyond
HP_DOTS are ignored, their reserved bits with them (R132). -/
def Mach.reservedBits (m : Mach) (k v : Nat) : Nat :=
  let i := k / 256
  if 0x2500 ≤ i ∧ i < 0x2700 then
    let h := (i - 0x2500) / 0x80
    if k = K.HP_POLARITY h then bitsAt 0 7 3
    else if k = K.HP_SCAN_ENABLE h then bitsAt 0 7 2
    else if k = K.HP_DOT_MAP h then maskRep (m.h (K.HP_DOTS h)) 1 0xC0
    else if i = K.HP_MODEL_CLASS h 0 / 256 then modelReserved
    else 0
  else if k = K.TH_CAL_STAGE then calReserved
  else if i = 0x2805 then screenReserved v
  else if i = 0x2815 ∧ k % 256 ≤ 16 then maskRep 4 4 0xFFFC0000
  else if i = 0x2820 then bytesAt 2 3 + bytesAt 0xE 0x1F
  else if i = 0x2A20 then bitsAt 0 15 8
  else if 0x2C00 ≤ i ∧ i < 0x2C08 ∧ k % 256 = 9 then maskRep 64 8 0xF880
  else if 0x2C90 ≤ i ∧ i < 0x2C98 ∧ k % 256 = 1 then contextReserved
  else if k = K.AN_SEQ_TABLE then maskRep 128 8 (0xFF * 256 ^ 3)
  else if i = 0x2E01 then bitsAt 0 15 8
  else if i = 0x2E20 then bitsAt 0 7 6
  else if i = 0x2211 then bitsAt 0 15 5
  else if k = K.NV_PROT_STAGE then protReserved
  else if k = K.EV_LOG_MASK then bitsAt 0 7 2
  else 0

/-- A free value of a type, as long as a value in hand (log entry 3). -/
def Mach.freeLike (m : Mach) (t : ObjTy) (v : Nat) : Nat × Mach :=
  match t with
  | .domVar _ => let (x, m) := m.freeBelow (256 ^ domVarLen v); (x + 256 ^ domVarLen v, m)
  | t => m.freeBelow (256 ^ t.size.getD 0)

/-- The value an accepted write gives its object: as written where its reserved fields are 0; with a non-zero reserved field what
the object governs is undefined, so the value taken is free, its reserved fields reading 0 (R6, R445). -/
def Mach.taken (m : Mach) (k : Nat) (t : ObjTy) (v : Nat) : Nat × Mach :=
  if v &&& m.reservedBits k v = 0 then (v, m)
  else
    let (x, m') := m.freeLike t v
    (x - (x &&& m.reservedBits k x), m')

/-- A record of n bytes as it is taken: as it stands where its reserved fields are 0, else free (R6, R445). -/
def Mach.takenRecord (m : Mach) (mask n v : Nat) : Nat × Mach :=
  if v &&& mask = 0 then (v, m)
  else
    let (x, m') := m.freeBelow (256 ^ n)
    (x - (x &&& mask), m')

end Sys2Proof.Machine
end

