-- ==== Sys2Proof/Machine/AccessCore.lean ====
section
/-! DEFINITION. The outcome of every object access (R4, R7, R319): which objects exist on the variant in hand, the
judgement of a write, and the answers while the dictionary is not reachable (R346, R350). -/

namespace Sys2Proof.Machine

open Sys2Proof

/-- State encoding of R33. -/
def Item.stateCode (it : Item) : Nat :=
  match it.state with
  | .defined => 1 | .rendering => 2 | .committed => 3 | .admitted => 4 | .printing => 5 | .done => 6 | .spoiled => 7
  | .cancelled => 8

/-- The card row of a key. -/
def objRow (k : Nat) : Option ObjRow := (ObjTable.rowsOf (k / 65536)).find? (fun r => (r.place k).isSome)

/-- Whether an index has any card row. -/
def indexExists (idx : Nat) : Bool :=
  (ObjTable.rowsOf (idx / 256)).any (fun r =>
    let b := r.base / 256
    if r.n1 = 1 then decide (b ≤ idx ∧ idx ≤ (r.base + (r.n2 - 1) * r.s2) / 256)
    else decide (b ≤ idx) && decide ((idx - b) * 256 % r.s1 = 0 ∧ (idx - b) * 256 / r.s1 < r.n1)
      || decide (r.s2 = 256 ∧ b ≤ idx ∧ (idx - b) % (r.s1 / 256) < r.n2 ∧ (idx - b) / (r.s1 / 256) < r.n1))

/-- Whether a whole index belongs to a unit that is absent on the variant (R3, R4). -/
def Mach.indexAbsent (m : Mach) (i : Nat) : Bool :=
  let hp := m.nHeads
  (0x2410 ≤ i && i ≤ 0x2413 && decide (m.nClusters ≤ i - 0x2410))
    || (0x2500 ≤ i && i ≤ 0x26FF && decide (hp ≤ (i - 0x2500) / 0x80))
    || (0x2700 ≤ i && i ≤ 0x277F && decide (m.nStations ≤ (i - 0x2700) / 0x20))
    || (0x2800 ≤ i && i ≤ 0x29FF && !m.hasSL)
    || (0x2A40 ≤ i && i ≤ 0x2A67 && decide (m.nAxes ≤ i - 0x2A40))
    || (0x2B00 ≤ i && i ≤ 0x2B63 && decide (m.nPortsAll ≤ i - 0x2B00))
    || (0x2C00 ≤ i && i ≤ 0x2C07 && decide (m.nCameras ≤ i - 0x2C00))
    || (0x2C80 ≤ i && i ≤ 0x2C83 && decide (m.nPipes ≤ i - 0x2C80))
    || (0x2C90 ≤ i && i ≤ 0x2C97 && decide (m.nPipes ≤ (i - 0x2C90) / 2))
    || (0x2D10 ≤ i && i ≤ 0x2D13 && decide (hp ≤ i - 0x2D10))

/-- Readiness sub-indices that exist (R352). -/
def Mach.readinessExists (m : Mach) (sub : Nat) : Bool :=
  sub = 1 || sub = 2 || sub = 3 || (8 ≤ sub && decide (sub < 8 + m.nClusters))
    || (0x10 ≤ sub && decide (sub < 0x10 + m.nHeads)) || (0x14 ≤ sub && decide (sub < 0x14 + m.nStations))
    || (sub = 0x18 && m.hasSL) || (0x20 ≤ sub && decide (sub < 0x20 + m.nCameras))
    || (0x28 ≤ sub && decide (sub < 0x28 + m.nPipes)) || (0x30 ≤ sub && sub ≤ 0x3B)
    || (0x40 ≤ sub && decide (sub < 0x40 + m.nAxes))

/-- Whether a single sub-index of a present object belongs to an absent element (R4). -/
def Mach.subAbsent (m : Mach) (k : Nat) : Bool :=
  let i := k / 256
  let sub := k % 256
  if i = 0x2010 then !(m.readinessExists sub)
  else if i = 0x2D00 then (sub = 1 || sub = 2) && !m.hasSL
  else if i = 0x2305 then decide (m.nStations < sub ∧ sub ≤ 4) || (sub = 5 && !m.hasSL)
  else if 0x2440 ≤ i ∧ i ≤ 0x2442 then
    sub ≠ 0 && (decide (m.nClusters ≤ (sub - 1) / 17) || ((sub - 1) % 17 = 16 && !m.hasSpares))
  else if 0x2410 ≤ i ∧ i ≤ 0x2413 then sub = 8 && !m.hasSpares
  else false

/-- Whether a sub-index exists, and the status of an access to one that does not (R4, R351). -/
def Mach.objStatus (m : Mach) (k : Nat) : Status :=
  let i := k / 256
  let area := i / 256
  let recovery := m.sup == .recovery && !([0x20, 0x21, 0x30, 0x31].contains area)
  if recovery || m.indexAbsent i || !(indexExists i) then .noObject
  else if (objRow k).isNone || m.subAbsent k then .noSub
  else .ok

/-- The urgent objects of R321, executed without the supervisor. -/
def urgentKey (k : Nat) : Bool :=
  (0x2A40 ≤ k / 256 && k / 256 ≤ 0x2A67 && k % 256 = 0x0D) || (k / 256 = 0x2305 && 1 ≤ k % 256 && k % 256 ≤ 5)
    || k = K.NET_STOP_ALL

/-- How an access stands before its object is looked at: no answer at all before boot step 6 (R350), UNAVAILABLE while the
supervisor restarts or swaps, but for urgent writes (R346). -/
inductive Reach where
  | silent | unavailable | open_
  deriving DecidableEq, Repr

/-- Whether the dictionary answers a write (urgent or not). -/
def Mach.reach (m : Mach) (urgent : Bool) : Reach :=
  match m.sup with
  | .reset => .silent
  | .booting => .silent
  | .ready => .open_
  | .recovery => .open_
  | .restarting => if urgent then .open_ else .unavailable
  | .swapping => if urgent then .open_ else .unavailable

/-- Judge a write of bytes to a sub-index and, if it stands, give it to its effect with the value taken (R319, R6). -/
def Mach.judgeWrite (m : Mach) (k : Nat) (bs : List Byte) (eff : Nat → Mach → WriteResult) : WriteResult :=
  match m.reach (urgentKey k) with
  | .silent => (m, .unavailable)
  | .unavailable => (m, .unavailable)
  | .open_ =>
    match m.objStatus k with
    | .ok =>
      match objRow k with
      | none => (m, .noSub)
      | some r =>
        match r.judge bs with
        | .ok => let p := m.taken k r.ty (r.ty.encode bs); eff p.1 p.2
        | st => (m, st)
    | st => (m, st)

/-- The four data bytes of a write's answer (R332): for IT_CANCEL, IT_RELEASE and IT_RETIRE the item's state and reason as
they stand at the acknowledgement, 0 for an ID not in the table; 0 otherwise. -/
def Mach.writeAnswer (m : Mach) (k : Nat) (bs : List Byte) : List Byte :=
  if k = K.IT_CANCEL ∨ k = K.IT_RELEASE ∨ k = K.IT_RETIRE then
    match m.item? (ofLe bs) with
    | some it => leBytes 4 (it.stateCode + 256 * it.reason)
    | none => leBytes 4 0
  else leBytes 4 0

/-- Whether a write is answered after the events it raises: a bank swap, whose event 0x3023 comes first (R365). -/
def answersLate (k : Nat) (bs : List Byte) : Bool := k == K.NV_BANK_CTRL && bs == [2#8]

/-- A write made as a command of its own: judged, done, answered; before boot step 6 nothing happens. -/
def Mach.hostWrite (m : Mach) (k : Nat) (bs : List Byte) (eff : Nat → Mach → WriteResult) : Mach :=
  if m.reach (urgentKey k) = .silent then m
  else
    let (m', st) := m.judgeWrite k bs eff
    let r := Out.reply st (m'.writeAnswer k bs)
    let evs := m'.out.drop m.out.length
    { m' with out := m.out ++ (if answersLate k bs then evs ++ [r] else r :: evs) }

/-- Judge a read (R319): a WO sub-index reads 0 (R7); view gives the value, eff what the read does besides. -/
def Mach.judgeRead (m : Mach) (k : Nat) (view : Mach → Nat) (eff : Mach → Mach) : Mach × Status × List Byte :=
  match m.reach false with
  | .silent => (m, .unavailable, [])
  | .unavailable => (m, .unavailable, [])
  | .open_ =>
    match m.objStatus k with
    | .ok =>
      match objRow k with
      | none => (m, .noSub, [])
      | some r => if r.acc = .wo then (m, .ok, r.ty.decode 0) else (eff m, .ok, r.ty.decode (view m))
    | st => (m, st, [])

/-- A read made as a command of its own. -/
def Mach.hostRead (m : Mach) (k : Nat) (view : Mach → Nat) (eff : Mach → Mach) : Mach :=
  if m.reach false = .silent then m
  else
    let (m', st, bs) := m.judgeRead k view eff
    { m' with out := m.out ++ [.reply st bs] ++ m'.out.drop m.out.length }

/-- The plain effect of a write: the value is stored; a WO sub-index keeps nothing, since a read of it returns 0 (R7). -/
def storeEffect (k : Nat) (v : Nat) (m : Mach) : WriteResult :=
  match objRow k with
  | some r => if r.acc = .wo then (m, .ok) else (m.put k v, .ok)
  | none => (m.put k v, .ok)

/-- The effect of a trigger sub-index: a written 1 acts, a written 0 does nothing. -/
def onOne (f : Mach → Mach) (v : Nat) (m : Mach) : WriteResult := if v = 1 then (f m, .ok) else (m, .ok)

/-- Wrong state (R319). -/
def refuseState (m : Mach) : WriteResult := (m, .state)
/-- Wrong value by a check of the chapter (R319). -/
def refuseRange (m : Mach) : WriteResult := (m, .range)

end Sys2Proof.Machine
end

