-- ==== Sys2Proof/Machine/Analogue.lean ====
section
/-! DEFINITION. The analogue subsystem (R299-R317): the sequence table, dispatch of conversions to slices, discards,
results, accumulators, trackers, calibration and slice failure. Times are slots of 62.5 ns: 16 to a device µs. -/

namespace Sys2Proof.Machine

open Sys2Proof

/-! ### Channels and the table -/

/-- Field access to a table entry (R307). -/
def anEnabled (t e : Nat) : Bool := bit (fld t (8 * e) 1) 7
def anChannel (t e : Nat) : Nat := fld t (8 * e) 1 % 128
def anAcc (t e : Nat) : Nat := fld t (8 * e + 1) 1
def anMm (t e : Nat) : Nat := fld t (8 * e + 2) 1
def anPeriod (t e : Nat) : Nat := max 1 (fld t (8 * e + 4) 2)
def anPhase (t e : Nat) : Nat := fld t (8 * e + 6) 2

/-- Whether a table is accepted (R307). -/
def anTableOk (t : Nat) : Bool :=
  (List.range 128).all (fun e => decide (anChannel t e ≤ 87) && (decide (anAcc t e < 128) || anAcc t e == 255)
    && (decide (anMm t e < 128) || anMm t e == 255))

/-- Channel settings; CS channels are fixed (R306). -/
def Mach.anHighZ (m : Mach) (c : Nat) : Bool := decide (c < 64) && bit (m.g (K.AN_CH_CFG c)) 0
def Mach.anAcq (m : Mach) (c : Nat) : Nat := if c < 64 then max 2 (bits (m.g (K.AN_CH_CFG c)) 7 3) else 2

/-- The accumulator a consumer of a channel reads: that of the lowest enabled entry that converts it and names one (R313). -/
def Mach.accOfChannel (m : Mach) (c : Nat) : Option Nat :=
  ((List.range 128).find? (fun e => anEnabled m.an.table e && anChannel m.an.table e == c && anAcc m.an.table e != 255)).map
    (anAcc m.an.table)

/-- A channel's accumulator result: code, over-range flag, time (µs); none without an accumulator or a valid result. -/
def Mach.ainResult (m : Mach) (c : Nat) : Option (Nat × Bool × Nat) :=
  match m.accOfChannel c with
  | none => none
  | some a =>
    let f := m.g (K.AN_ACC_FLAGS a)
    if bit f 1 then some (m.g (K.AN_ACC_RESULT a), bit f 0, m.g (K.AN_ACC_TIME a)) else none

/-! ### Slices -/

def Mach.slice (m : Mach) (s : Nat) : Slice := m.an.slices.getD s {}
def Mach.modSlice (m : Mach) (s : Nat) (f : Slice → Slice) : Mach :=
  { m with an := { m.an with slices := m.an.slices.modify s f } }
/-- Roles of R316: 0 in service, 1 calibrating, 2 failed. -/
def Mach.sliceRole (m : Mach) (s : Nat) : Nat := m.g (K.AN_SL_ROLE s)
def Mach.inService (m : Mach) : List Nat := (List.range 5).filter (fun s => m.sliceRole s == 0)
def Mach.workingSlices (m : Mach) : Nat := ((List.range 5).filter (fun s => m.sliceRole s != 2)).length

/-- AN_STATE and readiness follow the number of working slices (R305); a change raises event 0x2E04. -/
def Mach.setAnState (m : Mach) : Mach :=
  let n := m.workingSlices
  let v := if !m.an.working then vStarting else if n = 5 then vReady else if n = 4 then vDegraded else vFault
  let old := m.ready rdyAnalogue
  if old = v then m else (m.setReady rdyAnalogue v).raise 0x2E04 [old, v]

/-- Reset an accumulator (R312). -/
def Mach.accReset (m : Mach) (a : Nat) : Mach :=
  { m.puts [(K.AN_ACC_RESULT a, 0), (K.AN_ACC_FLAGS a, 0)] with an := { m.an with accs := m.an.accs.set a {} } }

/-- Reset a tracker (R314). -/
def Mach.mmReset (m : Mach) (a : Nat) : Mach :=
  m.puts [(K.AN_MM_MIN a, 4095), (K.AN_MM_MAX a, 0), (K.AN_MM_COUNT a, 0), (K.AN_MM_FLAGS a, 0)]

/-- A slice fails (R304, R305): role FAILED, rotation stops, the calibrated anise slice replaces a slice in service,
what it fed since its last passed check is reset, event 0x2E01. -/
def Mach.sliceFail (m : Mach) (s check : Nat) : Mach :=
  if m.sliceRole s = 2 then m
  else
    let wasServing := m.sliceRole s == 0
    let sl := m.slice s
    let m := m.puts [(K.AN_SL_ROLE s, 2), (K.AN_SL_FAIL s, check)]
    let m := match sl.conv with
      | some { kind := .entry e, due := d, .. } =>
        { m with an := { m.an with waiting := { due := d, entry := e } :: m.an.waiting } }
      | some { kind := .current a, chan := c, due := d, .. } =>
        { m with an := { m.an with urgent := { req := d, kind := .current a, chan := c, last := none } :: m.an.urgent } }
      | some { kind := .scan h w, chan := c, due := d, .. } =>
        { m with an := { m.an with urgent := { req := d, kind := .scan h w, chan := c, last := none } :: m.an.urgent } }
      | _ => m
    let m := m.modSlice s (fun _ => {})
    let m := sl.fedAcc.foldl Mach.accReset m
    let m := sl.fedMm.foldl Mach.mmReset m
    let m := if wasServing then
        match (List.range 5).find? (fun x => m.sliceRole x == 1) with
        | some x => (m.put (K.AN_SL_ROLE x) 0).modSlice x (fun c => { c with since := m.time, conv := none })
        | none => m
      else m
    let m := { m with an := { m.an with rotate := false, rotDue := false } }
    (m.raise 0x2E01 [s, check]).setAnState

/-! ### The calibration loop of a slice, R302-R304 -/

/-- One update of a bounded loop (R24, R25): the value kept within bounds, its status, its consecutive pinned count. A
frozen loop keeps its value. -/
def loopUpdate (lo hi : Int) (freeze status pinned : Nat) (old v : Int) : Int × Nat × Nat :=
  if status = 3 then (old, 3, pinned)
  else if v < lo then
    let p := pinned + 1
    (lo, if freeze ≠ 0 ∧ freeze ≤ p then 3 else 1, p)
  else if hi < v then
    let p := pinned + 1
    (hi, if freeze ≠ 0 ∧ freeze ≤ p then 3 else 2, p)
  else (v, 0, 0)

/-- Take a slice's measured offset (1/16 code) and gain error (ppm): the check of R304, else an update of its loop. A frozen slice keeps
both values. -/
def Mach.sliceCalibrate (m : Mach) (s : Nat) (ofs gain : Int) : Mach :=
  if ofs < -1024 ∨ 1024 < ofs ∨ gain < -20000 ∨ 20000 < gain then m.sliceFail s 1
  else
    let sl := m.slice s
    let fr := m.g (K.AN_SL_FREEZE_COUNT s)
    let old := m.g (K.AN_SL_CAL_STATUS s)
    if old = 3 then m.modSlice s (fun x => { x with calibrated := true }) else
    let (o, os, op) := loopUpdate (m.gi 16 (K.AN_SL_OFS_MIN s)) (m.gi 16 (K.AN_SL_OFS_MAX s)) fr sl.ofsStatus sl.ofsPinned
      (m.gi 16 (K.AN_SL_OFS s)) ofs
    let (g, gs, gp) := loopUpdate (m.gi 32 (K.AN_SL_GAIN_MIN s)) (m.gi 32 (K.AN_SL_GAIN_MAX s)) fr sl.gainStatus sl.gainPinned
      (m.gi 32 (K.AN_SL_GAIN s)) gain
    let new := max os gs
    let m := (m.puti 16 (K.AN_SL_OFS s) o).puti 32 (K.AN_SL_GAIN s) g
    let m := m.modSlice s (fun x => { x with ofsStatus := os, gainStatus := gs, ofsPinned := op, gainPinned := gp,
                                             calibrated := true })
    let m := m.put (K.AN_SL_CAL_STATUS s) new
    let m := m.raiseIf ((new = 1 || new = 2) && new ≠ old) 0x2E02 [s]
    m.raiseIf (new = 3) 0x2E03 [s]

/-- Resume a frozen slice calibration; another goes on as it is (R25, R303). -/
def Mach.sliceResume (m : Mach) (s : Nat) : Mach :=
  if m.g (K.AN_SL_CAL_STATUS s) = 3 then
    (m.put (K.AN_SL_CAL_STATUS s) 0).modSlice s (fun x =>
      { x with ofsStatus := 0, gainStatus := 0, ofsPinned := 0, gainPinned := 0 })
  else m

/-! ### Results, R300, R301 -/

/-- The exact value of a raw result, in codes. -/
def Mach.anValue (m : Mach) (s raw : Nat) : Rat :=
  ((raw : Rat) / 4 - (m.gi 16 (K.AN_SL_OFS s) : Rat) / 16) * (1 + (m.gi 32 (K.AN_SL_GAIN s) : Rat) / 1000000) * m.an.kT

/-- Code and over-range flag of a value. -/
def anCode (v : Rat) : Nat × Bool :=
  ((clampI 0 4095 (roundRat v)).toNat, decide (v < -1 / 2 ∨ 4095 + 1 / 2 ≤ v))

/-- Count in a DOMAIN of 88 UNSIGNED32 counters. -/
def Mach.countChan (m : Mach) (k c : Nat) : Mach :=
  let v := m.g k
  m.put k (setFld v (4 * c) 4 ((fld v (4 * c) 4 + 1) % 2 ^ 32))

/-- Feed a kept conversion to an accumulator (R312). -/
def Mach.accFeed (m : Mach) (a code : Nat) (flag : Bool) : Mach :=
  let f := m.g (K.AN_ACC_FILTER a)
  let mode := f % 4
  let k := min 8 (f / 4 % 16)
  let c := m.an.accs.getD a {}
  let publish (m : Mach) (v : Nat) (fl : Bool) : Mach :=
    m.puts [(K.AN_ACC_RESULT a, v), (K.AN_ACC_FLAGS a, 2 + b2n fl), (K.AN_ACC_TIME a, m.time)]
  let set (m : Mach) (c : AccRt) : Mach := { m with an := { m.an with accs := m.an.accs.set a c } }
  if mode = 1 then
    let n := c.n + 1
    let sum := c.sum + code
    let fl := c.flagged || flag
    if n = 2 ^ k then publish (set m {}) (roundDiv sum n) fl else set m { c with n, sum, flagged := fl }
  else if mode = 2 then
    let y : Rat := match c.y with
      | none => code
      | some y => y + ((code : Rat) - y) / ((2 ^ k : Nat) : Rat)
    let clean := if flag then 0 else c.clean + 1
    publish (set m { c with y := some y, clean }) (clampI 0 4095 (roundRat y)).toNat (decide (clean < 2 ^ k))
  else publish m code flag

/-- Feed a kept conversion to a tracker (R314). -/
def Mach.mmFeed (m : Mach) (a code : Nat) (flag : Bool) : Mach :=
  m.puts [(K.AN_MM_MIN a, min (m.g (K.AN_MM_MIN a)) code), (K.AN_MM_MAX a, max (m.g (K.AN_MM_MAX a)) code),
          (K.AN_MM_COUNT a, (m.g (K.AN_MM_COUNT a) + 1) % 2 ^ 32),
          (K.AN_MM_FLAGS a, m.g (K.AN_MM_FLAGS a) ||| b2n flag)]

/-! ### Dispatch, R299, R309, R310, R315 -/

/-- Ordering of urgent conversions: request time, current samples before scans, lower channel (R309). -/
def urgentBefore (a b : AnUrgent) : Bool :=
  let r (x : AnUrgent) : Nat := match x.kind with | .current _ => 0 | _ => 1
  decide (a.req < b.req) || (a.req == b.req && (decide (r a < r b) || (r a == r b && decide (a.chan < b.chan))))

/-- Insert by an ordering, after what is not behind it. -/
def insertBy {α : Type} (before : α → α → Bool) (x : α) : List α → List α
  | [] => [x]
  | y :: l => if before x y then x :: y :: l else y :: insertBy before x l

/-- The next conversion of a channel starts: one discard that a gain change left owing is used (R310). -/
def Mach.gainUsed (m : Mach) (chan : Nat) : Mach :=
  { m with an := { m.an with gainDiscard :=
    (m.an.gainDiscard.map (fun (p : Nat × Nat) => if p.1 = chan then (p.1, p.2 - 1) else p)).filter (fun p => decide (0 < p.2)) } }

/-- Whether the result of the next conversion on a slice is discarded: after a flagged one, whatever it converts; of a high-impedance
channel after another channel; within two of a gain change (R310, R311). The last part is the machine with these used. -/
def Mach.discardFirst (m : Mach) (s chan : Nat) (check settled : Bool) : Bool × Mach :=
  let sl := m.slice s
  let m := m.modSlice s (fun x => { x with recover := false })
  if check then (sl.recover, m)
  else (sl.recover || (!settled && m.anHighZ chan && sl.prev != some chan) || m.an.gainDiscard.any (fun p => p.1 == chan), m.gainUsed chan)

/-- Start a conversion on a slice at a slot. The check converts an internal reference with the shortest acquisition. -/
def Mach.startConv (m : Mach) (s slot chan : Nat) (kind : ConvKind) (due : Nat) (settled : Bool := false) : Mach :=
  let check := kind == .check
  let (disc, m) := m.discardFirst s chan check settled
  let acq := if check then 2 else m.anAcq chan
  m.modSlice s (fun x => { x with conv := some { chan, kind, start := slot, endSlot := slot + acq + 2, due, discard := disc, settled } })

/-- Slices in service without a conversion, lowest first. -/
def Mach.freeSlices (m : Mach) : List Nat := m.inService.filter (fun s => (m.slice s).conv.isNone)

/-- Start urgent conversions on free slices; those whose last start slot has passed are dropped as skipped (R309). -/
def Mach.startUrgent (m : Mach) (slot : Nat) : Mach :=
  let m := { m with an := { m.an with urgent := m.an.urgent.filter (fun u => match u.last with
    | some l => decide (slot ≤ l) | none => true) } }
  m.freeSlices.foldl (fun m s =>
    match m.an.urgent with
    | [] => m
    | u :: us => ({ m with an := { m.an with urgent := us } }).startConv s slot u.chan u.kind u.req) m

/-- The most recently started ordinary conversion or check of a slice in service. -/
def Mach.latestOrdinary (m : Mach) : Option Nat :=
  let c := m.inService.filterMap (fun s => match (m.slice s).conv with
    | some x => (match x.kind with
      | .entry _ => some (x.start, s)
      | .check => some (x.start, s)
      | .current _ => none
      | .scan _ _ => none)
    | none => none)
  (c.foldl (fun acc p => match acc with
    | none => some p
    | some q => if q.1 < p.1 then some p else acc) none).map Prod.snd

/-- Abort that conversion for a waiting urgent one: it returns to the head of the waiting order (R309). -/
def Mach.abortFor (m : Mach) (slot : Nat) : Mach :=
  match m.an.urgent, m.latestOrdinary with
  | u :: us, some s =>
    if u.req + 2 ≤ slot then
      let m := match (m.slice s).conv with
        | some { kind := .entry e, due := d, .. } => { m with an := { m.an with waiting := { due := d, entry := e } :: m.an.waiting } }
        | some { kind := .check, .. } => m.modSlice s (fun x => { x with checkDue := true })
        | _ => m
      let m := (m.count K.AN_ABORTS).modSlice s (fun x => { x with conv := none })
      ({ m with an := { m.an with urgent := us } }).startConv s slot u.chan u.kind u.req
    else m
  | _, _ => m

/-- Start the in-service checks of free slices. -/
def Mach.startChecks (m : Mach) (slot : Nat) : Mach :=
  m.freeSlices.foldl (fun m s =>
    if (m.slice s).checkDue then (m.modSlice s (fun x => { x with checkDue := false })).startConv s slot 0 .check slot else m) m

/-- A calibrated slice takes the place of the slice that has served longest, once that one is free (R302). -/
def Mach.rotateNow (m : Mach) : Mach :=
  if !m.an.rotDue then m
  else match (List.range 5).find? (fun x => m.sliceRole x == 1), m.inService.foldl (fun acc x => match acc with
      | none => some x
      | some y => if (m.slice x).since < (m.slice y).since then some x else acc) none with
    | some a, some o =>
      if (m.slice o).conv.isSome then m
      else
        let m := m.puts [(K.AN_SL_ROLE a, 0), (K.AN_SL_ROLE o, 1)]
        let m := m.modSlice a (fun x => { x with since := m.time, prev := none, recover := false })
        let m := m.modSlice o (fun x => { x with calSince := m.time, checkDue := false })
        { m.count K.AN_ROTATIONS with an := { m.an with rotDue := false } }
    | _, _ => m

/-- Start waiting conversions on free slices, lowest slice first. -/
def Mach.startWaiting (m : Mach) (slot : Nat) : Mach :=
  m.freeSlices.foldl (fun m s =>
    match m.an.waiting with
    | [] => m
    | w :: ws => ({ m with an := { m.an with waiting := ws } }).startConv s slot (anChannel m.an.table w.entry) (.entry w.entry) w.due) m

/-- Whether the converter is held powered (R315), leaving the scans and field-oriented axes to the caller. -/
def Mach.anShortPeriod (m : Mach) : Bool :=
  (List.range 128).any (fun e => anEnabled m.an.table e && decide (anPeriod m.an.table e ≤ 50))

/-- One slot boundary (R299): a rotation that waits, power-up of 2.0 µs (R315), urgent conversions with aborts, checks, then waiting
ones. -/
def Mach.slotBoundary (m : Mach) (slot : Nat) : Mach :=
  let m := m.rotateNow
  let wanted := m.an.urgent ≠ [] ∨ m.an.waiting ≠ []
  if m.an.powered = false ∧ m.an.powerUp = none ∧ wanted then
    { m.count K.AN_POWERUPS with an := { m.an with powerUp := some (slot + 32) } }
  else
    let ready := m.an.powered || (match m.an.powerUp with | some t => decide (t ≤ slot) | none => false)
    if !ready then m
    else
      let m := if m.an.powered then m else { m with an := { m.an with powered := true, powerUp := none } }
      let m := m.startUrgent slot
      let m := upto m.an.urgent.length m (fun m _ => m.abortFor slot)
      (m.startChecks slot).startWaiting slot

/-- Queue a due entry's conversion in due order, or count it late (R308). -/
def Mach.entryDue (m : Mach) (e : Nat) : Mach :=
  let busy := m.an.waiting.any (fun w => w.entry == e)
  let m := { m with an := { m.an with next := m.an.next.set e (m.an.next.getD e 0 + anPeriod m.an.table e) } }
  if busy then
    let m := m.count K.AN_SEQ_LATE
    let sec := m.time / 1000000
    if m.an.lateSecond = some sec then m
    else ({ m with an := { m.an with lateSecond := some sec } }).raise 0x2E05 [e]
  else
    let w : AnWait := { due := m.time * 16, entry := e }
    { m with an := { m.an with waiting := insertBy (fun a b => decide (a.due < b.due) || (a.due == b.due && decide (a.entry < b.entry))) w m.an.waiting } }

/-- What a completed, kept conversion delivers to the hardware consumers. -/
structure AnResult where
  chan : Nat
  code : Nat
  flag : Bool
  kind : ConvKind
  skipped : Bool

/-- Busy share of the slices in service over the last 10 ms, per cent (R308). -/
def Mach.anLoad (m : Mach) (slot : Nat) : Mach :=
  let b := m.an.busy.filter (fun (p : Nat × Nat) => decide (slot < p.1 + 160000))
  let n := m.inService.length
  let used := b.foldl (fun a p => a + p.2) 0
  let m := { m with an := { m.an with busy := b } }
  m.put K.AN_LOAD (if n = 0 then 0 else min 100 (used * 100 / (n * 160000)))

/-- A conversion ends on a slice with its 14-bit raw result (R300, R304, R310, R311): the result to deliver, if one is kept. -/
def Mach.convEnd (m : Mach) (s raw slot : Nat) : Mach × Option AnResult :=
  match (m.slice s).conv with
  | none => (m, none)
  | some c =>
    let (code, flag) := anCode (m.anValue s raw)
    let m := m.modSlice s (fun x => { x with conv := none })
    let m := { m with an := { m.an with lastEnd := slot, busy := m.an.busy ++ [(slot, slot - c.start)] } }
    match c.kind with
    | .check =>
      let m := m.modSlice s (fun x => { x with prev := none })
      if c.discard then (m.startConv s slot 0 .check c.due, none) else
      let d : Int := (code : Int) - 2048
      if (m.g K.AN_CHECK_TOL : Int) < d.natAbs then (m.sliceFail s 2, none)
      else (m.modSlice s (fun x => { x with fedAcc := [], fedMm := [] }), none)
    | _ =>
      let m := m.modSlice s (fun x => { x with prev := some c.chan, recover := flag || x.recover })
      let m := if flag then
          let m := m.countChan K.AN_OVR_COUNT c.chan
          let sec := m.time / 1000000
          if m.an.ovrSecond.contains (c.chan, sec) then m
          else ({ m with an := { m.an with ovrSecond := (m.an.ovrSecond.filter (fun (p : Nat × Nat) => decide (p.1 ≠ c.chan))) ++ [(c.chan, sec)] } }).raise 0x2E06 [c.chan]
        else m
      if c.discard then
        let m := m.countChan K.AN_DISCARDS c.chan
        match c.kind with
        | .current _ => (m, some { chan := c.chan, code, flag, kind := c.kind, skipped := true })
        | _ => (m.startConv s slot c.chan c.kind c.due true, none)
      else (m, some { chan := c.chan, code, flag, kind := c.kind, skipped := flag })

/-- Deliver a kept sequence conversion to its accumulator and tracker. -/
def Mach.deliverEntry (m : Mach) (s e code : Nat) (flag : Bool) : Mach :=
  let a := anAcc m.an.table e
  let t := anMm m.an.table e
  let m := if a < 128 then (m.accFeed a code flag).modSlice s (fun x => { x with fedAcc := (a :: x.fedAcc.filter (· ≠ a)) }) else m
  if t < 128 then (m.mmFeed t code flag).modSlice s (fun x => { x with fedMm := (t :: x.fedMm.filter (· ≠ t)) }) else m

/-- Put the staged table into force at the device tick after its acceptance (R307). -/
def Mach.anTick (m : Mach) : Mach :=
  match m.an.staged with
  | none => m
  | some (t, at_) =>
    if m.time < at_ then m
    else
      { m with an := { m.an with table := t, staged := none, waiting := [],
                                 next := (List.range 128).map (fun e => m.time + anPhase t e) } }

/-! ### Writes and reads of the AN_ area -/

/-- AN_SEQ_TABLE: checked, in force from the next 1 µs tick (R307). -/
def wAnSeqTable (v : Nat) (m : Mach) : WriteResult :=
  if !(anTableOk v) then refuseRange m
  else ({ m.put K.AN_SEQ_TABLE v with an := { m.an with staged := some (v, m.time + 1) } }, .ok)

/-- AN_CH_CFG: a gain change discards the channel's next two conversions (R310). -/
def wAnChCfg (c v : Nat) (m : Mach) : WriteResult :=
  let old := m.g (K.AN_CH_CFG c)
  let m := m.put (K.AN_CH_CFG c) v
  if bits old 2 1 = bits v 2 1 then (m, .ok)
  else ({ m with an := { m.an with gainDiscard := (c, 2) :: m.an.gainDiscard.filter (fun (p : Nat × Nat) => decide (p.1 ≠ c)) } }, .ok)

/-- AN_ACC_FILTER: modes 0-2 and k 0-8 (R312); the write resets the accumulator. -/
def wAnAccFilter (a v : Nat) (m : Mach) : WriteResult :=
  if v % 4 = 3 ∨ 8 < v / 4 % 16 then refuseRange m else ((m.put (K.AN_ACC_FILTER a) v).accReset a, .ok)

/-- The key of a slice bound: OFS lower and upper, GAIN lower and upper. -/
def sliceBoundKey (s b : Nat) : Nat :=
  match b with
  | 0 => K.AN_SL_OFS_MIN s | 1 => K.AN_SL_OFS_MAX s | 2 => K.AN_SL_GAIN_MIN s | _ => K.AN_SL_GAIN_MAX s

/-- A slice bound: a lower bound above its upper is refused; the write resumes a frozen slice (R303). -/
def wSliceBound (s b v : Nat) (m : Mach) : WriteResult :=
  let m' := m.put (sliceBoundKey s b) v
  let w := if b < 2 then 16 else 32
  let lo := m'.gi w (sliceBoundKey s (if b < 2 then 0 else 2))
  let hi := m'.gi w (sliceBoundKey s (if b < 2 then 1 else 3))
  if hi < lo then refuseRange m else (m'.sliceResume s, .ok)

/-- Bytes of a slice bound. -/
def sliceBoundLen (b : Nat) : Nat := if b < 2 then 2 else 4

/-! ### Meanings -/

/-- AN_SEQ_TABLE (R307). -/
def execAnSeqTable (data : List Byte) (s : State) : Host.Outcome State Fault Refusal :=
  done s fun _ m => m.hostWrite K.AN_SEQ_TABLE data wAnSeqTable

/-- AN_CH_CFG (R306, R310). -/
def execAnChCfg (ch v : Nat) (s : State) : Host.Outcome State Fault Refusal :=
  done s fun _ m => m.hostWrite (K.AN_CH_CFG ch) (leBytes 2 v) (wAnChCfg ch)

/-- AN_ACC_FILTER (R312). -/
def execAnAccFilter (acc v : Nat) (s : State) : Host.Outcome State Fault Refusal :=
  done s fun _ m => m.hostWrite (K.AN_ACC_FILTER acc) (leBytes 1 v) (wAnAccFilter acc)

/-- AN_ACC_RESET (R312). -/
def execAnAccReset (acc v : Nat) (s : State) : Host.Outcome State Fault Refusal :=
  done s fun _ m => m.hostWrite (K.AN_ACC_RESET acc) (leBytes 1 v) (onOne (fun m => m.accReset acc))

/-- AN_MM_RESET (R314). -/
def execAnMmReset (mm v : Nat) (s : State) : Host.Outcome State Fault Refusal :=
  done s fun _ m => m.hostWrite (K.AN_MM_RESET mm) (leBytes 1 v) (onOne (fun m => m.mmReset mm))

/-- AN_MM_MAX (R314): the read returns the maximum and resets the tracker in the same access. -/
def execAnMmMax (mm : Nat) (s : State) : Host.Outcome State Fault Refusal :=
  done s fun _ m => m.hostRead (K.AN_MM_MAX mm) (fun m => m.g (K.AN_MM_MAX mm)) (fun m => m.mmReset mm)

/-- AN_SL_UNFREEZE (R303). -/
def execAnSlUnfreeze (sl v : Nat) (s : State) : Host.Outcome State Fault Refusal :=
  done s fun _ m => m.hostWrite (K.AN_SL_UNFREEZE sl) (leBytes 1 v) (onOne (fun m => m.sliceResume sl))

/-- A write of a slice bound (R303). -/
def execSliceBoundsWrite (sl bound v : Nat) (s : State) : Host.Outcome State Fault Refusal :=
  done s fun _ m => m.hostWrite (sliceBoundKey sl bound) (leBytes (sliceBoundLen bound) v) (wSliceBound sl bound)

/-- SLOT_BOUNDARY (R299, R309). phase is the slot within the current µs. -/
def execSlotBoundary (phase : Nat) (s : State) : Host.Outcome State Fault Refusal :=
  done s fun _ m => m.anTick.slotBoundary (16 * m.time + phase)

/-- SEQUENCE_ENTRY_DUE (R308): an enabled entry whose due moment has come. -/
def execSequenceEntryDue (e : Nat) (s : State) : Host.Outcome State Fault Refusal :=
  done s fun _ m =>
    let m := m.anTick
    if anEnabled m.an.table e && decide (m.an.next.getD e 0 ≤ m.time) && m.an.working then m.entryDue e else m

/-- CALIBRATION_ROTATION (R302): the slice in calibration takes its measured errors and, if it passes, enters service in place of the
slice that has served longest, which enters calibration, now or at the first slot boundary at which that one is free. -/
def execCalibrationRotation (ofs gain : Int) (s : State) : Host.Outcome State Fault Refusal :=
  done s fun _ m =>
    match (List.range 5).find? (fun x => m.sliceRole x == 1) with
    | none => m
    | some a =>
      if !m.an.rotate || m.an.rotDue || decide (m.time < (m.slice a).calSince + 10000) then m
      else
        let m := m.sliceCalibrate a ofs gain
        if m.sliceRole a = 2 then m else ({ m with an := { m.an with rotDue := true } }).rotateNow

/-- RESET_CALIBRATION_END (R305): all five slices have calibrated for 2 ms; a slice that fails its check is FAILED. Slice
4 begins in calibration (R299). -/
def execResetCalibrationEnd (ofs gain : List Int) (s : State) : Host.Outcome State Fault Refusal :=
  done s fun _ m =>
    if m.an.working || m.sup == .reset then m
    else
      let m := upto 5 m (fun m i => m.put (K.AN_SL_ROLE i) (if i = 4 then 1 else 0))
      let m := upto 5 m (fun m i => (m.modSlice i (fun x => { x with since := m.time, calSince := m.time })).sliceCalibrate i
        (ofs.getD i 0) (gain.getD i 0))
      let all := (List.range 5).all (fun i => m.sliceRole i != 2)
      ({ m with an := { m.an with working := true, rotate := all } }).setAnState

/-- IN_SERVICE_CHECK (R304): every slice in service owes a conversion of the mid-scale reference. -/
def execInServiceCheck (s : State) : Host.Outcome State Fault Refusal :=
  done s fun _ m => m.inService.foldl (fun m i => m.modSlice i (fun x => { x with checkDue := true })) m

end Sys2Proof.Machine
end

