-- ==== Sys2Proof/Machine/Partners.lean ====
section
/-! DEFINITION. The partner table of discovery (R355-R357): entries of 32 bytes, found by kind and place. -/

namespace Sys2Proof.Machine

open Sys2Proof

/-- Kinds of partner (R355). -/
def dscNode : Nat := 1
def dscHead : Nat := 2
def dscCamera : Nat := 3
def dscMedia : Nat := 4
def dscRibbon : Nat := 5
def dscHost : Nat := 6

/-- States of an entry (R355). -/
def dscPresent : Nat := 1
def dscAbsent : Nat := 2
def dscMismatch : Nat := 3
def dscIdentifying : Nat := 4

def Mach.partner (m : Mach) (e : Nat) : Nat := m.g (K.DSC_PARTNER e)
def partnerState (x : Nat) : Nat := fld x 1 1

/-- The entry of a kind and place; a host's also by its address and UDP port (R356). -/
def Mach.partnerFind (m : Mach) (kind where_ idA idB : Nat) : Option Nat :=
  (List.range 32).find? (fun e =>
    let x := m.partner e
    fld x 0 1 == kind && fld x 2 1 == where_ && (kind != dscHost || (fld x 4 4 == idA && fld x 8 4 == idB)))

/-- The place for a new partner: the lowest empty entry, else the ABSENT entry with the oldest T_CHANGE (R356). -/
def Mach.partnerRoom (m : Mach) : Option Nat :=
  match (List.range 32).find? (fun e => fld (m.partner e) 0 1 == 0) with
  | some e => some e
  | none =>
    (List.range 32).foldl (fun acc e =>
      if partnerState (m.partner e) ≠ dscAbsent then acc
      else match acc with
        | none => some e
        | some o => if fld (m.partner e) 0x18 8 < fld (m.partner o) 0x18 8 then some e else acc) none

/-- Number of entries that are not empty. -/
def Mach.partnersUsed (m : Mach) : Nat := ((List.range 32).filter (fun e => fld (m.partner e) 0 1 != 0)).length

/-- Set an entry's state: T_CHANGE, LOSSES on PRESENT to ABSENT, events 0x2201 and 0x2202 (R357). -/
def Mach.partnerSet (m : Mach) (e st : Nat) : Mach :=
  let x := m.partner e
  let old := partnerState x
  if old = st then m
  else
    let x := setFld (setFld x 1 1 st) 0x18 8 m.time
    let x := if old = dscPresent ∧ st = dscAbsent then setFld x 0x14 2 (fld x 0x14 2 + 1) else x
    let m := m.put (K.DSC_PARTNER e) x
    if st = dscPresent then m.raise 0x2201 [e]
    else if old = dscPresent ∧ st = dscAbsent then m.raise 0x2202 [e] else m

/-- The entry of a partner, made when it is new; a full table counts DSC_OVERFLOW with event 0x2203 (R356). -/
def Mach.partnerEnter (m : Mach) (kind where_ idA idB : Nat) : Mach × Option Nat :=
  match m.partnerFind kind where_ idA idB with
  | some e => (m, some e)
  | none =>
    match m.partnerRoom with
    | none => ((m.count K.DSC_OVERFLOW).raise 0x2203 [], none)
    | some e =>
      let m := m.put (K.DSC_PARTNER e) (packLe 1 [kind, 0, where_, 0] + 256 ^ 4 * idA + 256 ^ 8 * idB)
      (m.put K.DSC_USED m.partnersUsed, some e)

/-- A partner is found: entered if new, PRESENT, with its identity; a changed ID_A raises event 0x2205 (R357). -/
def Mach.partnerFound (m : Mach) (kind where_ idA idB : Nat) : Mach :=
  match m.partnerEnter kind where_ idA idB with
  | (m, none) => m
  | (m, some e) =>
    let x := m.partner e
    let m := if fld x 4 4 = idA then m
      else (m.put (K.DSC_PARTNER e) (setFld x 4 4 idA)).raiseIf (fld x 1 1 ≠ 0) 0x2205 [e]
    m.partnerSet e dscPresent

/-- A partner is lost: a PRESENT entry becomes ABSENT (R357). -/
def Mach.partnerLost (m : Mach) (kind where_ idA idB : Nat) : Mach :=
  match m.partnerFind kind where_ idA idB with
  | some e => if partnerState (m.partner e) = dscPresent then m.partnerSet e dscAbsent else m
  | none => m

/-- A partner entered with a state at once: present or absent (media and ribbon, R357). -/
def Mach.partnerIs (m : Mach) (kind where_ : Nat) (present : Bool) : Mach :=
  if present then m.partnerFound kind where_ 0 0
  else match m.partnerEnter kind where_ 0 0 with
    | (m, none) => m
    | (m, some e) => m.partnerSet e dscAbsent

end Sys2Proof.Machine
end

