-- ==== Sys2Proof/Machine/Profile.lean ====
section
/-! DEFINITION. Speed profiles in the position domain (R87): runs of segments, ramps under an acceleration and a jerk
limit, and the moment at which a position is passed, in whole 10 ns phases (R245). Positions are in lines, times in
seconds, all exact rationals. How the ramps are realised inside the limits of R87 is the model's (log entry 20). -/

namespace Sys2Proof.Machine

/-- One run of consecutive segments of equal speed: speed in 0.1 mm/s, first and last position in lines, and the speeds its ramps may
not exceed at places inside it, for segments that a ramp of it passes through: with true for the rising ramp. -/
structure Run where
  speed : Nat
  x0 : Rat
  x1 : Rat
  caps : List (Bool × Rat × Nat) := []
  deriving DecidableEq, Repr

/-- The limits of a feed: acceleration (mm/s²), jerk (mm/s³, 0 for none), nm per line. -/
structure FeedLimits where
  accel : Nat
  jerk : Nat
  lineNm : Nat
  deriving DecidableEq, Repr

/-- Speed in lines per second (R124). -/
def FeedLimits.lps (f : FeedLimits) (speed : Nat) : Rat := (speed : Rat) * 100000 / (f.lineNm : Rat)
/-- Acceleration in lines/s². -/
def FeedLimits.acc (f : FeedLimits) : Rat := (f.accel : Rat) * 1000000 / (f.lineNm : Rat)
/-- Jerk in lines/s³. -/
def FeedLimits.jrk (f : FeedLimits) : Rat := (f.jerk : Rat) * 1000000 / (f.lineNm : Rat)

/-- The square root of a non-negative rational, rounded up to 10 ns where it is a time in seconds. -/
def sqrtUp8 (q : Rat) : Rat :=
  let n := (q * 10000000000000000).ceil.toNat
  let r := Nat.sqrt n
  let r := if r * r = n then r else r + 1
  (r : Rat) / 100000000

/-- A time lengthened to the next whole 10 ns (R245). -/
def up10 (t : Rat) : Rat := ((t * 100000000).ceil : Rat) / 100000000

/-- A time rounded to the nearest 10 ns (R245). -/
def near10 (t : Rat) : Rat := (roundRat (t * 100000000) : Rat) / 100000000

/-- A ramp by dv: jerk time and constant-acceleration time, each in whole 10 ns (R245). -/
def rampTimes (acc jrk dv : Rat) : Rat × Rat :=
  let d := if dv < 0 then -dv else dv
  if d = 0 then (0, 0)
  else if jrk = 0 then (0, up10 (d / acc))
  else if acc * acc ≤ d * jrk then (up10 (acc / jrk), up10 (d / acc - acc / jrk))
  else (sqrtUp8 (d / jrk), 0)

/-- Duration of a ramp. -/
def rampTime (acc jrk dv : Rat) : Rat := let t := rampTimes acc jrk dv; 2 * t.1 + t.2

/-- Distance of a ramp between two speeds. -/
def rampDist (acc jrk v0 v1 : Rat) : Rat := (v0 + v1) / 2 * rampTime acc jrk (v1 - v0)

/-- Distance covered after a time t in a ramp of the given jerk and constant-acceleration times. -/
def rampPos (tj ta v0 v1 t : Rat) : Rat :=
  let dv := v1 - v0
  let tt := 2 * tj + ta
  if dv = 0 ∨ ta + tj = 0 then v0 * t
  else
    let ap := dv / (ta + tj)
    let j := if tj = 0 then 0 else ap / tj
    if t < tj then v0 * t + j * t * t * t / 6
    else if t < tj + ta then
      let u := t - tj
      v0 * tj + j * tj * tj * tj / 6 + (v0 + j * tj * tj / 2) * u + ap * u * u / 2
    else
      let r := tt - t
      (v0 + v1) / 2 * tt - (v1 * r - j * r * r * r / 6)

/-- Speed after a time t in a ramp. -/
def rampVel (tj ta v0 v1 t : Rat) : Rat :=
  let dv := v1 - v0
  let tt := 2 * tj + ta
  if dv = 0 ∨ ta + tj = 0 then v0
  else
    let ap := dv / (ta + tj)
    let j := if tj = 0 then 0 else ap / tj
    if t < tj then v0 + j * t * t / 2
    else if t < tj + ta then v0 + j * tj * tj / 2 + ap * (t - tj)
    else let r := tt - t; v1 - j * r * r / 2

/-- A ramp as a piece. -/
def rampPiece (acc jrk x t v0 v1 : Rat) : Piece :=
  let (tj, ta) := rampTimes acc jrk (v1 - v0)
  { x0 := x, len := (v0 + v1) / 2 * (2 * tj + ta), t0 := t, tj, ta, dur := 2 * tj + ta, v0, v1 }

/-- A constant-speed piece of about a length, its time rounded to 10 ns (R245). -/
def flatPiece (x t len v : Rat) : Piece :=
  let d := if v = 0 then 0 else near10 (len / v)
  { x0 := x, len := v * d, t0 := t, tj := 0, ta := 0, dur := d, v0 := v, v1 := v }

/-- Merge neighbouring runs of equal speed. -/
def mergeRuns : List Run → List Run
  | [] => []
  | r :: rs =>
    match mergeRuns rs with
    | [] => [r]
    | q :: qs => if q.speed = r.speed then { r with x1 := q.x1, caps := r.caps ++ q.caps } :: qs else r :: q :: qs

/-- The highest speed below s, and not below lo, whose two ramps fit a length; lo when none does (R87). -/
def fitSpeed (f : FeedLimits) (a b lo : Nat) (len : Rat) : Nat → Nat → Nat
  | 0, _ => lo
  | n + 1, s =>
    if s ≤ lo then lo
    else if rampDist f.acc f.jrk (f.lps a) (f.lps s) + rampDist f.acc f.jrk (f.lps s) (f.lps b) ≤ len then s
    else fitSpeed f a b lo len n (s - 1)

/-- Distance covered inside a piece after a time. -/
def Piece.posIn (p : Piece) (t : Rat) : Rat :=
  if p.a0 = 0 then rampPos p.tj p.ta p.v0 p.v1 t
  else if p.dur = 0 then 0 else p.v0 * t + p.a0 * t * t / 2 - p.a0 / p.dur * t * t * t / 6

/-- Speed inside a piece after a time. -/
def Piece.velIn (p : Piece) (t : Rat) : Rat :=
  if p.a0 = 0 then rampVel p.tj p.ta p.v0 p.v1 t
  else if p.dur = 0 then p.v0 else p.v0 + p.a0 * t - p.a0 / p.dur * t * t / 2

/-- Acceleration inside a piece after a time. -/
def Piece.accIn (p : Piece) (t : Rat) : Rat :=
  if p.a0 = 0 then
    let tt := 2 * p.tj + p.ta
    if p.v0 = p.v1 ∨ p.tj + p.ta = 0 then 0
    else
      let ap := (p.v1 - p.v0) / (p.ta + p.tj)
      if t < p.tj then ap * t / p.tj else if t < p.tj + p.ta then ap else if p.tj = 0 then ap else ap * (tt - t) / p.tj
  else if p.dur = 0 then 0 else p.a0 * (p.dur - t) / p.dur

/-- Parts of a second to which the passing of a position in a ramp is solved: 1/1024 ns. -/
def fineParts : Nat := 1024000000000

/-- The least part in [lo, hi] at which a piece has covered a distance, by halving. -/
def Piece.halve (p : Piece) (d : Rat) : Nat → Nat → Nat → Nat
  | 0, _, hi => hi
  | n + 1, lo, hi =>
    if hi ≤ lo then hi
    else
      let mid := (lo + hi) / 2
      if d ≤ p.posIn ((mid : Rat) / (fineParts : Rat)) then p.halve d n lo mid else p.halve d n (mid + 1) hi

/-- The time inside a piece at which it has covered a distance: exact at constant speed. -/
def Piece.reach (p : Piece) (d : Rat) : Rat :=
  if d ≤ 0 then 0
  else if p.v0 = p.v1 ∧ p.a0 = 0 then (if p.v0 = 0 then p.dur else d / p.v0)
  else (p.halve d 64 0 (p.dur * (fineParts : Rat)).ceil.toNat : Rat) / (fineParts : Rat)

/-- The highest speed below s, and not below lo, to which a ramp from lo fits a length (R87). -/
def fitRamp (f : FeedLimits) (lo : Nat) (len : Rat) : Nat → Nat → Nat
  | 0, _ => lo
  | n + 1, s => if s ≤ lo then lo else if rampDist f.acc f.jrk (f.lps lo) (f.lps s) ≤ len then s else fitRamp f lo len n (s - 1)

/-- Whether a ramp up from lo to hi exceeds no cap, each at its distance from the slow end (R87: no line is printed faster than its
segment's speed). -/
def rampKeeps (f : FeedLimits) (lo hi : Nat) (caps : List (Rat × Nat)) : Bool :=
  let p := rampPiece f.acc f.jrk 0 0 (f.lps lo) (f.lps hi)
  caps.all (fun c => decide ((if p.len ≤ c.1 then f.lps hi else p.velIn (p.reach c.1)) ≤ f.lps c.2))

/-- One pass over the runs with their neighbours (R87). A run faster than both that is too short for its ramps is lowered. A rising
or falling step too short for its ramp lets the ramp go on into the faster run beyond it, where no segment on the way is passed faster
than its own speed; else the step is lowered to the highest speed whose ramp fits. -/
def adjustRuns (f : FeedLimits) (before : Nat) : List Run → Nat → List Run × Bool
  | [], _ => ([], false)
  | r :: rs, after =>
    let nxt := match rs with | [] => after | q :: _ => q.speed
    let len := r.x1 - r.x0
    let up := rampDist f.acc f.jrk (f.lps before) (f.lps r.speed)
    let dn := rampDist f.acc f.jrk (f.lps r.speed) (f.lps nxt)
    if before < r.speed ∧ nxt < r.speed ∧ len < up + dn then
      ({ r with speed := fitSpeed f before nxt (max before nxt) len r.speed (r.speed - 1) } :: rs, true)
    else if before < r.speed ∧ r.speed < nxt ∧ len < up then
      let caps := (true, r.x1, r.speed) :: r.caps
      if rampKeeps f before nxt ((caps.filter Prod.fst).map (fun c => (c.2.1 - r.x0, c.2.2))) then ({ r with speed := nxt, caps } :: rs, true)
      else ({ r with speed := fitRamp f before len r.speed (r.speed - 1) } :: rs, true)
    else if r.speed < before ∧ nxt < r.speed ∧ len < dn then
      let caps := (false, r.x0, r.speed) :: r.caps
      if rampKeeps f nxt before ((caps.filter (fun c => !c.1)).map (fun c => (r.x1 - c.2.1, c.2.2))) then ({ r with speed := before, caps } :: rs, true)
      else ({ r with speed := fitRamp f nxt len r.speed (r.speed - 1) } :: rs, true)
    else
      let (rs', c) := adjustRuns f r.speed rs after
      (r :: rs', c)

/-- Adjust until nothing changes. -/
def settleRuns (f : FeedLimits) (join : Nat) : Nat → List Run → List Run
  | 0, rs => rs
  | n + 1, rs =>
    let (rs', c) := adjustRuns f join rs join
    if c then settleRuns f join n (mergeRuns rs') else rs

/-- The pieces of settled runs: each ramp lies in the faster run (R87). -/
def piecesOf (f : FeedLimits) (before : Nat) (x t : Rat) : List Run → Nat → List Piece
  | [], _ => []
  | r :: rs, after =>
    let nxt := match rs with | [] => after | q :: _ => q.speed
    let v := f.lps r.speed
    let up := rampPiece f.acc f.jrk x t (f.lps before) v
    let p1 : List Piece := if before < r.speed then [up] else []
    let x1 := if before < r.speed then x + up.len else x
    let t1 := if before < r.speed then t + up.dur else t
    let dn := if nxt < r.speed then rampDist f.acc f.jrk v (f.lps nxt) else 0
    let flat := flatPiece x1 t1 (max 0 (r.x1 - x1 - dn)) v
    let x2 := x1 + flat.len
    let t2 := t1 + flat.dur
    let down := rampPiece f.acc f.jrk x2 t2 v (f.lps nxt)
    let p3 : List Piece := if nxt < r.speed then [down] else []
    let x3 := if nxt < r.speed then x2 + down.len else x2
    let t3 := if nxt < r.speed then t2 + down.dur else t2
    p1 ++ [flat] ++ p3 ++ piecesOf f r.speed x3 t3 rs after

/-- The profile of one pass: segments of 64 lines with their speeds, joined at the join speed, from -pre to
length + tail + post. -/
def buildPieces (f : FeedLimits) (join pre length tail post : Nat) (speeds : List Nat) : List Piece :=
  let n := speeds.length
  let runs := speeds.mapIdx (fun i v =>
    ({ speed := v, x0 := if i = 0 then -(pre : Rat) else ((64 * i : Nat) : Rat),
       x1 := if i + 1 = n then ((length + tail + post : Nat) : Rat) else ((64 * (i + 1) : Nat) : Rat) } : Run))
  let runs := settleRuns f join (2000 + 2 * n) (mergeRuns runs)
  piecesOf f join (-(pre : Rat)) 0 runs join

/-- The piece in force at a time. -/
def pieceAt (ps : List Piece) (t : Rat) : Option Piece := (ps.filter (fun p => p.t0 ≤ t)).getLast?

/-- The position at a time; beyond the last piece the end speed is kept. -/
def posAt (ps : List Piece) (t : Rat) : Rat :=
  match pieceAt ps t with
  | none => match ps.head? with | some p => p.x0 | none => 0
  | some p => if p.t0 + p.dur ≤ t then p.x0 + p.len + p.v1 * (t - p.t0 - p.dur)
              else p.x0 + p.posIn (t - p.t0)

/-- The speed at a time. -/
def velAt (ps : List Piece) (t : Rat) : Rat :=
  match pieceAt ps t with
  | none => match ps.head? with | some p => p.v0 | none => 0
  | some p => if p.t0 + p.dur ≤ t then p.v1 else p.velIn (t - p.t0)

/-- The acceleration at a time, 0 beyond the last piece. -/
def accAt (ps : List Piece) (t : Rat) : Rat :=
  match pieceAt ps t with
  | none => 0
  | some p => if p.t0 + p.dur ≤ t then 0 else p.accIn (t - p.t0)

/-- The time in seconds from a profile's start at which it passes a position; beyond the last piece the end speed is kept. -/
def crossing (ps : List Piece) (x : Rat) : Rat :=
  match ps.find? (fun p => decide (x ≤ p.x0 + p.len)) with
  | some p => p.t0 + p.reach (x - p.x0)
  | none =>
    match ps.getLast? with
    | none => 0
    | some p => p.t0 + p.dur + (if p.v1 = 0 then 0 else (x - p.x0 - p.len) / p.v1)

/-- Duration in seconds. -/
def piecesDur (ps : List Piece) : Rat := ps.foldl (fun a p => a + p.dur) 0

/-- The moment a position is passed, from the profile's start, rounded to the nearest 10 ns (R246). -/
def timeAt (ps : List Piece) (x : Rat) : Nat := (roundRat (crossing ps x * 100000000)).toNat

/-- Whether a position lies in a ramp. -/
def inRamp (ps : List Piece) (x : Rat) : Bool := ps.any (fun p => decide (p.v0 ≠ p.v1 ∧ p.x0 ≤ x ∧ x < p.x0 + p.len))

/-- The line periods in ns of one pass, at a distance behind the lead head in 1/16 line: from a line's boundary to the next in
the profile as built (R87, R113). -/
def linePeriods (ps : List Piece) (length off16 : Nat) : List Nat :=
  let ts := (List.range (length + 1)).map (fun (l : Nat) => crossing ps ((l : Rat) + (off16 : Rat) / 16))
  (List.range length).map (fun l => (roundRat ((ts.getD (l + 1) 0 - ts.getD l 0) * 1000000000)).toNat)

/-- Duration of a profile in µs, rounded up. -/
def profileMicros (ps : List Piece) : Nat := (piecesDur ps * 1000000).ceil.toNat

/-- Pieces in lines as pieces in another position unit. -/
def scalePieces (k : Rat) (ps : List Piece) : List Piece :=
  ps.map (fun p => { p with x0 := k * p.x0, len := k * p.len, v0 := k * p.v0, v1 := k * p.v1, a0 := k * p.a0 })

/-- A profile of a kind from pieces in pos. -/
def mkProfile (kind : ProfKind) (ps : List Piece) : Profile :=
  { kind, pieces := ps, dur10 := (piecesDur ps * 100000000).ceil.toNat,
    vStart := match ps.head? with | some p => p.v0 | none => 0,
    vEnd := match ps.getLast? with | some p => p.v1 | none => 0,
    length := ps.foldl (fun a p => a + p.len) 0 }

/-- A move from rest to rest over a distance at a cruise speed, a triangle where the ramps do not fit. -/
def restMove (acc dec jrk v dist : Rat) : List Piece :=
  let sgn : Rat := if dist < 0 then -1 else 1
  let d := sgn * dist
  let need := rampDist acc jrk 0 v + rampDist dec jrk v 0
  let vp := if need ≤ d ∨ need = 0 then v else sqrtUp8 (2 * d * acc * dec / (acc + dec))
  let vp := if vp < v then vp else v
  let p1 := rampPiece acc jrk 0 0 0 vp
  let rest := d - p1.len - rampDist dec jrk vp 0
  let p2 := flatPiece p1.len p1.dur (max 0 rest) vp
  let p3 := rampPiece dec jrk (p1.len + p2.len) (p1.dur + p2.dur) vp 0
  scalePieces sgn [p1, p2, p3]

/-- Shift pieces in position and time. -/
def shiftPieces (x t : Rat) (ps : List Piece) : List Piece := ps.map (fun p => { p with x0 := p.x0 + x, t0 := p.t0 + t })

/-- Length of a piece list. -/
def piecesLen (ps : List Piece) : Rat := ps.foldl (fun a p => a + p.len) 0

/-- One list of pieces after another. -/
def joinPieces (a b : List Piece) : List Piece := a ++ shiftPieces (piecesLen a) (piecesDur a) b

/-- The jerk-limited turn that brings an acceleration to 0 (R232). -/
def turnPiece (v a jrk : Rat) : List Piece :=
  if a = 0 ∨ jrk = 0 then []
  else
    let d := up10 ((if a < 0 then -a else a) / jrk)
    [{ x0 := 0, len := v * d + a * d * d / 3, t0 := 0, tj := 0, ta := 0, dur := d, v0 := v, v1 := v + a * d / 2, a0 := a }]

/-- Highest speed between two speeds from which a move of a length can be accelerated to and braked, by halving. -/
def peakSpeed (acc dec jrk v0 len : Rat) : Nat → Rat → Rat → Rat
  | 0, lo, _ => lo
  | n + 1, lo, hi =>
    let mid := (lo + hi) / 2
    if rampDist acc jrk v0 mid + rampDist dec jrk mid 0 ≤ len then peakSpeed acc dec jrk v0 len n mid hi
    else peakSpeed acc dec jrk v0 len n lo mid

/-- A deceleration from v to 0 over exactly a length: longer in time than at the full deceleration, and never above it. -/
def stretchStop (dec jrk v len : Rat) : List Piece :=
  let (tj, ta) := rampTimes dec jrk v
  let t0 := 2 * tj + ta
  let t := if v = 0 then 0 else 2 * len / v
  if t0 = 0 then []
  else [{ x0 := 0, len := len, t0 := 0, tj := tj * t / t0, ta := ta * t / t0, dur := t, v0 := v, v1 := 0 }]

/-- A move towards a target len ahead from a speed v, both positive towards it, at rest afterwards (R232): away first
brakes; too fast for D passes the target; above the speed limit comes down to it; else up to it and down again. The
answer says whether the target is passed. -/
def moveAhead (acc dec jrk s v len : Rat) : List Piece × Bool :=
  let ds := rampDist dec jrk v 0
  if len < ds then ([rampPiece dec jrk 0 0 v 0], true)
  else if s < v then
    let down := rampPiece dec jrk 0 0 v s
    let rest := len - down.len - rampDist dec jrk s 0
    if rest < 0 then (stretchStop dec jrk v len, false)
    else
      let flat := flatPiece 0 0 rest s
      (joinPieces (joinPieces [down] [flat]) [rampPiece dec jrk 0 0 s 0], false)
  else
    let full := rampDist acc jrk v s + rampDist dec jrk s 0 ≤ len
    let vp := if full then s else peakSpeed acc dec jrk v len 48 v s
    let up := rampPiece acc jrk 0 0 v vp
    let flat := flatPiece 0 0 (max 0 (len - up.len - rampDist dec jrk vp 0)) vp
    (joinPieces (joinPieces [up] [flat]) [rampPiece dec jrk 0 0 vp 0], false)

/-- The whole move to a target at a signed distance from a signed speed (R232): through rest when it moves away or passes
the target, then back. -/
def movePieces (acc dec jrk s v dist : Rat) : List Piece × Bool :=
  let sg : Rat := if dist < 0 ∨ (dist = 0 ∧ v < 0) then -1 else 1
  let vt := sg * v
  let len := sg * dist
  if vt < 0 then
    let stop := rampPiece dec jrk 0 0 vt 0
    let go := (moveAhead acc dec jrk s 0 (len - stop.len)).1
    (scalePieces sg (joinPieces [stop] go), false)
  else
    let (p, passes) := moveAhead acc dec jrk s vt len
    if passes then
      let back := scalePieces (-1) (moveAhead acc dec jrk s 0 (piecesLen p - len)).1
      (scalePieces sg (joinPieces p back), true)
    else (scalePieces sg p, false)

/-- The way to a velocity (R233): up at A, down at D, through zero at D and then up at A. -/
def velocityPieces (acc dec jrk v w : Rat) : List Piece :=
  let mag (x : Rat) : Rat := if x < 0 then -x else x
  if v = w then []
  else if v * w < 0 then joinPieces [rampPiece dec jrk 0 0 v 0] [rampPiece acc jrk 0 0 0 w]
  else if mag v < mag w then [rampPiece acc jrk 0 0 v w] else [rampPiece dec jrk 0 0 v w]

/-- Number of segments of a pass (R87). -/
def segCount (length : Nat) : Nat := (length + 63) / 64

end Sys2Proof.Machine
end

