-- ==== Sys2Proof/Machine/AxisOps.lean ====
section
/-! DEFINITION. What other units do to an axis (R226, R236, R237, R247): its entry fields, states and readiness, a halt,
a stop with its ports cut, and the profile queue of a station feed. -/

namespace Sys2Proof.Machine

open Sys2Proof

/-- The moment now in 10 ns. -/
def Mach.now10 (m : Mach) : Nat := 100 * m.time

def Mach.axis (m : Mach) (n : Nat) : AxisRt := m.axes.getD n {}
def Mach.modAxis (m : Mach) (n : Nat) (f : AxisRt → AxisRt) : Mach := { m with axes := m.axes.modify n f }

/-- A field of the working copy (R226). -/
def AxisRt.f (a : AxisRt) (off n : Nat) : Nat := fld a.work off n
def AxisRt.fi (a : AxisRt) (off n : Nat) : Int := sfld a.work off n
def AxisRt.kind (a : AxisRt) : Nat := a.f 0x00 1
def AxisRt.dirInvert (a : AxisRt) : Bool := bit (a.f 0x01 1) 0
def AxisRt.followCheck (a : AxisRt) : Bool := bit (a.f 0x01 1) 1
def AxisRt.softLimits (a : AxisRt) : Bool := bit (a.f 0x01 1) 2
def AxisRt.homeRequired (a : AxisRt) : Bool := bit (a.f 0x01 1) 3
def AxisRt.homePositive (a : AxisRt) : Bool := bit (a.f 0x01 1) 4
def AxisRt.bus (a : AxisRt) : Nat := a.f 0x02 1
def AxisRt.microsteps (a : AxisRt) : Nat := a.f 0x03 1
/-- The ports an entry names, in phase order: two for a stepper, three for kind 2, one for kinds 3 and 4 (R222). -/
def AxisRt.nPorts (a : AxisRt) : Nat := match a.kind with | 1 => 2 | 2 => 3 | 3 => 1 | 4 => 1 | _ => 0
def AxisRt.ports (a : AxisRt) : List Nat := (List.range a.nPorts).map (fun i => a.f (0x04 + i) 1)
def AxisRt.enc (a : AxisRt) : Nat := a.f 0x08 1
def AxisRt.sd (a : AxisRt) : Nat := a.f 0x09 1
def AxisRt.homeSi (a : AxisRt) : Nat := a.f 0x0A 1
def AxisRt.limNeg (a : AxisRt) : Nat := a.f 0x0B 1
def AxisRt.limPos (a : AxisRt) : Nat := a.f 0x0C 1
def AxisRt.vMax (a : AxisRt) : Nat := a.f 0x10 4
def AxisRt.aMax (a : AxisRt) : Nat := a.f 0x14 4
def AxisRt.dMax (a : AxisRt) : Nat := a.f 0x18 4
def AxisRt.jMax (a : AxisRt) : Nat := a.f 0x1C 4
def AxisRt.dStop (a : AxisRt) : Nat := a.f 0x20 4
def AxisRt.encRatio (a : AxisRt) : Int := a.fi 0x30 4
def AxisRt.sdRatio (a : AxisRt) : Int := a.fi 0x34 4

/-- States of R247. -/
def axDisabled : Nat := 0
def axIdle : Nat := 1
def axMoving : Nat := 2
def axVelocity : Nat := 3
def axCurrent : Nat := 4
def axFollowing : Nat := 5
def axProfile : Nat := 6
def axHoming : Nat := 7
def axHalting : Nat := 8
def axStopped : Nat := 9

/-! ### Where an axis is, R230 -/

/-- A position wrapped into INTEGER32 with its fraction (R230). -/
def wrapPos (q : Rat) : Rat :=
  let n := (q + 2147483648).floor
  q - ((n - n % 4294967296 : Int) : Rat)

/-- Planned position, not wrapped, at a moment in 10 ns. -/
def AxisRt.posAt10 (a : AxisRt) (t10 : Nat) : Rat :=
  match a.plan with
  | none => a.pos
  | some p => p.origin + posAt p.pieces (((t10 - p.start10 : Nat) : Rat) / 100000000)
/-- Planned speed at a moment. -/
def AxisRt.velAt10 (a : AxisRt) (t10 : Nat) : Rat :=
  match a.plan with
  | none => a.vel
  | some p => velAt p.pieces (((t10 - p.start10 : Nat) : Rat) / 100000000)
/-- Planned acceleration at a moment. -/
def AxisRt.accAt10 (a : AxisRt) (t10 : Nat) : Rat :=
  match a.plan with
  | none => a.acc
  | some p => accAt p.pieces (((t10 - p.start10 : Nat) : Rat) / 100000000)
/-- When a plan's last piece ends, 10 ns. -/
def Plan.end10 (p : Plan) : Nat := p.start10 + (piecesDur p.pieces * 100000000).ceil.toNat

/-- Put a plan into force from where the axis is at a moment. -/
def AxisRt.planFrom (a : AxisRt) (t10 : Nat) (ps : List Piece) : AxisRt :=
  { a with plan := some { pieces := ps, start10 := t10, origin := wrapPos (a.posAt10 t10) } }

/-- Freeze the position at a moment and drop the plan. -/
def AxisRt.settleAt (a : AxisRt) (t10 : Nat) : AxisRt :=
  { a with pos := wrapPos (a.posAt10 t10), vel := a.velAt10 t10, acc := a.accAt10 t10, plan := none }

def Mach.axPos (m : Mach) (n : Nat) : Rat := wrapPos ((m.axis n).posAt10 m.now10)
def Mach.axVel (m : Mach) (n : Nat) : Rat := (m.axis n).velAt10 m.now10

/-- Encoder position of an axis, pos (R243). -/
def Mach.axEnc (m : Mach) (n : Nat) : Rat :=
  let a := m.axis n
  (m.gi 32 (K.QE_COUNT a.enc) : Rat) * (a.encRatio : Rat) / 65536 + a.encRef

/-- Following error (R243), over the wrap of positions (R230). -/
def Mach.axFollowErr (m : Mach) (n : Nat) : Rat := wrapPos (m.axPos n - m.axEnc n)

def Mach.axState (m : Mach) (n : Nat) : Nat := m.g (K.AX_STATE n)
/-- Whether an axis is enabled: neither DISABLED nor STOPPED. -/
def Mach.axEnabled (m : Mach) (n : Nat) : Bool := m.axState n != axDisabled && m.axState n != axStopped
/-- Whether an axis has a non-zero planned speed or a plan to move. -/
def Mach.axMovingNow (m : Mach) (n : Nat) : Bool := m.axVel n != 0

/-- Set an axis's state with its readiness: OFF while DISABLED, STARTING while HOMING, FAULT while STOPPED, else READY
(R247). -/
def Mach.setAxState (m : Mach) (n st : Nat) : Mach :=
  let r := if st = axDisabled then vOff else if st = axHoming then vStarting else if st = axStopped then vFault else vReady
  (m.put (K.AX_STATE n) st).setReady (rdyAxis n) r

/-- Discard the armed command (R234, R236). -/
def Mach.axDisarm (m : Mach) (n : Nat) : Mach := (m.modAxis n (fun a => { a with armed := none })).put (K.AX_ARMED n) 0

/-- A homing that ends without its latch (R242). -/
def Mach.homeFail (m : Mach) (n cause : Nat) : Mach := (m.put (K.AX_HOME_FAIL n) cause).raise 0x2A03 [n, cause]

/-- Keep the commands that a halt or stop does not discard: refreshes. -/
def AxCmd.kept : AxCmd → Bool
  | .refresh _ _ => true
  | _ => false

/-- Triggers of a planned-position station that lie ahead fall with the profile of its feed (R246). -/
def Mach.dropDue (m : Mach) (n : Nat) : Mach :=
  (List.range 4).foldl (fun m st =>
    if m.gb (K.TH_CONFIGURED st) && m.h (K.TH_FEED_AXIS st) == n && m.h (K.TH_TRIG_SRC st) == 0 then
      (bitsSet 4 (m.h (K.TH_PORTS st))).foldl (fun m h => m.modHead h (fun x => { x with
        due := x.due.filter (fun (d : Nat × Nat) => decide (d.2 ≤ m.now10)) })) m
    else m) m

/-- To rest at a deceleration (pos/s²) under the entry's J_MAX, position kept; armed command, queued profiles and pending step
motion are discarded (R236). -/
def Mach.axRest (m : Mach) (n : Nat) (decel : Rat) : Mach :=
  let m := ((m.dropDue n).axDisarm n).modAxis n (fun a => { a with
    queue := [], passing := false, waiting := a.waiting.filter (fun w => w.2.kept) })
  let v := m.axVel n
  if v = 0 then
    (m.modAxis n (fun a => { a.settleAt m.now10 with mode := .rest, vel := 0, acc := 0 })).setAxState n axIdle
  else
    let ps := fun (a : AxisRt) => joinPieces (turnPiece v (a.accAt10 m.now10) a.jMax)
      [rampPiece (if decel = 0 then 1 else decel) a.jMax 0 0 (match (turnPiece v (a.accAt10 m.now10) a.jMax).getLast? with
        | some p => p.v1 | none => v) 0]
    (m.modAxis n (fun a => { a.planFrom m.now10 (ps a) with mode := .halt })).setAxState n axHalting

/-- A halt (R236) by whoever ordered it. A homing axis fails with cause 4 (R242). -/
def Mach.axHalt (m : Mach) (n : Nat) (decel : Rat) : Mach :=
  if !(m.axEnabled n) then m
  else (if m.axState n = axHoming then m.homeFail n 4 else m).axRest n decel

/-- A stop (R237): the ports are cut, plan, queue and armed command are discarded, STOPPED, position lost, cause, event
0x2A01. A stopped axis keeps its first cause (R271). What it does to the axis's owner (R238) stands in Consequences. -/
def Mach.axCut (m : Mach) (n cause : Nat) : Mach :=
  if m.axState n = axDisabled ∨ m.axState n = axStopped then m
  else
    let homing := m.axState n = axHoming
    let m := ((m.dropDue n).axDisarm n).modAxis n (fun a => { a.settleAt m.now10 with
      queue := [], mode := .rest, vel := 0, acc := 0, restSince := m.time, passing := false
      waiting := a.waiting.filter (fun w => w.2.kept)
      drive := { a.drive with bridge := if cause ≠ 6 ∧ (m.motion.buses.getD a.bus {}).failed then .shorted else .highZ
                              shortSince := m.time, foc := .off, level := .none, energised := false } })
    let m := m.puts [(K.AX_POS_LOST n, 1), (K.AX_STOP_CAUSE n, cause)]
    let m := m.setAxState n axStopped
    let m := m.raise 0x2A01 [n, cause]
    if homing then (if cause = 1 then m.homeFail n 4 else if cause = 2 then m.homeFail n 2 else m) else m

/-- Stopped by a cause, the axis keeps the low sides on where the brake chopper of its bus has failed (R250). -/
def Mach.axShorted (m : Mach) (n : Nat) : Bool := (m.axis n).drive.bridge == .shorted

/-- pos per line of a station whose feed axis is n (R87, R108): TH_LINE_COUNTS / 65,536 pos with planned position, times
ENC_RATIO / 65,536 with an encoder source. -/
def Mach.posPerLine (m : Mach) (st : Nat) : Rat :=
  let c : Rat := (m.h (K.TH_LINE_COUNTS st) : Rat) / 65536
  if m.h (K.TH_TRIG_SRC st) = 0 then c
  else c * ((m.axis (m.h (K.TH_FEED_AXIS st))).encRatio : Rat) / 65536

/-- mm/s² as pos/s² on a station's feed. -/
def Mach.feedAccel (m : Mach) (st mmss : Nat) : Rat :=
  (mmss : Rat) * 1000000 / (m.h (K.TH_LINE_NM st) : Rat) * m.posPerLine st

/-- Append a profile to an axis's queue of 8 (R245). -/
def Mach.axQueue (m : Mach) (n : Nat) (p : Profile) : Mach :=
  m.modAxis n (fun a => if a.queue.length < 8 then { a with queue := a.queue ++ [p] } else a)

/-- The item a profile belongs to. -/
def ProfKind.item : ProfKind → Option Nat
  | .pass i _ => some i | .retract i _ => some i | .align i => some i | .cutFeed i => some i | .cutReturn i => some i
  | .panel i => some i | .present i _ => some i | .seek => none | .learn => none | .ramp _ => none

/-- The stop ramp of a station feed (R245): from its speed to rest at a deceleration under a jerk, both in pos, as the
profile in force; the queue stays. -/
def Mach.axRampStop (m : Mach) (n : Nat) (decel jrk : Rat) : Mach :=
  let a := m.axis n
  let v := m.axVel n
  let turn := turnPiece v (a.accAt10 m.now10) jrk
  let v1 := match turn.getLast? with | some p => p.v1 | none => v
  let p := mkProfile (.ramp 0) (joinPieces turn [rampPiece decel jrk 0 0 v1 0])
  m.modAxis n (fun a => { a.planFrom m.now10 p.pieces with mode := .profile p })

/-- Withdraw the profiles of an item that have not begun; an alignment feed of the item in progress stops at a
deceleration (pos/s²) and jerk (R43, R44, R153). -/
def Mach.axWithdraw (m : Mach) (n item : Nat) (decel jrk : Rat) : Mach :=
  let m := m.modAxis n (fun a => { a with queue := a.queue.filter (fun p => p.kind.item != some item) })
  match (m.axis n).mode with
  | .profile p => match p.kind with
    | .align i => if i = item then m.axRampStop n decel jrk else m
    | _ => m
  | _ => m

/-- Counts per mechanical revolution of a field-oriented axis (R222): 4,096 per electrical revolution, or its encoder's. -/
def AxisRt.posPerRev (a : AxisRt) : Nat :=
  if a.enc = 0xFF then 4096 * max 1 (fld a.drive.enabled 0xA4 1) else Config.encoderCounts a.enc

/-! ### Ports, R20, R22, R224 -/

def Mach.port (m : Mach) (p : Nat) : PortRt := m.motion.ports.getD p {}
def Mach.modPort (m : Mach) (p : Nat) (f : PortRt → PortRt) : Mach :=
  { m with motion := { m.motion with ports := m.motion.ports.modify p f } }

/-- The spare that serves a port: byte s of AX_SPARE_MAP names it. -/
def Mach.spareOf (m : Mach) (p : Nat) : Option Nat := (List.range 4).find? (fun s => fld (m.g K.AX_SPARE_MAP) s 1 == p)
/-- The port that works for an entry's port: the spare that serves it, else itself (R224). -/
def Mach.phys (m : Mach) (p : Nat) : Nat := match m.spareOf p with | some s => 96 + s | none => p
/-- A port that failed and is not served by a spare. -/
def Mach.portDead (m : Mach) (p : Nat) : Bool := (m.port p).failed && (m.spareOf p).isNone

/-- Whether the safety monitor holds an axis's ports in high impedance: its bus is cut, or a thermal shutdown is in force. Both last
until they are cleared, whatever the drive block commands (R20, R22). -/
def Mach.portsOff (m : Mach) (n : Nat) : Bool := (m.motion.buses.getD (m.axis n).bus {}).cut || m.g K.DEV_SHUTDOWN != 0

/-- What an axis's ports do: forced off, the low sides on while a reverse rotor is braked (R265), else what the drive commands. -/
def Mach.bridge (m : Mach) (n : Nat) : PortDrive :=
  if m.portsOff n then .highZ
  else match (m.axis n).drive.foc with
    | .brake => .shorted
    | _ => (m.axis n).drive.bridge

/-- The choppers of an axis's ports begin with a drive phase (R256). -/
def Mach.chopStart (m : Mach) (n : Nat) : Mach :=
  (m.axis n).ports.foldl (fun m p => m.modPort (m.phys p) (fun x => { x with driving := true, since := 1000 * m.time, lowSeen := false, changed := true })) m

/-- The amplitude in force, mA (R255, R258, R259). -/
def AxisRt.ampSet (a : AxisRt) : Int :=
  match a.drive.level with
  | .open_ => a.drive.amp
  | .run => (a.f 0x80 2 : Nat)
  | .hold => (a.f 0x82 2 : Nat)
  | .none => 0

/-- The command is the latest for residency (R227): the host's, a start group's or the owner's. -/
def Mach.commanded (m : Mach) (n : Nat) : Mach :=
  { m with motion := { m.motion with recent := n :: m.motion.recent.filter (· ≠ n) } }

/-! ### A sensorless start, R264, R265 -/

/-- Feedback of a field-oriented axis as read at its enable: 0 sensorless, 1 encoder, 2 scanner (R252, R253). -/
def AxisRt.focFb (a : AxisRt) : Nat := let v := fld a.drive.enabled 0xA5 1 % 4; if v = 3 then 0 else v
/-- A field-oriented axis without an encoder: it starts through R264. -/
def AxisRt.sensorless (a : AxisRt) : Bool := a.kind == 2 && a.focFb != 1
/-- Motion waits for the probe, the braking of the rotor or the alignment. -/
def AxisRt.focHeld (a : AxisRt) : Bool := a.drive.foc == .probe || a.drive.foc == .brake || a.drive.foc == .align
/-- A speed in pos/s as mechanical rpm. -/
def AxisRt.toRpm (a : AxisRt) (v : Rat) : Rat := if a.posPerRev = 0 then 0 else v * 60 / (a.posPerRev : Rat)

/-- A command energises the ports at its tick: at I_RUN (R255, R258); a sensorless axis at rest begins with its probe or alignment. -/
def Mach.axWake (m : Mach) (n : Nat) : Mach :=
  let a := m.axis n
  let start := a.sensorless && a.drive.foc == .off
  let m := if a.drive.bridge = .driven ∨ a.drive.bridge = .standstill then m else m.chopStart n
  (m.commanded n).modAxis n (fun a => { a with replan := a.replan || start, drive := { a.drive with
    bridge := .driven, level := .run
    foc := if start then (if a.drive.flyDue then .probe else .align) else a.drive.foc
    focSince := if start then m.time else a.drive.focSince } })

/-! ### Motion ordered by an axis's owner (R239) -/

/-- A move to a position under the entry's limits. -/
def Mach.axGo (m : Mach) (n : Nat) (target : Rat) : Mach :=
  if !(m.axEnabled n) then m
  else
    let m := m.axWake n
    let a := m.axis n
    if a.focHeld then (m.modAxis n (fun a => { a with mode := .position (roundRat target), replan := true })).setAxState n axMoving else
    let (ps, _) := movePieces a.aMax a.dMax a.jMax a.vMax (m.axVel n) (target - m.axPos n)
    (m.modAxis n (fun a => { a.planFrom m.now10 ps with mode := .position (roundRat target) })).setAxState n axMoving

/-- A move at a velocity under the entry's limits. -/
def Mach.axRun (m : Mach) (n : Nat) (v : Rat) : Mach :=
  if !(m.axEnabled n) then m
  else
    let m := m.axWake n
    let a := m.axis n
    if a.focHeld then (m.modAxis n (fun a => { a with mode := .velocity (roundRat v), replan := true })).setAxState n axVelocity else
    let v := if v < -(a.vMax : Rat) then -(a.vMax : Rat) else if (a.vMax : Rat) < v then (a.vMax : Rat) else v
    let turn := turnPiece (m.axVel n) (a.accAt10 m.now10) a.jMax
    let v1 := match turn.getLast? with | some p => p.v1 | none => m.axVel n
    let ps := joinPieces turn (velocityPieces a.aMax a.dMax a.jMax v1 v)
    let ps := if ps = [] then [flatPiece 0 0 0 v] else ps
    (m.modAxis n (fun a => { a.planFrom m.now10 ps with mode := .velocity (roundRat v) })).setAxState n axVelocity

/-- A velocity under an acceleration of the owner's own, without jerk (R213, R215). -/
def Mach.axRunUnder (m : Mach) (n : Nat) (acc v : Rat) : Mach :=
  if !(m.axEnabled n) then m
  else
    let m := m.axWake n
    if (m.axis n).focHeld then (m.modAxis n (fun a => { a with mode := .velocity (roundRat v), replan := true })).setAxState n axVelocity else
    let ps := velocityPieces acc acc 0 (m.axVel n) v
    let ps := if ps = [] then [flatPiece 0 0 0 v] else ps
    (m.modAxis n (fun a => { a.planFrom m.now10 ps with mode := .velocity (roundRat v) })).setAxState n axVelocity

/-- A move over a distance from rest at a speed and acceleration of the owner's own, without jerk (R213). -/
def Mach.axGoUnder (m : Mach) (n : Nat) (acc v dist : Rat) : Mach :=
  if !(m.axEnabled n) then m
  else
    let m := m.axWake n
    let target := roundRat (m.axPos n + dist)
    if (m.axis n).focHeld then (m.modAxis n (fun a => { a with mode := .position target, replan := true })).setAxState n axMoving else
    (m.modAxis n (fun a => { a.planFrom m.now10 (restMove acc acc 0 v dist) with mode := .position target })).setAxState n axMoving

/-- A current set-point in mA. -/
def Mach.axAmps (m : Mach) (n : Nat) (ma : Int) : Mach :=
  if !(m.axEnabled n) then m
  else (((m.axWake n).modAxis n (fun a => { a.settleAt m.now10 with mode := .current ma, vel := 0, acc := 0 }))).setAxState n axCurrent

/-- Enable an axis (R247, R253): IDLE at rest, the drive fields and the microstep table read, its encoder reference set so
that AX_POS_ENC meets the planned position (R243), its ports driven at an amplitude that the spec
leaves open until motion or the standstill action (log entry 3); a sensorless axis owes its flying start (R265). -/
def Mach.axEnableCore (m : Mach) (n : Nat) : Mach :=
  let a := m.axis n
  let cnt : Rat := if a.enc = 0xFF then 0 else (m.gi 32 (K.QE_COUNT a.enc) : Rat) * (a.encRatio : Rat) / 65536
  let m := m.modAxis n (fun a => { a with
    mode := .rest, plan := none, queue := [], vel := 0, acc := 0, encRef := a.pos - cnt, restSince := m.time, limited := false
    drive := { enabled := a.work, table := m.g K.DRV_MSTEP_TABLE, bridge := .standstill, level := .open_, amp := Config.freeInt m.fresh, flyDue := bit (fld a.work 0xD0 1) 0 } })
  (({ m with fresh := m.fresh + 1 }.chopStart n).put (K.AX_ENABLE n) 1).setAxState n axIdle

/-- Disable an axis (R237, R250): ports in high impedance, position lost (R238). An armed command stays until its group starts (R235). -/
def Mach.axDisableCore (m : Mach) (n : Nat) : Mach :=
  let m := m.modAxis n (fun a => { a.settleAt m.now10 with
    mode := .rest, vel := 0, acc := 0, queue := []
    drive := { a.drive with bridge := .highZ, foc := .off, level := .none, energised := false } })
  (m.puts [(K.AX_ENABLE n, 0), (K.AX_POS_LOST n, 1)]).setAxState n axDisabled

/-- Millimetres on the path as pos of an axis. -/
def mmToPos (n : Nat) (mm : Rat) : Rat := mm * (Config.posPerMm n : Rat) / 65536

/-- An actuator energised or released (R222). -/
def Mach.axActuate (m : Mach) (n : Nat) (on : Bool) : Mach :=
  if !(m.axEnabled n) ∨ (m.axis n).kind ≠ 4 then m
  else
    let m := if on && !(m.axis n).drive.energised then m.chopStart n else m
    ((m.commanded n).modAxis n (fun a => { a with drive := { a.drive with
      energised := on, pullSince := if on && !a.drive.energised then m.time else a.drive.pullSince
      level := if !on then .none else if a.drive.energised then a.drive.level else .run
      bridge := if on then .driven else .highZ } })).put (K.AX_TARGET n) (b2n on)

end Sys2Proof.Machine
end

