-- ==== Sys2Proof/Machine/Thermal.lean ====
section
/-! DEFINITION. The thermal energy model: dot energies (R76-R82), hiding (R134, R135), the substrate prediction (R84,
R85), and the speed planning of one head (R88). All arithmetic is REAL32 in the order the spec writes it. -/

namespace Sys2Proof.Machine

/-- Exact rational as REAL32. -/
abbrev r32 (q : Rat) : R32 := R32.round q

/-- A list entry at an integer place, 0 outside. -/
def r32At (l : List R32) (i : Int) : R32 := if i < 0 then .zero else l.getD i.toNat .zero

/-! ### The item record, R29 -/

def Item.f (it : Item) (off n : Nat) : Nat := fld it.record off n
def Item.station (it : Item) : Nat := it.f 0x02 1
def Item.isSL (it : Item) : Bool := it.station == 0x10
def Item.inspect (it : Item) : Bool := bit (it.f 0x03 1) 0
def Item.hold (it : Item) : Bool := bit (it.f 0x03 1) 1
def Item.mediaClass (it : Item) : Nat := it.f 0x04 1 % 16
def Item.calSet (it : Item) : Nat := it.f 0x05 1 % 16
def Item.imageFormat (it : Item) : Nat := it.f 0x06 1
def Item.pattern (it : Item) : Nat := it.f 0x07 1 % 16
def Item.passes (it : Item) : Nat := if it.isSL then 1 else it.f 0x07 1 / 16
def Item.width (it : Item) : Nat := it.f 0x08 2
def Item.xOffset (it : Item) : Nat := it.f 0x0A 2
def Item.length (it : Item) : Nat := it.f 0x0C 4
def Item.imageBase (it : Item) : Nat := it.f 0x10 5
def Item.stride (it : Item) : Nat := it.f 0x18 4
def Item.preFeed (it : Item) : Nat := it.f 0x1C 2
def Item.postFeed (it : Item) : Nat := it.f 0x1E 2
def Item.speed (it : Item) : Nat := it.f 0x20 2
def Item.minSpeed (it : Item) : Nat := it.f 0x22 2
def Item.endAction (it : Item) : Nat := it.f 0x24 1
def Item.vwinCount (it : Item) : Nat := it.f 0x25 1
def Item.notBefore (it : Item) : Nat := it.f 0x28 8
def Item.vwinList (it : Item) : Nat := it.f 0x30 5
def Item.resultBuf (it : Item) : Nat := it.f 0x38 5
def Item.hostTag (it : Item) : Nat := it.f 0x40 4
/-- Bytes of one image line. -/
def Item.lineBytes (it : Item) : Nat :=
  match it.imageFormat with
  | 0 => 2 * it.width
  | 1 => it.width
  | _ => (it.width + 7) / 8
/-- The station's place in station lists: 0-3, and 4 for SL. -/
def Item.stIndex (it : Item) : Nat := if it.isSL then 4 else it.station

/-- Whether an item is in flight (R33). -/
def Item.inFlight (it : Item) : Bool :=
  match it.state with
  | .rendering => true | .committed => true | .admitted => true | .printing => true
  | .defined => false | .done => false | .spoiled => false | .cancelled => false

/-- Whether an item is in a final state. -/
def Item.final (it : Item) : Bool :=
  match it.state with
  | .done => true | .spoiled => true | .cancelled => true
  | .defined => false | .rendering => false | .committed => false | .admitted => false | .printing => false

/-! ### Tones and masks, R29, R82, R112, R135, R141 -/

/-- The tone of an image dot, 0 outside the image (R29); open where its reserved bits are set (R6). -/
def imageTone (mem : Mem) (it : Item) (line : Int) (s : Int) : Nat :=
  let x := s - (it.xOffset : Int)
  if line < 0 ∨ (it.length : Int) ≤ line ∨ x < 0 ∨ (it.width : Int) ≤ x then 0
  else
    let a := it.imageBase + line.toNat * it.stride
    let xn := x.toNat
    match it.imageFormat with
    | 0 => let v := mem.read (a + 2 * xn) 2; if v < 512 then v else Config.reservedTone (a + 2 * xn) v % 512
    | 1 => let v := (mem.byte (a + xn)).toNat; v * 2 + bitN v 7
    | _ => if bit (mem.byte (a + xn / 8)).toNat (xn % 8) then 511 else 0

/-- A pass-mask bit (R112). -/
def maskBit (mask : Nat) (line : Int) (s : Int) : Bool :=
  bit mask ((line % 64).toNat * 64 + (s % 64).toNat)

/-- What one head's energy rendering reads. mapX and latX belong to the other head of a pair. -/
structure HeadCtx where
  dots : Nat
  ert : Nat
  model : Nat
  gain : Nat
  res : Nat
  map : Nat
  w1 : Nat
  w2 : Nat
  vnom : R32
  lat : Int
  skew : Int
  tandem : Bool
  fallback : Bool
  lead : Bool
  otherDots : Nat
  otherMap : Nat
  otherLat : Int
  masks : List Nat

/-- Class of a dot in a dot map (R132). -/
def dotClass (map d : Nat) : Nat := fld map d 1 % 8
def dotHide (map d : Nat) : Nat := fld map d 1 / 8 % 4
def dotLock (map d : Nat) : Bool := bit (fld map d 1) 5
/-- A dot is dead in classes 2-5 (R132). -/
def dotDead (map d : Nat) : Bool := decide (2 ≤ dotClass map d ∧ dotClass map d ≤ 5)

/-- The station dot a head dot prints (R141). -/
def HeadCtx.stationDot (c : HeadCtx) (d : Nat) : Int := (d : Int) - c.lat

/-- Whether the partner of head dot d is usable (R135). -/
def HeadCtx.partnerUsable (c : HeadCtx) (d : Nat) : Bool :=
  let o := c.stationDot d + c.otherLat
  c.tandem && !c.fallback && decide (0 ≤ o ∧ o < (c.otherDots : Int)) && !(dotDead c.otherMap o.toNat)

/-- Whether the other head hands its dead dot over to this head's dot d (R135). -/
def HeadCtx.handedOver (c : HeadCtx) (d : Nat) : Bool :=
  let o := c.stationDot d + c.otherLat
  c.tandem && !c.fallback && decide (0 ≤ o ∧ o < (c.otherDots : Int)) && dotDead c.otherMap o.toNat
    && (dotHide c.otherMap o.toNat == 2 || dotHide c.otherMap o.toNat == 3) && !(dotDead c.map d)

/-- Whether head dot d fires image line l of pass q by the mask and the partner rules (R112, R119, R135). -/
def HeadCtx.assigned (c : HeadCtx) (l : Int) (q d : Nat) : Bool :=
  let b := maskBit (c.masks.getD q 0) l (c.stationDot d)
  if c.fallback then true
  else if !c.tandem then b
  else if dotDead c.map d && (dotHide c.map d == 2 || dotHide c.map d == 3 && c.partnerUsable d) then false
  else if c.handedOver d then true
  else b == c.lead

/-- The tone of head dot d on trigger line l of pass q (R76, R82, R141); the lines before line 0 are blank (R80). -/
def HeadCtx.tone (c : HeadCtx) (mem : Mem) (it : Item) (l : Int) (q d : Nat) : Nat :=
  let sh := if c.dots ≤ 1 then 0 else roundRat ((c.skew * d : Int) / ((16 * (c.dots - 1) : Nat) : Rat))
  let il := l - sh
  if l < 0 ∨ il < 0 ∨ (it.length : Int) ≤ il then 0
  else if c.assigned il q d then imageTone mem it il (c.stationDot d) else 0

/-! ### Dot energy, R76-R81 -/

/-- A REAL32 field of the model record (R81). -/
def HeadCtx.mf (c : HeadCtx) (off : Nat) : R32 := R32.ofBits (fld c.model off 4)

/-- Whether a model record gives a defined plan (R81). -/
def modelValid (model : Nat) : Bool :=
  let f (off : Nat) : R32 := R32.ofBits (fld model off 4)
  decide (1 ≤ fld model 0 1 ∧ fld model 0 1 ≤ 16)
    && [0x04, 0x0C, 0x10, 0x14, 0x18, 0x1C, 0x20, 0x24, 0x28, 0x2C, 0x30, 0x34, 0x3C].all
        (fun o => (f o).isFin && R32.le .zero (f o))
    && (f 0x08).isFin && R32.lt .zero (f 0x04) && R32.lt .zero (f 0x0C)

/-- The state carried from line to line: temperature rises and the energies of the last eight lines, latest first. -/
structure DotState where
  th : List R32
  tg : List R32
  tm : List R32
  hist : List (List R32)

/-- Step coefficient of a rate (R79). -/
def stepCoef (rate dt : R32) : R32 := R32.min (R32.mul rate dt) (r32 (1 / 4))

/-- One solve step for all dots (R79). -/
def HeadCtx.solveStep (c : HeadCtx) (dt : R32) (st : DotState) : DotState :=
  let a (o : Nat) : R32 := stepCoef (c.mf o) dt
  let hg := a 0x10; let hl := a 0x14; let gh := a 0x18; let gm := a 0x1C; let gs := a 0x20
  let mg := a 0x24; let ma := a 0x28; let ml := a 0x2C
  let two := r32 2
  let one := r32 1
  let sub := R32.sub; let add := R32.add; let mul := R32.mul
  let idx := (List.range st.th.length).map (fun i : Nat => (i : Int))
  { st with
    th := idx.map fun i => add (add (mul (r32At st.th i) (sub (sub one hg) (mul two hl))) (mul hg (r32At st.tg i)))
      (mul hl (add (r32At st.th (i - 1)) (r32At st.th (i + 1))))
    tg := idx.map fun i => add (add (mul (r32At st.tg i) (sub (sub (sub one gh) gm) gs)) (mul gh (r32At st.th i)))
      (mul gm (r32At st.tm i))
    tm := idx.map fun i => add (add (mul (r32At st.tm i) (sub (sub (sub one mg) ma) (mul two ml))) (mul mg (r32At st.tg i)))
      (mul ml (add (r32At st.tm (i - 1)) (r32At st.tm (i + 1)))) }

/-- The history term of dot place i (R76): 0 when E_NORM is 0. -/
def HeadCtx.history (c : HeadCtx) (st : DotState) (i : Int) : R32 :=
  let en := c.mf 0x3C
  if en = .zero then .zero
  else
    let kl := min (fld c.model 1 1 % 16) 8
    (List.range kl).foldl (fun h j =>
      [(-2 : Int), -1, 0, 1, 2].foldl (fun h k =>
        let w := R32.mul (R32.ofInt (sfld c.model (0x40 + 2 * (3 * j + k.natAbs)) 2)) (r32 (1 / 32768))
        R32.add h (R32.div (R32.mul w (r32At (st.hist.getD j []) (i + k))) en)) h) .zero

/-- The energies of one line before hiding, for the dots from lo (R76). -/
def HeadCtx.lineEnergy (c : HeadCtx) (period : R32) (tones : List Nat) (lo : Nat) (st : DotState) : List R32 :=
  let pt := R32.add (r32 1) (R32.mul (c.mf 0x08) (R32.sub (R32.div period (c.mf 0x04)) (r32 1)))
  tones.mapIdx (fun i t =>
    let d := lo + i
    let e := R32.mul (R32.div (R32.mul (R32.mul (R32.ofNat (fld c.ert (2 * t) 2)) (r32 (1 / 100)))
      (R32.ofNat (fld c.gain (2 * d) 2))) (r32 4096)) pt
    let h := c.history st i
    let e := R32.mul e (R32.min (R32.max (R32.sub (r32 1) h) (r32 (1 / 4))) (r32 (7 / 4)))
    let e := R32.sub e (R32.add (R32.mul (c.mf 0x30) (r32At st.th i)) (R32.mul (c.mf 0x34) (r32At st.tm i)))
    R32.max e .zero)

/-- Dead-dot hiding of one line (R134): shares come from the energies before hiding. -/
def HeadCtx.hide (c : HeadCtx) (lo : Nat) (e : List R32) : List R32 :=
  let n := e.length
  e.mapIdx (fun i own =>
    let d := lo + i
    if dotDead c.map d then .zero
    else
      [(-2 : Int), -1, 1, 2].foldl (fun acc k =>
        let j : Int := (i : Int) - k
        let src : Int := (d : Int) - k
        if j < 0 ∨ (n : Int) ≤ j ∨ src < 0 ∨ (c.dots : Int) ≤ src then acc
        else
          let sd := src.toNat
          let hidden := dotDead c.map sd && (dotHide c.map sd == 1 || dotHide c.map sd == 3 && !(c.partnerUsable sd))
          if hidden then
            let w := R32.div (R32.ofNat (if k.natAbs = 1 then c.w1 else c.w2)) (r32 256)
            R32.add acc (R32.mul w (r32At e j))
          else acc) own)

/-- One line: energies after hiding and the state after the solve (R76). -/
def HeadCtx.line (c : HeadCtx) (period : R32) (tones : List Nat) (lo : Nat) (st : DotState) : List R32 × DotState :=
  let e := c.hide lo (c.lineEnergy period tones lo st)
  let st1 := { st with th := st.th.mapIdx (fun i t => R32.add t (R32.div (r32At e i) (c.mf 0x0C))) }
  let steps := fld c.model 0 1
  let dt := R32.div period (R32.ofNat steps)
  let st2 := (List.range steps).foldl (fun s _ => c.solveStep dt s) st1
  (e, { st2 with hist := (e :: st.hist).take 8 })

/-- The energies of a band, lines row*64 on of a pass, dots col*512 on, margins included in the computation (R80).
periods are the planned periods (ns) of the pass. The answer has one list of band-dot energies per line. -/
def HeadCtx.band (c : HeadCtx) (mem : Mem) (it : Item) (periods : List Nat) (q row col : Nat) : List (List R32) :=
  let d0 := col * 512
  let lo := d0 - 8
  let hi := min (d0 + 512 + 8) c.dots
  let nd := min (d0 + 512) c.dots - d0
  let n := hi - lo
  let z := List.replicate n R32.zero
  let l0 := row * 64
  let cnt := min 64 (it.length - l0)
  let go := (List.range (16 + cnt)).foldl (fun (acc : List (List R32) × DotState) (i : Nat) =>
    let l : Int := (l0 : Int) + (i : Int) - 16
    let p := periods.getD (if l < 0 then 0 else l.toNat) 0
    let period := R32.div (R32.ofNat p) (r32 1000)
    let tones := (List.range n).map (fun k => c.tone mem it l q (lo + k))
    let (e, st) := c.line period tones lo acc.2
    (if 16 ≤ i then acc.1 ++ [(e.drop (d0 - lo)).take nd] else acc.1, st)) ([], ⟨z, z, z, []⟩)
  go.1

/-- The dot word of an energy (R76): resistance entry in 0.25 ohm (R144). -/
def HeadCtx.word (c : HeadCtx) (d : Nat) (e : R32) : Nat :=
  let res := R32.div (R32.ofNat (fld c.res (2 * d) 2)) (r32 4)
  match R32.div (R32.div (R32.mul e res) (R32.mul c.vnom c.vnom)) (r32 (1 / 100)) with
  | .fin q => clampN 0 65535 (roundRat q).toNat
  | .inf neg => if neg then 0 else 65535
  | .nan => 0

/-- Dots per thermal block (R84). -/
def blockWidth (dots : Nat) : Nat := (dots + 63) / 64

/-- The rounded energy sum of a block from its dots' energies in µJ: ERT units of 10 nJ (R76). -/
def blockSum (es : List R32) : Nat :=
  match R32.mul (es.foldl R32.add .zero) (r32 100) with
  | .fin q => clampN 0 (2 ^ 32 - 1) (roundRat q).toNat
  | _ => 2 ^ 32 - 1

/-! ### Substrate model and speed planning, R84-R88 -/

/-- The substrate parameters of a head (HP_SUBSTRATE). -/
structure SubCtx where
  c0 : R32
  c1 : R32
  c2 : R32
  g01 : R32
  g12 : R32
  g2a : R32
  gl0 : R32
  gl1 : R32
  eps : R32
  thetaRef : R32
  beta : R32
  kappa : R32
  amb : R32
  limit : Int
  thmBlocks : List Nat
  lookback : Nat
  floor : Nat

/-- Node temperatures, 64 per node. -/
structure Nodes where
  n0 : List R32
  n1 : List R32
  n2 : List R32

/-- The stored block scale of a node-0 temperature (R85): units of 1/128. -/
def SubCtx.scale (c : SubCtx) (t : R32) : Nat :=
  let s := R32.sub (r32 1) (R32.mul c.beta (R32.sub t c.thetaRef))
  let s := R32.min (R32.max s .zero) (r32 (255 / 128))
  clampN 0 255 (roundRat ((R32.mul (r32 128) s).val)).toNat

/-- A temperature in 1/16 °C, INTEGER16. -/
def sixteenth (t : R32) : Int :=
  match R32.mul t (r32 16) with
  | .fin q => clampI (-32768) 32767 (roundRat q)
  | .inf neg => if neg then -32768 else 32767
  | .nan => 0

/-- Number of substeps of a line of T seconds (R84). -/
def SubCtx.substeps (c : SubCtx) (T : R32) : Nat :=
  let two := r32 2
  let q0 := R32.div (R32.add c.g01 (R32.mul two c.gl0)) c.c0
  let q1 := R32.div (R32.add (R32.add c.g01 c.g12) (R32.mul two c.gl1)) c.c1
  let q2 := R32.div (R32.add c.g12 c.g2a) c.c2
  let q := R32.max (R32.max q0 q1) q2
  max 1 ((R32.mul (R32.mul (r32 4) T) q).val.ceil.toNat)

/-- One Euler substep of dt seconds with the block powers in mW (R84). -/
def SubCtx.substep (c : SubCtx) (dt : R32) (pw : List R32) (s : Nodes) : Nodes :=
  let sub := R32.sub; let mul := R32.mul; let add := R32.add
  let lat (g : R32) (l : List R32) (b : Nat) : R32 :=
    let x := r32At l b
    let left := if b = 0 then R32.zero else sub x (r32At l ((b : Int) - 1))
    let right := if b = 63 then R32.zero else sub x (r32At l ((b : Int) + 1))
    mul g (add left right)
  let ix := List.range 64
  { n0 := ix.map fun (b : Nat) => add (r32At s.n0 b) (R32.div (mul dt
      (sub (sub (r32At pw b) (mul c.g01 (sub (r32At s.n0 b) (r32At s.n1 b)))) (lat c.gl0 s.n0 b))) c.c0)
    n1 := ix.map fun (b : Nat) => add (r32At s.n1 b) (R32.div (mul dt
      (sub (sub (mul c.g01 (sub (r32At s.n0 b) (r32At s.n1 b))) (mul c.g12 (sub (r32At s.n1 b) (r32At s.n2 b))))
        (lat c.gl1 s.n1 b))) c.c1)
    n2 := ix.map fun (b : Nat) => add (r32At s.n2 b) (R32.div (mul dt
      (sub (mul c.g12 (sub (r32At s.n1 b) (r32At s.n2 b))) (mul c.g2a (sub (r32At s.n2 b) c.amb)))) c.c2) }

/-- What the prediction of one line gives: thermistor predictions (1/16 °C), block scales, the highest node-0 temperature with its
block, and whether a block exceeds the limit. -/
structure LineHead where
  thm : List Int
  scales : List Nat
  hot : R32
  hotBlock : Nat
  tooHot : Bool

/-- Header of a line from the nodes at its start (R85, R88). Of blocks with the same temperature the first is the hottest (DESIGN CHOICE,
log entry 80). -/
def SubCtx.header (c : SubCtx) (s : Nodes) : LineHead :=
  let m := (enumFrom 0 s.n0).foldl (fun (acc : R32 × Nat) p => if R32.lt acc.1 p.2 then (p.2, p.1) else acc)
    (r32At s.n0 0, 0)
  { thm := c.thmBlocks.map (fun (b : Nat) => sixteenth (r32At s.n0 b)),
    scales := s.n0.map c.scale, hot := m.1, hotBlock := m.2,
    tooHot := s.n0.any (fun t => R32.lt (r32 ((c.limit : Rat) / 16)) t) }

/-- Advance one line: period in ns, block sums in ERT units, estimate factor (R84, R88). -/
def SubCtx.advance (c : SubCtx) (h : LineHead) (period : Nat) (sums : List Nat) (est : R32) (s : Nodes) : Nodes :=
  let T := R32.div (R32.ofNat period) (r32 1000000000)
  let pw := (List.range 64).map (fun b =>
    let sb := R32.div (R32.ofNat (h.scales.getD b 0)) (r32 128)
    let e := R32.mul (R32.mul (R32.mul c.eps sb) (R32.mul (R32.ofNat (sums.getD b 0)) est)) (r32 (1 / 100000))
    R32.div e T)
  let n := c.substeps T
  let dt := R32.div T (R32.ofNat n)
  (List.range n).foldl (fun s _ => c.substep dt pw s) s

/-- Estimate factor of a line whose energies are stale (R88, R89): period now against period rendered. -/
def SubCtx.estimate (c : SubCtx) (now rendered : Nat) : R32 :=
  let diff := if now < rendered then rendered - now else now - rendered
  if 64 * diff ≤ rendered then r32 1
  else R32.add (r32 1) (R32.mul c.kappa (R32.sub (R32.div (R32.ofNat now) (R32.ofNat rendered)) (r32 1)))

/-- Simulate line records from a place on: headers of every record and the node states, as far as records go. -/
def SubCtx.simulate (c : SubCtx) (sums : Nat → List Nat) (periods rendered : List Nat) (s0 : Nodes) (from_ : Nat)
    (total : Nat) : List LineHead × List Nodes × Nodes :=
  (List.range (total - from_)).foldl (fun (acc : List LineHead × List Nodes × Nodes) i =>
    let r := from_ + i
    let h := c.header acc.2.2
    let p := periods.getD r 0
    let s := c.advance h p (sums r) (c.estimate p (rendered.getD r p)) acc.2.2
    (acc.1 ++ [h], acc.2.1 ++ [acc.2.2], s)) ([], [], s0)

/-- What a plan band reports (R88). -/
structure PlanReport where
  refused : Bool
  speeds : List Nat
  periods : List Nat
  headers : List LineHead
  exit : Nodes

/-- First line record whose node 0 exceeds the limit. -/
def firstOver (hs : List LineHead) : Option Nat := hs.findIdx? (fun h => h.tooHot)

/-- Lower the segments of a look-back window (R88); no segment changes when the planner is frozen (R91). -/
def lowerSegments (frozen : Bool) (floor look i : Nat) (v : List Nat) : List Nat :=
  v.mapIdx (fun k s => if !frozen && decide (i - look ≤ k ∧ k ≤ i ∧ floor < s) then max floor (s - ceilDiv s 16) else s)

/-- The planning loop of one head (R88). segOf maps a line record to its segment, firstRec a segment to its first
record; profile rebuilds the periods of every record from the segment speeds. -/
def SubCtx.planLoop (c : SubCtx) (frozen : Bool) (sums : Nat → List Nat) (rendered : List Nat) (total : Nat)
    (segOf firstRec : Nat → Nat) (profile : List Nat → List Nat) :
    Nat → List Nat → List Nat → List LineHead → List Nodes → Nodes → PlanReport
  | 0, v, ps, hs, _, ex => ⟨true, v, ps, hs, ex⟩
  | fuel + 1, v, ps, hs, ns, ex =>
    match firstOver hs with
    | none => ⟨false, v, ps, hs, ex⟩
    | some l =>
      let i := segOf l
      let v' := lowerSegments frozen c.floor c.lookback i v
      if v' = v then ⟨true, v, ps, hs, ex⟩
      else
        let ps' := profile v'
        let r := firstRec (i - c.lookback)
        let (h2, n2, e2) := c.simulate sums ps' rendered (ns.getD r ex) r total
        c.planLoop frozen sums rendered total segOf firstRec profile fuel v' ps' (hs.take r ++ h2) (ns.take r ++ n2) e2

/-- What a checkpoint of a plan band holds beside its round (R56): the segment speeds decided so far, the segment up to which no line was
found above HP_TEMP_LIMIT, and the node states at the start of the segment 16 before it. -/
structure PlanMark where
  speeds : List Nat
  upTo : Nat
  nodes : Nodes

/-- The checkpoint after so many more simulated lines, lines simulated again counted (R56): hs and ns are those of a simulation
from a record on. -/
def SubCtx.markLoop (c : SubCtx) (frozen : Bool) (sums : Nat → List Nat) (rendered : List Nat) (total : Nat)
    (segOf firstRec : Nat → Nat) (profile : List Nat → List Nat) :
    Nat → Nat → Nat → List Nat → List LineHead → List Nodes → Nodes → Option PlanMark
  | 0, _, _, _, _, _, _ => none
  | fuel + 1, left, from_, v, hs, ns, ex =>
    if left ≤ total - from_ then
      let k := segOf ((firstOver (hs.take (from_ + left))).getD (from_ + left - 1))
      some ⟨v, k, ns.getD (firstRec (k - 16)) ex⟩
    else
      match firstOver hs with
      | none => none
      | some l =>
        let i := segOf l
        let v' := lowerSegments frozen c.floor c.lookback i v
        if v' = v then none
        else
          let r := firstRec (i - c.lookback)
          let (h2, n2, e2) := c.simulate sums (profile v') rendered (ns.getD r ex) r total
          c.markLoop frozen sums rendered total segOf firstRec profile fuel (left - (total - from_)) r v' (hs.take r ++ h2)
            (ns.take r ++ n2) e2

/-- The whole plan of one head from its entry state (R86, R88). -/
def SubCtx.plan (c : SubCtx) (frozen : Bool) (sums : Nat → List Nat) (rendered : List Nat) (total : Nat)
    (segOf firstRec : Nat → Nat) (profile : List Nat → List Nat) (v : List Nat) (entry : Nodes) : PlanReport :=
  let ps := profile v
  let (hs, ns, ex) := c.simulate sums ps rendered entry 0 total
  c.planLoop frozen sums rendered total segOf firstRec profile (65536 * 16) v ps hs ns ex

/-- The checkpoint that a plan writes after simulating so many lines, if it simulates as many (R56). -/
def SubCtx.markAt (c : SubCtx) (frozen : Bool) (sums : Nat → List Nat) (rendered : List Nat) (total : Nat)
    (segOf firstRec : Nat → Nat) (profile : List Nat → List Nat) (v : List Nat) (entry : Nodes) (lines : Nat) : Option PlanMark :=
  let (hs, ns, ex) := c.simulate sums (profile v) rendered entry 0 total
  c.markLoop frozen sums rendered total segOf firstRec profile (65536 * 16) lines 0 v hs ns ex

end Sys2Proof.Machine
end

