-- ==== Sys2Proof/Machine/ItemOps.lean ====
section
/-! DEFINITION. What every unit does to items (R32-R53): the table, the plan pool, cancelling, spoiling with its effect
on strobes, feed and hold, the station hold, and the item events. -/

namespace Sys2Proof.Machine

open Sys2Proof

/-- Raise an item event (R54): ITEM_ID, new state, reason, HOST_TAG. -/
def Mach.itemEvent (m : Mach) (code id : Nat) : Mach :=
  match m.item? id with
  | none => m
  | some it => m.raise code [id, it.stateCode, it.reason, it.hostTag]

/-! ### Stations -/

/-- The ports that fire for a station's new items (TH_ST_ACTIVE_PORTS). -/
def Mach.activePorts (m : Mach) (st : Nat) : List Nat := bitsSet 4 (m.g (K.TH_ST_ACTIVE_PORTS st))
/-- The ports a station was configured with (R124). -/
def Mach.stationPorts (m : Mach) (st : Nat) : List Nat := bitsSet 4 (m.h (K.TH_PORTS st))
def Mach.configured (m : Mach) (st : Nat) : Bool := decide (st < 4) && m.gb (K.TH_CONFIGURED st)
/-- The station a head port belongs to, if a configured one names it. -/
def Mach.stationOf (m : Mach) (h : Nat) : Option Nat :=
  (List.range 4).find? (fun st => m.configured st && (m.stationPorts st).contains h)
def Mach.feedAxis (m : Mach) (st : Nat) : Option Nat :=
  let a := m.h (K.TH_FEED_AXIS st)
  if a = 0xFF then none else some a

/-- Whether a station is present and configured for items (R31): a thermal station by TH_CONFIGURED; SL has no such
object, so its presence is enough. -/
def Mach.stationDefined (m : Mach) (st : Nat) : Bool :=
  if st = 0x10 then m.hasSL else decide (st < m.nStations) && m.configured st

/-- A station's readiness from its ports (R353). -/
def Mach.stationReadiness (m : Mach) (st : Nat) : Nat :=
  if !(m.configured st) then vOff
  else
    let r := (m.activePorts st).map (fun h => m.ready (rdyHead h))
    if r.contains vFault then vFault
    else if r.contains vOff || r.contains vStarting || r.contains vUpdating then vStarting
    else if m.g (K.TH_ST_MODE st) = 2 || r.contains vDegraded then vDegraded
    else vReady

/-- Bring every thermal station's readiness up to date. -/
def Mach.refreshStations (m : Mach) : Mach := upto m.nStations m (fun m st => m.setReady (rdyStation st) (m.stationReadiness st))

/-- Set a head port's readiness: event base + 0x09 besides 0x2002, and its station's readiness follows (R125, R353). -/
def Mach.setHeadReady (m : Mach) (h v : Nat) : Mach :=
  if m.ready (rdyHead h) = v then m
  else (((m.setReady (rdyHead h) v).raiseHp h 0x09 [v])).refreshStations

/-- The items of a station (0-3, 4 for SL) in a state, in definition order. -/
def Mach.itemsOf (m : Mach) (st : Nat) (p : Item → Bool) : List Item := m.items.filter (fun it => it.stIndex == st && p it)
def Mach.printingItem (m : Mach) (st : Nat) : Option Item := (m.itemsOf st (fun it => it.state == .printing)).head?

/-! ### Plan pool, R14, R34 -/

def poolSize : Nat := 768 * 1024 * 1024
/-- First address of the plan pool inside the device area. -/
def poolBase : Nat := 0xC0000000 + Config.planPoolOffset % (256 * 1024 + 1) * 1024

/-- Reserved spans, by address. -/
def Mach.poolSpans (m : Mach) : List (Nat × Nat) :=
  let l := m.items.filterMap Item.span ++ m.items.filterMap Item.sumSpan
  l.foldl (fun acc p => insertBy (fun (a b : Nat × Nat) => decide (a.1 < b.1)) p acc) []
where
  insertBy (before : Nat × Nat → Nat × Nat → Bool) (x : Nat × Nat) : List (Nat × Nat) → List (Nat × Nat)
    | [] => [x]
    | y :: l => if before x y then x :: y :: l else y :: insertBy before x l

def Mach.poolUsed (m : Mach) : Nat := m.poolSpans.foldl (fun a p => a + p.2) 0

/-- The next multiple of 64 bytes: where a reservation may start (log entry 21). -/
def align64 (a : Nat) : Nat := ceilDiv a 64 * 64

/-- The lowest gap that holds n bytes from a multiple of 64 (DESIGN CHOICE: first fit, log entry 21). -/
def firstFit (n : Nat) : Nat → List (Nat × Nat) → Option Nat
  | at_, [] => if at_ + n ≤ poolBase + poolSize then some at_ else none
  | at_, (a, k) :: l => if at_ + n ≤ a then some at_ else firstFit n (align64 (max at_ (a + k))) l

def Mach.poolFind (m : Mach) (n : Nat) : Option Nat := firstFit n poolBase m.poolSpans

/-- Bytes of a line record (R83). -/
def lineRecordBytes (dots : Nat) : Nat := ceilDiv (96 + 2 * dots) 32 * 32

/-- Dots of a head port, as read when it was enabled (R101). -/
def Mach.headDots (m : Mach) (h : Nat) : Nat := m.h (K.HP_DOTS h)

/-- Pool bytes a thermal item needs until it leaves flight, and its block sums until commit (R14, R83, R291). -/
def Mach.thermalNeed (m : Mach) (it : Item) (heads : List Nat) : Nat × Nat :=
  let recs := it.length * it.passes
  let plans := heads.foldl (fun a h => a + recs * lineRecordBytes (m.headDots h) + 1024) 0
  let refs := if it.inspect then heads.foldl (fun a h => a + recs * m.headDots h) 0 else 0
  (plans + 2 * segCount it.length + refs, recs * 256 * heads.length)

/-- Bytes of one scan line of a video image (R182). -/
def videoStride (width : Nat) : Nat := ceilDiv (ceilDiv width 2) 64 * 64
/-- Pool bytes of a page: its video image, and its inspection reference of one byte per pixel (R14, R182). R291 gives the reference of a
head; a page's is taken as one byte for each pixel of its image (DESIGN CHOICE, log entry 34). -/
def pageNeed (it : Item) : Nat := 64 + it.length * videoStride it.width + (if it.inspect then it.length * it.width else 0)

def Mach.poolNeed (m : Mach) (it : Item) : Nat × Nat :=
  if it.isSL then (pageNeed it, 0) else m.thermalNeed it (m.activePorts it.station)

/-! ### IT_ views, R52 -/

def Mach.inFlightCount (m : Mach) : Nat := (m.items.filter Item.inFlight).length
def Mach.poolFreeKiB (m : Mach) : Nat := (poolSize - m.poolUsed) / 1024

/-! ### Feed limits of an item, R38 -/

/-- A value of an item's commit snapshot (R38). -/
def Item.s (it : Item) (k : Nat) : Nat := Store.get objDefault k it.snap

/-- A commit-sampled value as the item that a motion serves holds it; the value in force for motion that serves none (R38). -/
def Mach.lim (m : Mach) (id : Option Nat) (k : Nat) : Nat :=
  match id with
  | none => m.g k
  | some i => match m.item? i with | some it => it.s k | none => m.g k

/-- TH_ACCEL, TH_STOP_DECEL (pos/s²) and TH_JERK (pos/s³) of a station's feed for an item. -/
def Mach.accelOf (m : Mach) (st : Nat) (id : Option Nat) : Rat := m.feedAccel st (m.lim id (K.TH_ACCEL st))
def Mach.stopOf (m : Mach) (st : Nat) (id : Option Nat) : Rat := m.feedAccel st (m.lim id (K.TH_STOP_DECEL st))
def Mach.jerkOf (m : Mach) (st : Nat) (id : Option Nat) : Rat := m.feedAccel st (m.lim id (K.TH_JERK st))

/-! ### Leaving flight -/

/-- Whether a band belongs to an item. -/
def Band.of (b : Band) (id : Nat) : Bool := b.item == id

/-- Discard an item's band work (R44, R58): waiting descriptors at once; a band in progress runs on with its output
discarded. -/
def Mach.dropBands (m : Mach) (id : Nat) : Mach :=
  { m with
    ledger := m.ledger.filter (fun b => !(b.of id))
    clusters := m.clusters.map (fun c => { c with
      queue := c.queue.filter (fun b => !(b.of id))
      cloves := c.cloves.map (fun v => { v with
        deque := v.deque.filter (fun b => !(b.of id))
        cur := v.cur.map (fun b => if b.of id then { b with discard := true } else b) }) }) }

/-- Bring an item to a final state with a reason: end time, pool memory and band work released (R33, R44). -/
def Mach.finish (m : Mach) (id : Nat) (st : ItemState) (reason : Nat) : Mach :=
  (m.modItem id (fun it => { it with state := st, reason, tEnd := m.time, span := none, sumSpan := none })).dropBands id

/-- An item leaves its station untouched: its alignment and ribbon-save runs are dropped, the feed axis withdraws its
profiles (R43, R44). -/
def Mach.withdraw (m : Mach) (it : Item) : Mach :=
  if it.isSL then m
  else
    let m := { m with stations := m.stations.modify it.station (fun (x : StationRt) => { x with
      aligns := x.aligns.filter (fun (r : AlignRun) => r.item != it.id)
      saves := x.saves.filter (fun (r : SaveRun) => r.item != it.id) }) }
    match m.feedAxis it.station with
    | some a => m.axWithdraw a it.id (m.stopOf it.station (some it.id)) (m.jerkOf it.station (some it.id))
    | none => m

/-- An alignment measurement fails with its item (R138): code 1, event station + 0x04 or 0x2785. -/
def Mach.calFail (m : Mach) (code : Nat) : Mach :=
  let m := m.puts [(K.TH_CAL_STATE, 4), (K.TH_CAL_FAIL, code)]
  if m.g K.TH_CAL_PATTERN = 5 then m.raise 0x2785 [code]
  else match m.item? (m.g K.TH_CAL_ITEM) with
    | some it => if it.isSL then m.raise 0x2785 [code] else m.raiseTh it.station 0x04 [code]
    | none => m

/-- Whether the optical gate that measures an item exists: its station's, or the pipeline of SL (R138). -/
def Mach.calGate (m : Mach) (it : Item) : Bool := if it.isSL then m.g K.IN_SL_PIPE != 0xFF else m.g (K.TH_OPT_PIPE it.station) != 0xFF

/-- An item is defined on which a measurement is armed: without an optical gate it fails with code 3 (R138). -/
def Mach.calDefined (m : Mach) (it : Item) : Mach :=
  if m.g K.TH_CAL_ITEM = it.id ∧ m.g K.TH_CAL_STATE = 1 ∧ m.calGate it = false then m.calFail 3 else m

/-- Fail a measurement armed on an item that ends without printing in full (R138); pattern 4 is printed by two items, and either
ends it (DEDUCED, log entry 102). -/
def Mach.calItemLost (m : Mach) (id : Nat) : Mach :=
  if (m.g K.TH_CAL_ITEM = id ∨ (m.g K.TH_CAL_PATTERN = 4 ∧ m.g K.TH_CAL_ITEM2 = id)) ∧ (m.g K.TH_CAL_STATE = 1 ∨ m.g K.TH_CAL_STATE = 2) then m.calFail 1 else m

/-- Cancel an item with a reason of R53: no medium used, event 0x2305. -/
def Mach.cancel (m : Mach) (id reason : Nat) : Mach :=
  match m.item? id with
  | none => m
  | some it => ((((m.withdraw it).finish id .cancelled reason).calItemLost id)).itemEvent 0x2305 id

/-! ### Holds, R43, R45 -/

/-- Return a station's ADMITTED items to COMMITTED: thermal ones, and pages whose pick has not begun (R43). -/
def Mach.returnAdmitted (m : Mach) (st : Nat) : Mach :=
  (m.itemsOf st (fun it => it.state == .admitted && !(it.isSL && it.pickBegun))).foldl (fun m it =>
    ((m.withdraw it).modItem it.id (fun it => { it with state := .committed })).itemEvent 0x2306 it.id) m

/-- Event 0x2307 of a station hold (R54): for the item that set it, or with item 0 where none did (R413). -/
def Mach.holdEvent (m : Mach) (id : Nat) : Mach :=
  match m.item? id with
  | none => m.raise 0x2307 [id, 0, 0, 0]
  | some _ => m.itemEvent 0x2307 id

/-- The Mordara sets a station hold (R45): IT_STATION_HOLD 1, event 0x2307 for the item, ADMITTED items returned. -/
def Mach.setHold (m : Mach) (st id : Nat) : Mach :=
  let m := if st = 4 then { m with sl := { m.sl with causeHold := true } } else m
  ((m.put (K.IT_STATION_HOLD st) 1).holdEvent id).returnAdmitted st

/-! ### Strobes, R110 -/

/-- Entries of a line that have not ended by a moment (10 ns): these are cut or dropped. -/
def FiringLine.remaining (l : FiringLine) (t10 : Nat) : Nat := (l.entries.filter (fun e => decide (t10 < e.start + e.dur))).length

/-- The groups strobed in a phase (R105). -/
def phaseGroups (groups conc p : Nat) : List Nat :=
  (List.range conc).filterMap (fun i => if p * conc + i < groups then some (p * conc + i) else none)

/-- What the strobes of a line drove up to a moment: output, from when, for how long (10 ns). -/
def FiringLine.driven (l : FiringLine) (groups conc t10 : Nat) : List (Nat × Nat × Nat) :=
  l.entries.flatMap (fun e =>
    if t10 ≤ e.start then []
    else (phaseGroups groups conc e.phase).map (fun g => (g, e.start, min e.dur (t10 - e.start))))

/-- What the strobes of a port's line drove up to a moment, by the layout of its item's snapshot. -/
def Mach.lineDrove (m : Mach) (h t10 : Nat) (l : FiringLine) : List (Nat × Nat × Nat) :=
  let it := (m.item? l.item).getD { id := 0, record := 0 }
  l.driven (it.s (K.HP_SG_GROUPS h)) (it.s (K.HP_SG_CONCURRENT h)) t10

/-- Append strobes a port drove (output, from, how long) and keep the last 10 ms. -/
def Mach.noteStrobes (m : Mach) (h t10 : Nat) (l : List (Nat × Nat × Nat)) : Mach :=
  m.modHead h (fun x => { x with strobes := (x.strobes ++ l).filter (fun (p : Nat × Nat × Nat) => decide (t10 < p.2.1 + p.2.2 + 1000000)) })

/-- End a port's strobes for a cause other than a trigger (R110): cut and dropped entries are counted, no short line. -/
def Mach.cutStrobes (m : Mach) (h t10 : Nat) : Mach :=
  match (m.head h).firing with
  | none => m
  | some l =>
    let m := m.noteStrobes h t10 (m.lineDrove h t10 l)
    (m.count (K.HP_SLOTS_CUT h) (l.remaining t10)).modHead h (fun x => { x with firing := none })

/-- No more triggers for a port: it fires nothing more for its item. -/
def Mach.disarmHead (m : Mach) (h : Nat) : Mach :=
  m.modHead h (fun x => { x with armed := false, off := none, due := [] })

/-- Whether a port's strobes are held off at a line record of the item it fires (R45). -/
def HeadRt.heldOff (x : HeadRt) (rec : Nat) : Bool :=
  match x.off with
  | none => false
  | some r => decide (r ≤ rec)

/-- The line record a port is triggered for next. -/
def HeadRt.nextRecord (x : HeadRt) (length : Nat) : Nat :=
  match x.due with
  | (r, _) :: _ => r
  | [] => x.pass * length + x.nextLine

/-! ### Spoiling, R45-R47 -/

/-- Publish the pending density gains of an inspected item's heads (R19): a head with a changed gain outside its bounds keeps
the published copy. -/
def Mach.publishGains (m : Mach) (it : Item) : Mach :=
  if !it.inspect || it.isSL then m
  else it.heads.foldl (fun m h =>
    let new := m.g (K.IN_GAIN_PENDING h)
    let old := m.g (K.HP_GAIN_PUBLISHED h)
    let ok := (List.range (m.headDots h)).all (fun d =>
      let g := fld new (2 * d) 2
      g == fld old (2 * d) 2 || decide (m.g (K.HP_GAIN_LOWER h) ≤ g ∧ g ≤ m.g (K.HP_GAIN_UPPER h)))
    if ok then m.put (K.HP_GAIN_PUBLISHED h) new else m) m

/-- What a spoil reason does to the feed of a thermal station. -/
inductive FeedAct where
  | runs | decelerates | stops
  deriving DecidableEq, Repr

def feedAct : Nat → FeedAct
  | 2 => .decelerates | 4 => .decelerates | 10 => .decelerates | 11 => .decelerates
  | 8 => .stops | 9 => .stops
  | _ => .runs

/-- Spoil reasons that set the station hold. -/
def reasonHolds (r : Nat) : Bool := [2, 3, 4, 7, 8, 9, 10, 11, 12].contains r

/-- The first line of an item that a head has not fired as planned: the line whose strobes are cut now, else the next
line it has not been triggered for (R47). -/
def Mach.headLine (m : Mach) (it : Item) (h : Nat) (cut : Bool) : Nat :=
  let x := m.head h
  let next := match x.due with
    | (r, _) :: _ => r % max 1 it.length
    | [] => x.nextLine
  match x.firing with
  | some l => if cut && l.item == it.id && decide (0 < l.remaining m.now10) then l.line else next
  | none => next

/-- The first line of a thermal item that was not printed as planned, over its heads; the scan line of a page (R47). -/
def Mach.itemLine (m : Mach) (it : Item) (cut : Bool) : Nat :=
  if it.isSL then it.linesFired
  else match it.heads.map (fun h => m.headLine it h cut) with
    | [] => 0
    | x :: xs => xs.foldl min x

/-- Whether a spoil ends the line in progress: HOST_ABORT, PEPPER and PLAN_WORD act from the next line (R45, R115). -/
def spoilCuts (reason : Nat) : Bool := !([1, 3, 5].contains reason)

/-- Hold a port's strobes off from a line record of its item on: the triggers go on and update the trim (R45, R93). -/
def Mach.holdOff (m : Mach) (h id rec : Nat) (cut : Bool) : Mach :=
  let m := if cut then m.cutStrobes h m.now10 else m
  if m.g (K.HP_ITEM h) = id then m.modHead h (fun x => { x with off := some (match x.off with | some r => min r rec | none => rec) }) else m

/-- Spoil an item (R45): state, reason, first line not printed as planned, strobes off from a line record on (each head of a pair fires
the records before it as planned, R47), feed, event 0x2304, hold. -/
def Mach.spoilFrom (m : Mach) (id reason line rec : Nat) : Mach :=
  match m.item? id with
  | none => m
  | some it =>
    if it.final then m
    else
      let m := m.modItem id (fun it => { it with spoilLine := line, mediaUsed := true, videoOff := some line })
      let m := ((m.finish id .spoiled reason).calItemLost id).publishGains it
      let m := if it.isSL then m else it.heads.foldl (fun m h => m.holdOff h id rec (spoilCuts reason)) m
      let m := m.itemEvent 0x2304 id
      let m := if it.isSL then m else match m.feedAxis it.station with
        | none => m
        | some a =>
          match feedAct reason with
          | .decelerates => m.axHalt a (m.stopOf it.station (some id))
          | .stops => let (c, m) := m.freeBelow 9; m.axCut a c
          | .runs => m
      if reasonHolds reason then m.setHold it.stIndex id else m

/-- Spoil an item with its strobes off at once. -/
def Mach.spoilAt (m : Mach) (id reason line : Nat) : Mach := m.spoilFrom id reason line 0

/-- Spoil an item at the line it has reached. -/
def Mach.spoil (m : Mach) (id reason : Nat) : Mach :=
  match m.item? id with
  | none => m
  | some it => m.spoilAt id reason (m.itemLine it (spoilCuts reason))

/-- Spoil the items printing on a station. -/
def Mach.spoilStation (m : Mach) (st reason : Nat) : Mach :=
  (m.itemsOf st (fun it => it.state == .printing)).foldl (fun m it => m.spoil it.id reason) m

end Sys2Proof.Machine
end

