-- ==== Sys2Proof/Machine/Render.lean ====
section
/-! DEFINITION. Rendering (R55-R73, R86-R92): the cutting of items into bands, deadlines, injection, deques, stealing,
faults and spares, and what a thermal band computes and stores. -/

namespace Sys2Proof.Machine

open Sys2Proof

/-! ### Order and capacity, R60, R65 -/

def BandKind.code : BandKind → Nat
  | .thermalEnergy => 0 | .thermalPlan => 1 | .laserVideo => 2 | .inspection => 3

/-- Deadline order: DEADLINE, item definition order, KIND, BAND_ROW, BAND_COL (R60). -/
def bandBefore (a b : Band) : Bool :=
  let ka := [a.deadline, a.order, a.kind.code, a.row, a.col]
  let kb := [b.deadline, b.order, b.kind.code, b.row, b.col]
  decide (ka < kb)

/-- The same band, whatever the issue. -/
def Band.same (a b : Band) : Bool :=
  a.item == b.item && a.kind == b.kind && a.unit == b.unit && a.row == b.row && a.col == b.col && a.seq == b.seq

def Clove.serving (c : Clove) : Bool := c.state == .inService && !c.loading
def Cluster.backlog (c : Cluster) : Nat := c.queue.length + c.cloves.foldl (fun a v => a + v.deque.length) 0
def Mach.clusterUp (m : Mach) (k : Nat) : Bool := m.isUp (rdyCluster k) && (m.cluster k).phase == .idle
def Mach.cloveCount (m : Mach) (k : Nat) : Nat := ((m.cluster k).cloves.filter Clove.serving).length
/-- Cloves in service on the device. -/
def Mach.clovesInService (m : Mach) : Nat :=
  (List.range m.nClusters).foldl (fun a k => if m.isUp (rdyCluster k) then a + m.cloveCount k else a) 0
/-- Net rate of one clove in MAC per µs: 6,000, or 3,000 while the throttle is enforced (R64). -/
def Mach.cloveRate (m : Mach) : Nat := if m.g K.RD_CLOVE_MHZ = 500 then 3000 else 6000

/-- Solver steps of a head's model for a class. -/
def Mach.modelSteps (m : Mach) (h cls : Nat) : Nat := fld (m.g (K.HP_MODEL_CLASS h cls)) 0 1

/-- Beams of the laser station in use (R168). -/
def Mach.beams (m : Mach) : Nat := m.h K.LS_BEAMS

/-- Facets of the polygon (R168). -/
def Mach.facets (m : Mach) : Nat := max 1 (m.h K.LS_FACETS)

/-- Stamps: steps of 31.25 ps in a µs. -/
def stampMicro : Nat := 32000

/-- Nominal facet period in stamp steps (R171). -/
def Mach.facetPeriod (m : Mach) : Rat :=
  let r := m.g K.LS_POLY_RPM
  if r = 0 then 0 else (60 : Rat) * 1000000 * (stampMicro : Rat) / ((r * m.facets : Nat) : Rat)
/-- Facet period in µs. -/
def Mach.facetMicros (m : Mach) : Rat := m.facetPeriod / (stampMicro : Rat)

/-- The smallest multiple of the beams that is at least 8 (R170). -/
def leadLines (beams : Nat) : Nat := ceilDiv 8 (max 1 beams) * max 1 beams

/-- Process speed in force, 0.1 mm/s: the one the process was started at, else the one last read (R199). -/
def Mach.procV (m : Mach) : Nat := max 1 (if m.sl.speed = 0 then m.h K.LS_PROC_SPEED else m.sl.speed)

/-- The least time between a page's release and the next one, µs (R213): K × T_f of R170 and R171 for its scan lines, or sheet
length and minimum gap at the process speed. -/
def Mach.pageGap (m : Mach) (length paper : Nat) : Nat :=
  let b := max 1 m.beams
  let k := ceilDiv (length + 2 * leadLines b) b
  max ((k : Rat) * m.facetMicros).ceil.toNat (ceilDiv ((fld paper 0 2 + m.g K.LS_MIN_GAP) * 1000000) m.procV)

/-- Render work of an item in MAC (R51). -/
def Mach.renderWork (m : Mach) (it : Item) : Nat :=
  if it.isSL then it.width * it.length * m.beams * 8
  else it.heads.foldl (fun a h => a + m.headDots h * it.length * it.passes * (32 + 10 * m.modelSteps h it.mediaClass)) 0

/-! ### Speed profiles of an item, R87, R113 -/

/-- A commit-sampled value for an item: the one in its snapshot from commit on, the present one before (R8, R38). -/
def Mach.gItem (m : Mach) (it : Item) (k : Nat) : Nat :=
  if it.state == .defined || it.state == .rendering then m.g k else it.s k

def Mach.feedLimits (m : Mach) (it : Item) : FeedLimits :=
  let st := it.station
  { accel := m.gItem it (K.TH_ACCEL st), jerk := m.gItem it (K.TH_JERK st), lineNm := m.h (K.TH_LINE_NM st) }

/-- Whether a station runs as a tandem pair now. -/
def Mach.isTandem (m : Mach) (st : Nat) : Bool := m.g (K.TH_ST_MODE st) == 1
def Mach.tandemTail (m : Mach) (it : Item) : Nat :=
  if m.isTandem it.station && !it.fallback then ceilDiv (m.gItem it (K.TH_TANDEM_OFFSET it.station)) 16 else 0

/-- Pieces, in lines, of a pass from the segment speeds. -/
def Mach.passPieces (m : Mach) (it : Item) (speeds : List Nat) : List Piece :=
  buildPieces (m.feedLimits it) (m.gItem it (K.TH_MIN_SPEED it.station)) it.preFeed it.length (m.tandemTail it) it.postFeed speeds

/-- The segment of a line record: segment i covers lines 64 i to 64 i + 63 of each pass (R87). -/
def Item.segOf (it : Item) (r : Nat) : Nat := r % max 1 it.length / 64

/-- How far a head lies behind the lead, in 1/16 line. -/
def Mach.headOffset (m : Mach) (it : Item) (h : Nat) : Nat :=
  if m.isTandem it.station && !it.fallback && h != m.h (K.TH_LEAD it.station) then m.gItem it (K.TH_TANDEM_OFFSET it.station) else 0

/-- The line periods (ns) of every line record of a head (R87, R113). -/
def Mach.headPeriods (m : Mach) (it : Item) (h : Nat) (speeds : List Nat) : List Nat :=
  (List.replicate it.passes (linePeriods (m.passPieces it speeds) it.length (m.headOffset it h))).flatten

/-- The highest speed (0.1 mm/s) of the head and of the feed axis (R87). -/
def Mach.speedLimit (m : Mach) (it : Item) : Nat :=
  let st := it.station
  let nm := m.h (K.TH_LINE_NM st)
  let hd := (it.heads.map (fun h => m.h (K.HP_PITCH h) / 5)).foldl min (2 ^ 32)
  match m.feedAxis st with
  | none => hd
  | some a =>
    let ax := m.axis a
    if ax.kind = 0 then hd
    else
      let c : Rat := m.h (K.TH_LINE_COUNTS st)
      let enc := decide (m.h (K.TH_TRIG_SRC st) ≠ 0)
      if enc && ax.encRatio == 0 then min hd (Config.noRatioLimit ax.vMax)
      else
        let lps : Rat := if enc then (ax.vMax : Rat) * 65536 / (ax.encRatio.natAbs : Rat) * 65536 / c else (ax.vMax : Rat) * 65536 / c
        min hd (lps * (nm : Rat) / 100000).floor.toNat

/-- The initial segment speed of an item: SPEED limited (R87), and capped in fallback (R119). -/
def Mach.initialSpeed (m : Mach) (it : Item) : Nat :=
  let v := min it.speed (m.speedLimit it)
  if it.fallback && it.singleCap ≠ 0 then min v it.singleCap else v

/-- Effective speed floor (R29). -/
def Mach.speedFloor (m : Mach) (it : Item) : Nat := max it.minSpeed (m.g (K.TH_MIN_SPEED it.station))

/-- Duration of an item's initial profile, µs. -/
def Mach.profileTime (m : Mach) (it : Item) (speeds : List Nat) : Nat :=
  it.passes * profileMicros (m.passPieces it speeds)

/-! ### Deadlines, R61 -/

/-- µs until the profiles on an axis's queue have run. -/
def Mach.axQueueEnd (m : Mach) (n : Nat) : Nat :=
  let a := m.axis n
  let cur := match a.mode with
    | .profile p => ((a.plan.map Plan.start10).getD 0 + p.dur10) / 100 - m.time
    | _ => 0
  m.time + cur + a.queue.foldl (fun t p => t + p.dur10 / 100) 0

/-- The release pitch of a page, µs (R213). -/
def Mach.pagePitch (m : Mach) (it : Item) : Nat := m.pageGap it.length (m.gItem it (K.LS_PAPER it.mediaClass))

/-- release_min of a page that has not been released (R213): counted from the last release, each page ahead of it that waits for
its release taken at its own release_min (DESIGN CHOICE, log entry 61). -/
def Mach.pageReleaseMin (m : Mach) (it : Item) : Nat :=
  let ahead := (m.itemsOf 4 (fun x => x.state == .admitted && decide (x.order < it.order)))
  ahead.foldl (fun t x => t + m.pagePitch x) (match m.sl.lastRelease with | some (t, p) => t + p | none => 0)

/-- PICK_TIME of a page's paper profile, µs (R212). -/
def Mach.pagePickTime (m : Mach) (it : Item) : Nat := fld (m.gItem it (K.LS_PAPER it.mediaClass)) 0x0C 2 * 1000

/-- The predicted end of an item ahead on its station (R61). -/
def Mach.predictedEnd (m : Mach) (it : Item) : Nat :=
  if it.isSL then
    (if it.state == .admitted || it.state == .printing then (it.gateAt.getD (m.pageReleaseMin it)) + m.pagePitch it
     else it.deadline + 1000 + m.pagePickTime it + m.pagePitch it)
  else if it.state == .admitted || it.state == .printing then
    (match m.feedAxis it.station with | some a => m.axQueueEnd a | none => m.time)
  else it.deadline + 1000 + m.profileTime it it.plan.initial

/-- The deadline of an item entering RENDERING (R61). -/
def Mach.itemDeadline (m : Mach) (it : Item) : Nat :=
  let ahead := (m.itemsOf it.stIndex (fun x => x.inFlight && x.id != it.id)).getLast?
  let n := max 1 m.clovesInService
  let base := match ahead with
    | none => m.time + 1000 + m.renderWork it / (n * m.cloveRate)
    | some x => m.predictedEnd x - 1000
  if it.notBefore = 0 then base else max base (it.notBefore - 1000)

/-! ### Cutting an item into bands, R55, R57 -/

def mkBand (it : Item) (kind : BandKind) (unit row col order src dst : Nat) : Band :=
  { item := it.id, kind, unit, attempt := 0, gen := it.gen, row, col, deadline := it.deadline, src, dst, order, failed := [] }

/-- Order of definition of an item. -/
def Mach.itemOrder (m : Mach) (id : Nat) : Nat := ((m.item? id).map Item.order).getD 0

/-- The plan of a head. -/
def Item.headPlan (it : Item) (h : Nat) : HeadPlan := (it.plan.heads.find? (fun p => p.head == h)).getD ⟨h, 0, 0, 0, none, false, .zero, false, false, false, [], [], [], 0, 0, 0⟩
def Mach.modHeadPlan (m : Mach) (id h : Nat) (f : HeadPlan → HeadPlan) : Mach :=
  m.modItem id (fun it => { it with plan := { it.plan with heads := it.plan.heads.map (fun p => if p.head = h then f p else p) } })

/-- Address of a band's first input byte in an item's image (R57): of the first line and dot it covers, the nearest dot of the
image where the image does not hold that one, and of byte 0 of the line for a format that is refused (DESIGN CHOICE, log entry 62). -/
def Item.inputByte (it : Item) (line dot : Nat) : Nat :=
  let x := min (dot - it.xOffset) (it.width - 1)
  it.imageBase + line * it.stride + (match it.imageFormat with | 0 => 2 * x | 1 => x | 2 => x / 8 | _ => 0)

/-- The energy bands of one head for chosen segments, in every pass. BAND_ROW counts on across the passes (DESIGN CHOICE, log entry
74: R57 gives line ÷ 64). -/
def Mach.energyBands (m : Mach) (it : Item) (h : Nat) (segs : List Nat) : List Band :=
  let p := it.headPlan h
  let o := m.itemOrder it.id
  let ns := segCount it.length
  ((List.range it.passes).flatMap (fun q => segs.map (q * ns + ·))).flatMap (fun r => (List.range (ceilDiv p.dots 512)).map (fun c =>
    let rec0 := r / ns * it.length + r % ns * 64
    mkBand it .thermalEnergy h r c o (it.inputByte (r % ns * 64) (512 * c))
      (p.addr + rec0 * lineRecordBytes p.dots + 0x60 + 1024 * c)))

def Mach.thermalBands (m : Mach) (it : Item) : List Band :=
  it.heads.flatMap (fun h => m.energyBands it h (List.range (segCount it.length)))

def Mach.laserBands (m : Mach) (it : Item) : List Band :=
  let o := m.itemOrder it.id
  let base := (it.span.getD (0, 0)).1
  (List.range (ceilDiv it.length 128)).map (fun r =>
    mkBand it .laserVideo (128 * r % max 1 m.beams) r 0 o (it.imageBase + 128 * r * it.stride) (base + 64 + 128 * r * videoStride it.width))

/-! ### Injection, deques and stealing, R60-R63 -/

/-- Whether a clove of a cluster may take a band: in service, and no attempt of the band has failed on it (R68). -/
def Cluster.eligible (c : Cluster) (k : Nat) (b : Band) (n : Nat) : Bool :=
  match c.cloves[n]? with
  | some v => v.serving && !(b.failed.contains (k, n))
  | none => false
/-- Whether some clove of a cluster may take a band. -/
def Cluster.takes (c : Cluster) (k : Nat) (b : Band) : Bool := (List.range c.cloves.length).any (c.eligible k b)

/-- The clusters a band may go to: up, of its generation, with a clove that may take it (R60, R68, R72). -/
def Mach.bandClusters (m : Mach) (b : Band) : List Nat :=
  (List.range m.nClusters).filter (fun k => m.clusterUp k && (m.cluster k).gen == b.gen && (m.cluster k).takes k b)

/-- The cluster a descriptor goes to: one with room in its queue, smallest backlog, lowest index (R60). -/
def Mach.injectTarget (m : Mach) (b : Band) : Option Nat :=
  ((m.bandClusters b).filter (fun k => decide ((m.cluster k).queue.length < 1024))).foldl (fun acc k => match acc with
    | none => some k
    | some j => if (m.cluster k).backlog < (m.cluster j).backlog then some k else acc) none

/-- Where a band goes that has failed on every clove in service it could run on: back to one of these, since R68 asks for another
clove only where one is in service; the lowest with room (DESIGN CHOICE, log entry 63). -/
def Mach.lastResort (m : Mach) (b : Band) : Option (Nat × Nat) :=
  if b.failed = [] ∨ m.bandClusters b ≠ [] then none
  else ((List.range m.nClusters).flatMap (fun k => (List.range (m.cluster k).cloves.length).map (fun n => (k, n)))).find? (fun p =>
    let v := (m.cluster p.1).cloves.getD p.2 { state := .off }
    m.clusterUp p.1 && (m.cluster p.1).gen == b.gen && v.serving && decide (v.deque.length < 64))

/-- The clove the work queue passes a descriptor to: one that may take it and has room, fewest entries, lowest index (R60). -/
def Cluster.queueTarget (c : Cluster) (k : Nat) (b : Band) : Option Nat :=
  let len (n : Nat) : Nat := match c.cloves[n]? with | some v => v.deque.length | none => 64
  ((List.range c.cloves.length).filter (fun n => c.eligible k b n && decide (len n < 64))).foldl (fun acc n => match acc with
    | none => some n
    | some j => if len n < len j then some n else acc) none

/-- Pass descriptors from the work queue into deques, front first, while a clove can take one; one that no clove with room may take
waits without holding back those behind it (R60, R68). -/
def Cluster.flow (k : Nat) : Nat → Cluster → Cluster
  | 0, c => c
  | n + 1, c =>
    match c.queue.find? (fun b => (c.queueTarget k b).isSome) with
    | none => c
    | some b =>
      match c.queueTarget k b with
      | none => c
      | some v => Cluster.flow k n { c with
          queue := c.queue.filter (fun x => !(x.same b)), cloves := c.cloves.modify v (fun x => { x with deque := insertBy bandBefore b x.deque }) }

/-- The victim of a local steal: in service, greatest depth, lowest index. -/
def Cluster.deepest (c : Cluster) : Option Nat :=
  let len (n : Nat) : Nat := match c.cloves[n]? with | some v => if v.serving then v.deque.length else 0 | none => 0
  (List.range c.cloves.length).foldl (fun acc n => match acc with
    | none => if 0 < len n then some n else none
    | some j => if len j < len n then some n else acc) none

/-- Split a deque for a thief: the entries it takes, from the back and skipping those that failed on it, and those left. -/
def stealSplit (k n : Nat) (deq : List Band) : List Band × List Band :=
  let want := max 1 (deq.length / 2)
  deq.foldr (fun b (acc : List Band × List Band) =>
    if acc.1.length < want && !(b.failed.contains (k, n)) then (b :: acc.1, acc.2) else (acc.1, b :: acc.2)) ([], [])

/-- Move stolen entries between deques. -/
def Mach.steal (m : Mach) (kv nv kt nt : Nat) : Mach × Bool :=
  let vic := ((m.cluster kv).cloves.getD nv { state := .off })
  let (taken, rest) := stealSplit kt nt vic.deque
  if taken = [] then (m, false)
  else
    let m := m.modCluster kv (fun c => { c with cloves := c.cloves.modify nv (fun x => { x with deque := rest }) })
    (m.modCluster kt (fun c => { c with cloves := c.cloves.modify nt (fun x => { x with deque := taken }) }), true)

/-! ### What a plan band reads when it starts, R84, R86, R93, R117 -/

/-- Temperature of a code through HP_THM_CURVE, °C (R117). -/
def Mach.thmCelsius (m : Mach) (h code : Nat) : Rat :=
  let c := m.g (K.HP_THM_CURVE h)
  let i := min 31 (code / 128)
  let a : Rat := sfld c (2 * i) 2
  let b : Rat := sfld c (2 * (i + 1)) 2
  (a + (b - a) * ((code : Rat) - 128 * (i : Rat)) / 128) / 16

/-- A thermistor reading that is valid and not older than THM_STALE ms, in °C. -/
def Mach.thmReading (m : Mach) (h ain stale : Nat) : Option Rat :=
  match m.ainResult ain with
  | some (code, flag, t) => if flag || decide (t + 1000 * stale < m.time) then none else some (m.thmCelsius h code)
  | none => none

/-- Linear interpolation in block index between thermistor blocks, the nearest end beyond them; none when a thermistor
it uses has no value (R93). -/
def interpBlock (pts : List (Nat × Option Rat)) (b : Nat) : Option Rat :=
  match pts with
  | [] => none
  | (b0, v0) :: rest =>
    if b ≤ b0 then v0
    else match rest with
      | [] => v0
      | (b1, v1) :: _ =>
        if b < b1 then
          match v0, v1 with
          | some x, some y => some (x + (y - x) * ((b : Rat) - b0) / ((b1 : Rat) - b0))
          | _, _ => none
        else interpBlock rest b

/-- The ambient temperature of a head (R84). -/
def Mach.ambient (m : Mach) (h : Nat) : R32 :=
  let src := m.g (K.AMB_SRC h)
  if src = 0 then m.gf (K.AMB_FIXED h)
  else match m.thmReading h (src - 1) (m.g (K.THM_STALE h)) with
    | some q => R32.round q
    | none => m.gf (K.AMB_FIXED h)

/-- The latest earlier item of the station whose exit state a head's plan starts from (R86). One without a plan for the head, rendered in
fallback for the other, is passed over (DESIGN CHOICE, log entry 81). -/
def Mach.entryItem (m : Mach) (it : Item) (h : Nat) : Option Item :=
  ((m.items.takeWhile (fun x => x.id != it.id)).filter (fun x => x.stIndex == it.stIndex && x.plan.heads.any (fun p => p.head == h)
    && (x.state == .committed || x.state == .admitted || x.state == .printing))).getLast?

/-- Take the entry state of a head's plan once, when its first plan band starts on a clove in round 1 (R84, R86). -/
def Mach.planStart (m : Mach) (b : Band) : Mach :=
  match m.item? b.item with
  | none => m
  | some it =>
    let h := b.unit
    let p := it.headPlan h
    if b.kind != .thermalPlan || p.entryFixed || b.discard then m
    else
      let amb := m.ambient h
      let nodes : List R32 := match m.entryItem it h with
        | some e => (e.headPlan h).exit
        | none =>
          let pts := (List.range (m.g (K.THM_COUNT h))).map (fun i =>
            (m.g (K.THM_BLOCK h i), some ((m.thmReading h (m.g (K.THM_AIN h i)) (m.g (K.THM_STALE h))).getD amb.val)))
          (List.range 64).flatMap (fun b => let t := R32.round ((interpBlock pts b).getD 0); [t, t, t])
      m.modHeadPlan it.id h (fun p => { p with entry := some nodes, entryFixed := true, amb := amb })

/-! ### Scheduling -/

/-- A clove takes the front band of its deque (R60). -/
def Mach.cloveTake (m : Mach) (k n : Nat) : Mach :=
  let v := (m.cluster k).cloves.getD n { state := .off }
  match v.deque with
  | [] => m
  | b :: rest =>
    let m := m.modCluster k (fun c => { c with cloves := c.cloves.modify n (fun x =>
      { x with cur := some b, deque := rest, front := (x.front + 1) % 64, lastMark := m.time }) })
    m.planStart b

/-- One idle clove takes a band of its own, or steals within its cluster and takes one (R62). -/
def Mach.cloveWork (m : Mach) (k n : Nat) : Mach :=
  let c := m.cluster k
  let v := c.cloves.getD n { state := .off }
  if !v.serving || v.cur.isSome || c.reloading || !(m.isUp (rdyCluster k)) then m
  else if v.deque ≠ [] then m.cloveTake k n
  else if c.phase != .idle then m
  else match c.deepest with
    | none => m
    | some j =>
      let (m', ok) := m.steal k j k n
      if ok then (m'.count K.RD_STEAL_LOCAL).cloveTake k n else m

/-- Let a cluster's queue flow and its idle cloves take work. -/
def Mach.runCluster (m : Mach) (k : Nat) : Mach :=
  let m := if (m.cluster k).phase == .idle then m.modCluster k (Cluster.flow k 2200) else m
  let m := upto 17 m (fun m n => m.cloveWork k n)
  if (m.cluster k).phase == .idle then m.modCluster k (Cluster.flow k 2200) else m

def Mach.runClusters (m : Mach) : Mach := upto m.nClusters m (fun m k => m.runCluster k)

/-- Inject one waiting descriptor. -/
def Mach.injectBand (m : Mach) (b : Band) : Mach :=
  let b' := { b with waiting := false }
  let issued (m : Mach) : Mach := { m with ledger := m.ledger.map (fun (x : Band) => if x.same b && x.waiting then b' else x) }
  match m.injectTarget b with
  | some k => ((issued m).modCluster k (fun c => { c with queue := insertBy bandBefore b' c.queue })).modCluster k (Cluster.flow k 2200)
  | none =>
    match m.lastResort b with
    | none => m
    | some (k, n) => (issued m).modCluster k (fun c => { c with
        cloves := c.cloves.modify n (fun x => { x with deque := insertBy bandBefore b' x.deque }) })

/-- Inject every waiting descriptor that finds room, in deadline order, and let the cloves work (R60). -/
def Mach.injectAll (m : Mach) : Mach :=
  let ws := (m.ledger.filter Band.waiting).foldl (fun l b => insertBy bandBefore b l) []
  (ws.foldl Mach.injectBand m).runClusters

/-- Issue bands: into the ledger, then injected. -/
def Mach.issue (m : Mach) (bs : List Band) : Mach := { m with ledger := m.ledger ++ bs }

/-- Whether a head's plan band may be issued: every energy band of the head done, and every earlier item of the station
COMMITTED or out of flight (R58, R86). -/
def Mach.planReady (m : Mach) (it : Item) (h : Nat) : Bool :=
  it.state == .rendering && !(it.headPlan h).issued && it.plan.heads.any (fun p => p.head == h)
    && !(m.ledger.any (fun b => b.item == it.id && b.kind == .thermalEnergy && b.unit == h))
    && (m.items.takeWhile (fun x => x.id != it.id)).all (fun x =>
        x.stIndex != it.stIndex || x.state == .committed || x.state == .admitted || x.state == .printing || x.final)

/-- Issue the plan bands that are ready. -/
def Mach.issuePlans (m : Mach) : Mach :=
  m.items.foldl (fun m it => it.heads.foldl (fun m h =>
    match m.item? it.id with
    | none => m
    | some x =>
      if !x.isSL && m.planReady x h then
        (m.modHeadPlan x.id h (fun p => { p with issued := true })).issue
          [mkBand x .thermalPlan h 0 0 (m.itemOrder x.id) (x.headPlan h).sums (x.headPlan h).addr]
      else m) m) m

/-- The supervisor's work on the ledger; it stands still while the supervisor restarts (R50). -/
def Mach.pump (m : Mach) : Mach := if m.sup == .ready then m.issuePlans.injectAll else m.runClusters

/-! ### Starting and restarting an item's rendering -/

/-- Fresh plans of the heads of an item inside its reserved memory. -/
def Mach.freshPlans (m : Mach) (it : Item) : List HeadPlan :=
  let recs := it.length * it.passes
  let base := (it.span.getD (0, 0)).1
  let sbase := (it.sumSpan.getD (0, 0)).1
  let speeds := it.plan.initial
  (it.heads.foldl (fun (acc : List HeadPlan × Nat × Nat) h =>
    let dots := m.headDots h
    (acc.1 ++ [⟨h, dots, acc.2.1, acc.2.2, none, false, .zero, false, false, false, m.headPeriods it h speeds, [], [], 0, 0, 0⟩],
      acc.2.1 + recs * lineRecordBytes dots + 1024, acc.2.2 + recs * 256)) ([], base, sbase)).1

/-- Whether an item's initial speed lies below its floor: it can never be planned (R37). -/
def Mach.belowFloor (m : Mach) (it : Item) : Bool := !it.isSL && decide (m.initialSpeed it < m.speedFloor it)

/-- Begin an item's bands from the first, with the initial profile and round count 0 (R60, R92); an item whose initial speed lies below
its floor is cancelled with reason 2 before any band is issued (R37). -/
def Mach.beginBands (m : Mach) (id : Nat) : Mach :=
  match m.item? id with
  | none => m
  | some it =>
    if m.belowFloor it then m.cancel id 2
    else if it.isSL then m.issue (m.laserBands it)
    else
      let n := segCount it.length
      let v := m.initialSpeed it
      let init := List.replicate n v
      let m := m.modItem id (fun it => { it with plan := { it.plan with
        round := 0, complete := false, initial := init, speeds := init, floor := m.speedFloor it
        lowered := List.replicate n false, rerendered := [] } })
      let it' := (m.item? id).getD it
      let plans := m.freshPlans it'
      let m := m.modItem id (fun it => { it with plan := { it.plan with heads := plans } })
      m.issue (m.thermalBands ((m.item? id).getD it'))

/-- Restart an item that is RENDERING (R92, R73): its band work is discarded, it starts again from its first band. -/
def Mach.restartItem (m : Mach) (id : Nat) : Mach := (m.dropBands id).beginBands id

/-- Restart for a write: event base + 0x46 on each of the item's heads, where it starts again (R92). -/
def Mach.restartWrite (m : Mach) (it : Item) : Mach :=
  if m.belowFloor it then m.restartItem it.id
  else it.heads.foldl (fun m h => m.raiseHp h 0x46 [it.id]) (m.restartItem it.id)

/-- Restart every item RENDERING on a station (R92). -/
def Mach.restartStation (m : Mach) (st : Nat) : Mach :=
  ((m.itemsOf st (fun it => it.state == .rendering)).foldl Mach.restartWrite m).pump

/-! ### Thermal bands done -/

/-- The dot map of a head that an item renders with: the one at its entry into RENDERING, or a later write's (R92, R131). -/
def Item.dotMap (it : Item) (h : Nat) : Nat := ((it.maps.find? (fun p => p.1 == h)).map Prod.snd).getD (objDefault (K.HP_DOT_MAP h))

/-- What rendering reads of a head for an item (R76, R98, R144), from the values in force. -/
def Mach.headCtx (m : Mach) (it : Item) (h : Nat) : HeadCtx :=
  let st := it.station
  let cal := m.calSets.getD it.calSet 0
  let other := (m.stationPorts st).find? (fun x => x != h)
  let oh := other.getD h
  let lat (x : Nat) : Int := roundRat ((sfld cal (0x10 + 2 * x) 2 : Rat) / 16)
  { dots := m.headDots h, ert := m.g (K.HP_ERT_CLASS h it.mediaClass), model := m.g (K.HP_MODEL_CLASS h it.mediaClass),
    gain := ((it.gains.find? (fun p => p.1 == h)).map Prod.snd).getD (objDefault (K.HP_GAIN_PUBLISHED h)),
    res := m.g (K.HP_DOT_RES h), map := it.dotMap h, w1 := m.g (K.HP_HIDE_W1 h), w2 := m.g (K.HP_HIDE_W2 h),
    vnom := m.gf (K.V_NOM h), lat := lat h, skew := sfld cal (0x18 + 2 * h) 2,
    tandem := m.isTandem st && other.isSome, fallback := it.fallback, lead := h == m.h (K.TH_LEAD st),
    otherDots := m.headDots oh, otherMap := it.dotMap oh, otherLat := lat oh,
    masks := (List.range it.passes).map (fun q => m.g (K.TH_MASK st ((it.pattern + q) % 16))) }

/-- Address of an item's inspection reference of a head: after the plans and the profile record (R291). -/
def Mach.refAddr (m : Mach) (it : Item) (h : Nat) : Nat :=
  let recs := it.length * it.passes
  let base := (it.span.getD (0, 0)).1
  let plans := it.heads.foldl (fun a x => a + recs * lineRecordBytes (m.headDots x) + 1024) 0
  let before := (it.heads.takeWhile (fun x => x != h)).foldl (fun a x => a + recs * m.headDots x) 0
  base + plans + 2 * segCount it.length + before

/-- A THERMAL_ENERGY band is done: dot words, block sums and the inspection reference go to memory (R76, R83, R291). An
invalid model record leaves the words and sums open (R81), and so does an image changed meanwhile (R17). The periods are those of the
profile being rendered, on lead-in lines too (R80). -/
def Mach.energyDone (mem : Mem) (m : Mach) (it : Item) (b : Band) : Mach :=
  let h := b.unit
  let c := m.headCtx it h
  let p := it.headPlan h
  let ns := segCount it.length
  let q := b.row / ns
  let row := b.row % ns
  let periods := (m.headPeriods it h it.plan.speeds).take it.length
  let rb := lineRecordBytes p.dots
  let rec0 := q * it.length + row * 64
  let w := blockWidth p.dots
  let d0 := 512 * b.col
  let d1 := min (d0 + 512) p.dots
  let es := c.band mem it periods q row b.col
  let cnt := min 64 (it.length - row * 64)
  let valid := modelValid c.model && !it.touched
  let prev := if d0 % w = 0 then [] else c.band mem it periods q row (b.col - 1)
  let next := if d1 % w = 0 ∨ d1 = p.dots then [] else c.band mem it periods q row (b.col + 1)
  let at_ (i d : Nat) : R32 :=
    if d < d0 then (prev.getD i []).getD (d - (d0 - 512)) .zero
    else if d < d1 then (es.getD i []).getD (d - d0) .zero
    else (next.getD i []).getD (d - d1) .zero
  let m := upto cnt m (fun m i =>
    let words := (List.range (d1 - d0)).map (fun k =>
      if valid then c.word (d0 + k) (at_ i (d0 + k)) else Config.freeNat (m.fresh + k) % 65536)
    let m := if valid then m else { m with fresh := m.fresh + (d1 - d0) }
    m.storeNum (p.addr + (rec0 + i) * rb + 0x60 + 2 * d0) (2 * (d1 - d0)) (packLe 2 words))
  let blocks := (List.range 64).filter (fun k => decide (d0 < (k + 1) * w ∧ k * w < d1))
  let m := upto cnt m (fun m i => blocks.foldl (fun m k =>
    let ds := (List.range w).map (fun x => k * w + x)
    let (v, m) := if valid then (blockSum ((ds.filter (fun d => decide (d < p.dots))).map (at_ i)), m) else m.freeBelow (2 ^ 32)
    m.storeNum (p.sums + (rec0 + i) * 256 + 4 * k) 4 v) m)
  if !it.inspect then m
  else
    let ra := m.refAddr it h
    upto cnt m (fun m i =>
      m.storeBytes (ra + (rec0 + i) * p.dots + d0) ((List.range (d1 - d0)).map (fun k =>
        let d := d0 + k
        if dotDead c.map d then 0#8 else BitVec.ofNat 8 (c.tone mem it ((row * 64 + i : Nat) : Int) q d / 2))))

/-- The substrate parameters of a head for an item. -/
def Mach.subCtx (m : Mach) (it : Item) (h : Nat) (amb : R32) : SubCtx :=
  { c0 := m.gf (K.SB_C0 h), c1 := m.gf (K.SB_C1 h), c2 := m.gf (K.SB_C2 h), g01 := m.gf (K.SB_G01 h), g12 := m.gf (K.SB_G12 h),
    g2a := m.gf (K.SB_G2A h), gl0 := m.gf (K.SB_GL0 h), gl1 := m.gf (K.SB_GL1 h), eps := m.gf (K.SB_EPS h),
    thetaRef := m.gf (K.THETA_REF h), beta := m.gf (K.BETA h), kappa := m.gf (K.KAPPA h), amb,
    limit := m.gi 16 (K.HP_TEMP_LIMIT h),
    thmBlocks := (List.range (m.g (K.THM_COUNT h))).map (fun i => m.g (K.THM_BLOCK h i)),
    lookback := m.g (K.LOOKBACK h), floor := it.plan.floor }

/-- Nodes from a list of 192 values, three per block. -/
def nodesOf (l : List R32) : Nodes :=
  { n0 := (List.range 64).map (fun b => l.getD (3 * b) .zero), n1 := (List.range 64).map (fun b => l.getD (3 * b + 1) .zero),
    n2 := (List.range 64).map (fun b => l.getD (3 * b + 2) .zero) }
def Nodes.list (n : Nodes) : List R32 :=
  (List.range 64).flatMap (fun b => [n.n0.getD b .zero, n.n1.getD b .zero, n.n2.getD b .zero])

/-- The bytes of a line header (R83). -/
def lineHeaderNum (period seg : Nat) (blank ramp lowered again : Bool) (h : LineHead) : Nat :=
  packLe 1 ([period % 256, period / 256 % 256, period / 65536 % 256, period / 2 ^ 24 % 256, seg % 256, seg / 256 % 256,
    b2n blank + 2 * b2n ramp + 4 * b2n lowered + 8 * b2n again, 0])
    + 256 ^ 8 * packLe 2 (padTo 8 0 (h.thm.map (ofInt 16))) + 256 ^ 24 * packLe 1 (padTo 64 0 h.scales)

/-- n free INTEGER16 values, from a draw on (log entry 3). -/
def freeInts (from_ n : Nat) : List Int := (List.range n).map (fun i => ((Config.freeNat (from_ + i) % 65536 : Nat) : Int) - 32768)

/-- What a plan band reports whose parameters need more than 64 substeps on a line (R84): the prediction is undefined, so temperatures,
scales, lowered speeds within the floor, refusal and exit state are free (log entry 3). -/
def openReport (seed count : Nat) (c : SubCtx) (v : List Nat) (profile : List Nat → List Nat) : PlanReport :=
  let d (i : Nat) : Nat := Config.freeNat (seed + i)
  let speeds := v.mapIdx (fun i s => c.floor + d i % (s - c.floor + 1))
  let a := v.length
  let heads := (List.range count).map (fun r =>
    let b := a + 80 * r
    { thm := freeInts (seed + b) c.thmBlocks.length, scales := (List.range 64).map (fun k => d (b + 16 + k) % 256),
      hot := R32.ofBits (d (b + 15) % 2 ^ 32), hotBlock := d (b + 14) % 64, tooHot := false })
  let e := a + 80 * count
  { refused := d e % 2 == 1, speeds, periods := profile speeds, headers := heads
    exit := nodesOf ((List.range 192).map (fun i => R32.ofBits (d (e + 1 + i) % 2 ^ 32))) }
/-- How many values such a report draws. -/
def openDraws (count segs : Nat) : Nat := segs + 80 * count + 193

/-- Lines between two checkpoints of a plan band (R56). -/
def markLines : Nat := 131072

/-- The checkpoint in the ledger entry of a THERMAL_PLAN band (R56): the planning round with what markAt says, at the last checkpoint
that the band reached up to its mark. A band re-issued from it gives the plan of an uninterrupted one, so planDone does not read it. -/
def Mach.checkpoint (mem : Mem) (m : Mach) (it : Item) (b : Band) : Option (Nat × PlanMark) :=
  let p := it.headPlan b.unit
  let c := m.subCtx it b.unit p.amb
  let sums (r : Nat) : List Nat := (List.range 64).map (fun k => mem.read (p.sums + r * 256 + 4 * k) 4)
  let marks := (List.range (b.mark / markLines)).reverse.findSome? (fun k =>
    c.markAt (m.g (K.HP_PLAN_LOOP b.unit) == 3) sums p.rendered (it.length * it.passes) it.segOf (64 * ·) (m.headPeriods it b.unit)
      it.plan.speeds (nodesOf (p.entry.getD [])) (markLines * (k + 1)))
  marks.map (fun x => (it.plan.round, x))

/-- A THERMAL_PLAN band is done: the procedure of R88 for its head; the line headers, exit state and trailer go to memory, reserved
bytes and padding as 0 (R6, R83). The RAMP bit is judged at the boundary of the head's line alone, and PEAK is the first of equal
temperatures (DESIGN CHOICE, log entries 82, 80). -/
def Mach.planDone (mem : Mem) (m : Mach) (it : Item) (b : Band) : Mach :=
  let h := b.unit
  let p := it.headPlan h
  let c := m.subCtx it h p.amb
  let total := it.length * it.passes
  let sums (r : Nat) : List Nat := (List.range 64).map (fun k => mem.read (p.sums + r * 256 + 4 * k) 4)
  let frozen := m.g (K.HP_PLAN_LOOP h) == 3
  let profile (v : List Nat) : List Nat := m.headPeriods it h v
  let plan := c.plan frozen sums p.rendered total it.segOf (64 * ·) profile it.plan.speeds (nodesOf (p.entry.getD []))
  let open_ := (profile it.plan.speeds ++ plan.periods).any (fun t => decide (64 < c.substeps (R32.div (R32.ofNat t) (r32 1000000000))))
  let rep := if open_ then openReport m.fresh total c it.plan.speeds profile else plan
  let m := if open_ then { m with fresh := m.fresh + openDraws total it.plan.speeds.length } else m
  let rb := lineRecordBytes p.dots
  let off : Rat := (m.headOffset it h : Rat) / 16
  let pieces := m.passPieces it rep.speeds
  let hot := (enumFrom 0 rep.headers).foldl (fun (acc : Option (R32 × Nat × Nat)) x =>
      match acc with
      | none => some (x.2.hot, x.2.hotBlock, x.1)
      | some a => if R32.lt a.1 x.2.hot then some (x.2.hot, x.2.hotBlock, x.1) else acc) none
  let peak := match hot with | some a => (sixteenth a.1, a.2) | none => (0, 0, 0)
  let m := (enumFrom 0 rep.headers).foldl (fun m (x : Nat × LineHead) =>
    let a := p.addr + x.1 * rb
    let seg := it.segOf x.1
    let blank := (List.range p.dots).all (fun d => mem.read (a + 0x60 + 2 * d) 2 == 0)
    let lowered := decide (rep.speeds.getD seg 0 < it.plan.initial.getD seg 0)
    let ramp := inRamp pieces ((x.1 % max 1 it.length : Nat) + off)
    (m.storeNum a 0x60 (lineHeaderNum (rep.periods.getD x.1 0) seg blank ramp lowered (it.plan.rerendered.contains x.1) x.2)).storeNum
      (a + 0x60 + 2 * p.dots) (rb - 0x60 - 2 * p.dots) 0) m
  let t := p.addr + total * rb
  let m := m.storeNum t 0x300 (packLe 4 (rep.exit.list.map R32.toBits))
  let m := m.storeNum (t + 0x300) 0x100 (packLe 1 [ofInt 16 peak.1 % 256, ofInt 16 peak.1 / 256, peak.2.1, it.plan.round + 1]
    + 2 ^ 32 * peak.2.2)
  m.modHeadPlan it.id h (fun p => { p with reported := true, refused := rep.refused, speeds := rep.speeds, exit := rep.exit.list,
                                           peak := peak.1, peakBlock := peak.2.1, peakLine := peak.2.2 })

/-- Pointwise lower of two speed lists. -/
def lowest : List Nat → List Nat → List Nat
  | a :: as, b :: bs => min a b :: lowest as bs
  | as, [] => as
  | [], bs => bs

/-! ### Re-issue and faults, R66-R69 -/

/-- Take a band out of the ledger. -/
def Mach.unledger (m : Mach) (b : Band) : Mach := { m with ledger := m.ledger.filter (fun (x : Band) => !(x.same b)) }

/-- Place a re-issued band, or one of a fenced clove's (R67, R68): into the work queue of its cluster while that is up, has room and a
clove that may take it; else it waits in the ledger for injection (R60). -/
def Mach.giveBack (m : Mach) (k : Nat) (b : Band) : Mach :=
  let c := m.cluster k
  if m.clusterUp k && decide (c.queue.length < 1024) && c.takes k b then m.modCluster k (fun c => { c with queue := insertBy bandBefore b c.queue })
  else { m with ledger := m.ledger.map (fun (x : Band) => if x.same b then { b with waiting := true } else x) }

/-- Re-issue a band after a failure on a clove (R68): event 0x2405, or after the fourth failed attempt its item cancelled with reason 5.
Only a RENDERING item can be cancelled so (R35): an INSPECTION band that has failed four times is dropped (DESIGN CHOICE, log entry 64).
The answer is the band to place, if any. How many checkpoints a plan band wrote since its last is open (log entry 75). -/
def Mach.reissue (m : Mach) (b : Band) (k n : Nat) : Mach × Option Band :=
  if b.discard then (m, none)
  else if 3 ≤ b.attempt then
    (if ((m.item? b.item).map Item.state) = some .rendering then m.cancel b.item 5 else m.unledger b, none)
  else
    let (x, m) := if b.kind == .thermalPlan then m.freeBelow 65536 else (0, m)
    let b' := { b with attempt := b.attempt + 1, failed := (k, n) :: b.failed, waiting := false, mark := b.mark + markLines * x }
    let m := { m with ledger := m.ledger.map (fun (x : Band) => if x.same b then b' else x) }
    (m.raise 0x2405 [b.item, b'.attempt], some b')

/-- The band in progress on a clove is taken from it and re-issued (R68, R69). -/
def Mach.reissueCur (m : Mach) (k n : Nat) : Mach :=
  match ((m.cluster k).cloves.getD n { state := .off }).cur with
  | none => m
  | some b =>
    let m := m.modCluster k (fun c => { c with cloves := c.cloves.modify n (fun x => { x with cur := none }) })
    match m.reissue b k n with
    | (m, some b') => m.giveBack k b'
    | (m, none) => m

/-- Set a cluster's state: readiness and event 0x2406 (R74). -/
def Mach.setCluster (m : Mach) (k v : Nat) : Mach :=
  let old := m.ready (rdyCluster k)
  if old = v then m else (m.setReady (rdyCluster k) v).raise 0x2406 [k, old, v]

/-- Return a cluster's queue and deque entries to the ledger as waiting, for injection elsewhere (R67, R71). -/
def Mach.returnEntries (m : Mach) (k : Nat) : Mach :=
  let c := m.cluster k
  let bs := c.queue ++ c.cloves.flatMap Clove.deque
  let m := m.modCluster k (fun c => { c with queue := [], cloves := c.cloves.map (fun v => { v with deque := [] }) })
  { m with ledger := m.ledger.map (fun (x : Band) => if bs.any (fun b => b.same x && !b.discard) then { x with waiting := true } else x) }

/-- Items whose generation no cluster that is up holds are rendered again under RD_GEN_SELECT, if one holds that (R73). -/
def Mach.regenerate (m : Mach) : Mach :=
  let holds (g : Nat) : Bool := (List.range m.nClusters).any (fun k => m.clusterUp k && (m.cluster k).gen == g)
  let sel := m.g K.RD_GEN_SELECT
  (m.items.filter (fun it => it.state == .rendering && !(holds it.gen) && holds sel)).foldl (fun m it =>
    ((m.modItem it.id (fun x => { x with gen := sel })).restartItem it.id).raise 0x2409 [it.id, sel]) m

/-- Cluster state after a change of its cloves: FAULT with none in service, DEGRADED below 16 in service or with 32
retired granules, else READY (R67, R69, R71). A spare that loads its kernel counts: the cluster stays READY (R67). -/
def Mach.clusterHealth (m : Mach) (k : Nat) : Mach :=
  if !(m.isUp (rdyCluster k)) then m
  else
    let n := ((m.cluster k).cloves.filter (fun v => v.state == .inService)).length
    if n = 0 then ((m.setCluster k vFault).returnEntries k).regenerate
    else if n < 16 ∨ 32 ≤ (m.cluster k).retired.length then m.setCluster k vDegraded
    else m.setCluster k vReady

/-- Work queue entries that no clove of the cluster may take any more wait in the ledger again (R68). -/
def Mach.unstick (m : Mach) (k : Nat) : Mach :=
  let c := m.cluster k
  (c.queue.filter (fun b => !(c.takes k b))).foldl (fun m b =>
    (m.modCluster k (fun c => { c with queue := c.queue.filter (fun x => !(x.same b)) })).giveBack k b) m

/-- A clove is fenced (R67). A spare in standby adopts its deque in place; where the deque is full already its last entry goes on
through the work queue (DESIGN CHOICE, log entry 65). A cluster that drains keeps nothing (R71). -/
def Mach.fence (m : Mach) (k n : Nat) (st : CloveState) (code : Nat) : Mach :=
  let v := (m.cluster k).cloves.getD n { state := .off }
  if v.state != .inService && v.state != .standby then m
  else
    let standby := v.state == .standby
    let spare := ((m.cluster k).cloves.getD 16 { state := .off }).state == .standby && n != 16
    let lost := v.cur
    let m := m.modCluster k (fun c => { c with
      spareOf := if n = 16 then 0xFE else c.spareOf
      cloves := c.cloves.modify n (fun x => { x with state := st, cur := none, loading := false }) })
    let m := m.raise code [17 * k + n, (lost.map Band.item).getD 0]
    if standby then m
    else
      let (m, re) := match lost with
        | none => (m, none)
        | some b => m.reissue b k n
      let deq := ((m.cluster k).cloves.getD n { state := .off }).deque
      let m := m.modCluster k (fun c => { c with cloves := c.cloves.modify n (fun x => { x with deque := [] }) })
      let put := match re with | some b => insertBy bandBefore b deq | none => deq
      let m := if spare then
          let m := m.modCluster k (fun c => { c with
            spareOf := n
            cloves := c.cloves.modify 16 (fun x => { x with
              state := .inService, loading := true, lastMark := m.time, front := v.front
              deque := if m.clusterUp k then put.take 64 else [] }) })
          (if m.clusterUp k then put.drop 64 else put).foldl (fun m b => m.giveBack k b) m
        else put.foldl (fun m b => m.giveBack k b) m
      (((m.unstick k).clusterHealth k).pump).runCluster k

end Sys2Proof.Machine
end

