-- ==== Sys2Proof/Machine/HeadOps.lean ====
section
/-! DEFINITION. The head sequencer (R93-R97, R100-R121, R126-R136): readiness, strobes, trim, the fire sequence of a line,
triggers, removal and fitting, and the resistance scan. Moments named t10 are device time in 10 ns. -/

namespace Sys2Proof.Machine

open Sys2Proof

/-! ### Readiness, R120, R136 -/

/-- The other port of a station that runs in tandem mode, for hiding by the partner (R135). -/
def Mach.tandemPartner (m : Mach) (h : Nat) : Option Nat :=
  match m.stationOf h with
  | none => none
  | some st => if m.isTandem st then (m.stationPorts st).find? (fun x => x != h) else none

/-- Whether a dead dot is hidden by a usable partner, at equal lateral offsets (log entry 23). -/
def Mach.hiddenByPartner (m : Mach) (h d : Nat) : Bool :=
  let map := m.g (K.HP_DOT_MAP h)
  (dotHide map d == 2 || dotHide map d == 3) && (match m.tandemPartner h with
    | none => false
    | some o => decide (d < m.headDots o) && !(dotDead (m.g (K.HP_DOT_MAP o)) d))

/-- Dead and uncovered dots of a head (R136): runs of adjacent dead dots not covered by a partner. -/
def Mach.deadDots (m : Mach) (h : Nat) : Nat × Nat :=
  let map := m.g (K.HP_DOT_MAP h)
  let runMax := m.g (K.HP_HIDE_RUN_MAX h)
  let close (unc : Nat) (run : List Nat) : Nat :=
    unc + (run.filter (fun hd => !(hd == 1 || hd == 3) || decide (runMax < run.length))).length
  let r := (List.range (m.headDots h)).foldl (fun (acc : Nat × Nat × List Nat) d =>
    let dead := dotDead map d
    if dead && !(m.hiddenByPartner h d) then (acc.1 + 1, acc.2.1, dotHide map d :: acc.2.2)
    else (acc.1 + b2n dead, close acc.2.1 acc.2.2, [])) (0, 0, [])
  (r.1, close r.2.1 r.2.2)

/-- Readiness by the dot map (R136). -/
def Mach.mapReadiness (m : Mach) (h : Nat) : Nat :=
  let (dead, unc) := m.deadDots h
  if dead = 0 then vReady else if dead ≤ m.g (K.HP_DEAD_LIMIT h) ∧ unc = 0 then vDegraded else vFault

/-- Readiness of a port: OFF while disabled or without a head, STARTING during R120, FAULT after a failed ID read or
while its pepper timer holds it off, else by the dot map. -/
def Mach.portReadiness (m : Mach) (h : Nat) : Nat :=
  let x := m.head h
  if m.g (K.HP_MODE h) = 0 then vOff
  else match x.fit with
    | .none => vOff
    | .failed => vFault
    | .done => if x.pepper then vFault else m.mapReadiness h
    | .seen => vStarting | .powered => vStarting | .reading => vStarting | .waitRetry => vStarting
    | .scanning => if x.pepper then vFault else vStarting

/-- Bring a port's counts and readiness up to date (R136): entry into FAULT by the dot map raises event base + 0x12. -/
def Mach.refreshHead (m : Mach) (h : Nat) : Mach :=
  let (dead, unc) := m.deadDots h
  let m := m.puts [(K.HP_DEAD_COUNT h, dead), (K.HP_UNCOVERED_COUNT h, unc)]
  let v := m.portReadiness h
  let byMap := (m.head h).fit == .done && !(m.head h).pepper
  let m := m.raiseIf (byMap && v = vFault && m.ready (rdyHead h) ≠ vFault) (0x2500 + 0x80 * h + 0x12) [dead, unc]
  m.setHeadReady h v

/-- A port and its tandem partner. -/
def Mach.refreshPair (m : Mach) (h : Nat) : Mach :=
  match m.tandemPartner h with
  | some o => (m.refreshHead h).refreshHead o
  | none => m.refreshHead h

/-! ### Strobes and the pepper timer, R115 -/

/-- Whether a port's strobes are forced off: pepper latch, no head, a VMON warning, thermal shutdown (R110). -/
def Mach.strobesForced (m : Mach) (h : Nat) : Bool :=
  let x := m.head h
  x.pepper || !x.pwrEn || m.vmonLow || m.g K.DEV_SHUTDOWN != 0

/-- On-time of an output within the 10 ms before a moment, in 10 ns (R115). -/
def onTime (l : List (Nat × Nat × Nat)) (g t10 : Nat) : Nat :=
  (l.filter (fun (p : Nat × Nat × Nat) => p.1 == g)).foldl (fun a p =>
    let lo := max p.2.1 (t10 - 1000000)
    let hi := min (p.2.1 + p.2.2) t10
    a + (hi - lo)) 0

/-- The strobes of the last 10 ms with those of the line in progress up to a moment. -/
def Mach.liveStrobes (m : Mach) (h t10 : Nat) : List (Nat × Nat × Nat) :=
  (m.head h).strobes ++ (match (m.head h).firing with | some l => m.lineDrove h t10 l | none => [])

/-- A line whose busy time has ended leaves the port: it fired in full and sets the short-line run to 0 (R111). -/
def Mach.lineSettle (m : Mach) (h t10 : Nat) : Mach :=
  match (m.head h).firing with
  | none => m
  | some l =>
    if t10 < l.busyUntil then m
    else
      ((m.noteStrobes h t10 (m.lineDrove h l.busyUntil l)).modHead h (fun x => { x with firing := none })).put (K.HP_SHORT_RUN h) 0

/-- Settle every port. -/
def Mach.settleLines (m : Mach) : Mach := upto m.nHeads m (fun m h => m.lineSettle h m.now10)

/-- The strobe of a scan step goes off at a moment: what was noted of it ends there (R126, R128). -/
def HeadRt.clipScan (x : HeadRt) (t10 : Nat) : HeadRt :=
  if x.scan.pulsing ∧ t10 < x.scan.strobe.2.2 then
    let (g, a, b) := x.scan.strobe
    { x with strobes := x.strobes.filterMap (fun (p : Nat × Nat × Nat) =>
        if p = (g, a, b - a) then (if t10 ≤ a then none else some (g, a, t10 - a)) else some p) }
  else x

/-- A scan strobe that is on at a moment is ended early (R128). -/
def Mach.cutScan (m : Mach) (h t10 : Nat) : Mach :=
  m.modHead h (fun x => if x.scan.pulsing ∧ t10 < x.scan.strobe.2.2 then
    { x.clipScan t10 with scan := { x.scan with cut := true } } else x)

/-- Every strobe of a port goes off at once. -/
def Mach.strobesOff (m : Mach) (h : Nat) : Mach := ((m.lineSettle h m.now10).cutStrobes h m.now10).cutScan h m.now10

/-- A pepper timer trips (R115): port latched off, state and output recorded, event, FAULT, the printing item spoiled. A disabled
port latches too, and reads OFF until it is enabled (DEDUCED, log entry 100). -/
def Mach.pepperTrip (m : Mach) (h cause g : Nat) : Mach :=
  if (m.head h).pepper then m
  else
    let m := (m.strobesOff h).modHead h (fun x => { x with pepper := true })
    let m := (m.puts [(K.HP_PEPPER_STATE h, cause), (K.HP_PEPPER_GROUP h, g)]).count (K.HP_PEPPER_TRIPS h)
    let m := m.raiseHp h cause [g]
    let m := m.refreshHead h
    match m.stationOf h with
    | some st => m.spoilStation st 3
    | none => m

/-- The moments (10 ns) of the last microsecond at which an output's on-time within the window before it can be highest: the ends of
its strobes, and now. -/
def pepperMoments (l : List (Nat × Nat × Nat)) (t10 : Nat) : List Nat :=
  (l.map (fun (p : Nat × Nat × Nat) => p.2.1 + p.2.2)).filter (fun t => decide (t10 < t + 100 ∧ t ≤ t10)) ++ [t10]

/-- The pepper timer of a port over the last microsecond (R115): its highest duty is recorded (R123), a strobe longer than
HP_PEPPER_ON_LIMIT or an on-time beyond HP_PEPPER_DUTY_LIMIT trips it. -/
def Mach.pepperWatch (m : Mach) (h : Nat) : Mach :=
  let now := m.now10
  let l := m.liveStrobes h now
  if l = [] then m
  else
    let on (g : Nat) : Nat := (pepperMoments l now).foldl (fun a t => max a (onTime l g t)) 0
    let duties := (List.range 16).map on
    let m := m.put (K.HP_PEPPER_DUTY_MAX h) (max (m.g (K.HP_PEPPER_DUTY_MAX h)) (min 100 (duties.foldl max 0 / 10000)))
    match l.find? (fun (p : Nat × Nat × Nat) => decide (100 * m.g (K.HP_PEPPER_ON_LIMIT h) < min p.2.2 (now - p.2.1) ∧ now < p.2.1 + p.2.2 + 100)) with
    | some p => m.pepperTrip h 1 p.1
    | none =>
      let lim := m.g (K.HP_PEPPER_DUTY_LIMIT h)
      match (enumFrom 0 duties).find? (fun (p : Nat × Nat) => decide (lim < 100 ∧ lim * 10000 < p.2)) with
      | some p => m.pepperTrip h 2 p.1
      | none => m

/-- The pepper timers of all ports. -/
def Mach.pepperTick (m : Mach) : Mach := upto m.nHeads m (fun m h => m.pepperWatch h)

/-! ### Trim, R93-R97 -/

/-- Publish the trim of a port in HP_TRIM. -/
def Mach.showTrim (m : Mach) (h : Nat) : Mach :=
  let t := (m.head h).trim
  let mask (p : TrimBlock → Bool) : Nat := (enumFrom 0 t).foldl (fun a x => if p x.2 then a + 2 ^ x.1 else a) 0
  m.puts [(K.HP_TRIM_VALUES h, packLe 2 (t.map (fun b => ofInt 16 b.value))),
    (K.HP_TRIM_STATUS h, t.foldl (fun a b => max a b.status) 0),
    (K.HP_TRIM_PINNED h, mask (fun b => b.status == 1 || b.status == 2)), (K.HP_TRIM_FROZEN h, mask (fun b => b.status == 3))]

/-- A change of the trim with its events (R95). -/
def Mach.setTrim (m : Mach) (h : Nat) (t : List TrimBlock) : Mach :=
  let old := m.g (K.HP_TRIM_STATUS h)
  let m := (m.modHead h (fun x => { x with trim := t })).showTrim h
  let new := m.g (K.HP_TRIM_STATUS h)
  let masks := [m.g (K.HP_TRIM_PINNED h), m.g (K.HP_TRIM_FROZEN h)]
  let m := m.raiseIf (old = 0 && (new = 1 || new = 2)) (0x2500 + 0x80 * h + 0x40) masks
  m.raiseIf (old ≠ 3 && new = 3) (0x2500 + 0x80 * h + 0x41) masks

/-- Every block at 0 and FREE (R97). -/
def Mach.resetTrim (m : Mach) (h : Nat) : Mach := (m.modHead h (fun x => { x with trim := List.replicate 64 {} })).showTrim h

/-- Resume every frozen block (R25, R95). -/
def Mach.resumeTrim (m : Mach) (h : Nat) : Mach :=
  (m.modHead h (fun x => { x with trim := x.trim.map (fun b =>
    if b.status = 3 then { b with status := 0, pinned := 0 } else b) })).showTrim h

/-- Whether thermistor blocks ascend (R98). -/
def ascending : List Nat → Bool
  | a :: b :: l => decide (a < b) && ascending (b :: l)
  | _ => true

/-- Update the trim of every block at a line trigger (R93). pred are the line's predictions in 1/16 °C. Blocks out of
order leave the trim open (R98): each block then takes a free value within the bounds. -/
def Mach.trimUpdate (m : Mach) (h : Nat) (it : Item) (pred : List Int) : Mach :=
  let n := it.s (K.THM_COUNT h)
  let stale := it.s (K.THM_STALE h)
  let blocks := (List.range n).map (fun i => it.s (K.THM_BLOCK h i))
  let reads := (List.range n).map (fun i => m.thmReading h (it.s (K.THM_AIN h i)) stale)
  let m := m.modHead h (fun x => { x with
    thmBad := x.thmBad.mapIdx (fun i b => match reads.getD i (some 0) with
      | some _ => none
      | none => some (b.getD m.time))
    thmRaised := x.thmRaised.mapIdx (fun i b => b && (reads.getD i (some 0)).isNone) })
  let d := (List.range n).map (fun i => (blocks.getD i 0, (reads.getD i none).map (fun q => q - (pred.getD i 0 : Rat) / 16)))
  let beta := (R32.ofBits (it.s (K.BETA h))).val
  let lo := m.gi 16 (K.HP_TRIM_LOWER h)
  let hi := m.gi 16 (K.HP_TRIM_UPPER h)
  let fr := m.g (K.HP_TRIM_FREEZE_COUNT h)
  let ok := ascending blocks
  let t := (m.head h).trim
  let held := (List.range 64).any (fun b => (interpBlock d b).isNone)
  let t' := t.mapIdx (fun b x =>
    if !ok then { x with value := lo + (Config.freeNat (m.fresh + b) % ((hi - lo).toNat + 1) : Nat) }
    else match interpBlock d b with
      | none => x
      | some db =>
        let u := roundRat (-beta * db * 1024)
        let v := x.value + roundRat (((u - x.value : Int) : Rat) / ((2 ^ it.s (K.TRIM_SHIFT h) : Nat) : Rat))
        let (v, st, p) := loopUpdate lo hi fr x.status x.pinned x.value v
        { value := v, status := st, pinned := p })
  let m := if ok then m else { m with fresh := m.fresh + 64 }
  let m := if held && ok then m.count (K.HP_TRIM_STALE_COUNT h) else m
  m.setTrim h t'

/-! ### The fire sequence, R102-R106 -/

/-- Load time of a shift register in 10 ns, rounded up (R102). -/
def Mach.loadTime (m : Mach) (h : Nat) : Nat :=
  let n := ceilDiv (m.h (K.HP_DOTS h)) (max 1 (m.h (K.HP_LANES h)))
  if m.g (K.HP_MODE h) = 1 then ceilDiv (n * m.h (K.HP_CMOS_DIV h)) 5
  else if m.h (K.HP_LVDS_RATE h) = 0 then 0 else ceilDiv (n * 100) (m.h (K.HP_LVDS_RATE h))

/-- The slots in use of a table, in 10 ns (R103). -/
def slotsInUse (table : Nat) : List Nat :=
  ((List.range 64).map (fun k => fld table (2 * k) 2)).takeWhile (· ≠ 0) |>.map (fun d => max 10 d)

/-- The slots a dot fires in, as a mask (R104). -/
def dotSlots : List Nat → Nat → Nat → Nat
  | [], _, _ => 0
  | d :: ds, k, t => if d ≤ t then 2 ^ k + dotSlots ds (k + 1) (t - d) else dotSlots ds (k + 1) t

/-- The fired time of a dot in 10 ns (R94). -/
def firedTime (word scale : Nat) (trim : Int) : Nat :=
  clampN 0 65535 (roundRat ((word : Rat) * scale / 128 * ((1024 + trim : Int) : Rat) / 1024)).toNat

/-- The times of a fire sequence from the moment of its first strobe (R106). -/
def entryTimes (off load lat : Nat) : Nat → List (Nat × Nat × Nat) → List FireEntry
  | _, [] => []
  | s, (p, k, d) :: l => { phase := p, slot := k, start := s, dur := d } :: entryTimes off load lat (s + max (d + off) load + lat) l

/-- Number of phases (R105). -/
def phaseCount (groups conc : Nat) : Nat := ceilDiv groups (max 1 conc)

/-- Busy time in 10 ns of a line that fires the given (phase, slot, duration) entries (R106). -/
def Mach.busyTime (m : Mach) (h : Nat) (es : List (Nat × Nat × Nat)) : Nat :=
  let lat := m.h (K.HP_LATCH_WIDTH h) + m.h (K.HP_LATCH_SETUP h)
  match (entryTimes (m.h (K.HP_STROBE_GAP h)) (m.loadTime h) lat (100 + m.loadTime h + lat) es).getLast? with
  | some e => e.start + e.dur
  | none => 0

/-- HP_LINE_TIME: every entry of every phase, from the tables as written (R106). -/
def Mach.lineTime (m : Mach) (h : Nat) : Nat :=
  if m.g (K.HP_MODE h) = 0 then 0
  else
    let sl := slotsInUse (m.g (K.HP_SLOT_TABLE h))
    m.busyTime h ((List.range (phaseCount (m.g (K.HP_SG_GROUPS h)) (m.g (K.HP_SG_CONCURRENT h)))).flatMap
      (fun p => sl.mapIdx (fun k d => (p, k, d))))

/-- Dots of a group from the starts (R105). -/
def groupOf (starts : List Nat) (d : Nat) : Nat := (starts.filter (fun s => decide (s ≤ d))).length - 1

/-- Whether firing of an item on a port is defined: starts from 0 and ascending (R105), ports of a pair alike (R113). -/
def Mach.layoutOk (m : Mach) (h : Nat) (it : Item) (starts : List Nat) : Bool :=
  starts.getD 0 0 == 0 && ascending starts && (match m.stationOf h with
    | none => true
    | some st => (m.stationPorts st).all (fun o =>
        m.h (K.HP_DOTS o) == m.h (K.HP_DOTS h) && m.h (K.HP_PITCH o) == m.h (K.HP_PITCH h)) || it.fallback)

/-- The entries (phase, slot, duration) of a line that fire, from the line record at an address (R94, R103-R106), and
the count of free values used. An undefined layout leaves open which entries fire. -/
def Mach.lineEntries (mem : Mem) (m : Mach) (h : Nat) (it : Item) (a line : Nat) : List (Nat × Nat × Nat) × Nat :=
  let groups := it.s (K.HP_SG_GROUPS h)
  let conc := max 1 (it.s (K.HP_SG_CONCURRENT h))
  let starts := (List.range groups).map (fun i => it.s (K.HP_SG_START h i))
  let sl := slotsInUse (it.s (K.HP_SLOT_TABLE h))
  let np := phaseCount groups conc
  let order := if it.s (K.HP_SG_PHASE_ORDER h) = 1 ∧ line % 2 = 1 then (List.range np).reverse else List.range np
  if m.layoutOk h it starts then
    let dots := m.headDots h
    let w := blockWidth dots
    let trim := (m.head h).trim
    let masks := (List.range dots).foldl (fun (acc : List Nat) d =>
      let t := firedTime (mem.read (a + 0x60 + 2 * d) 2) (mem.byte (a + 0x18 + d / max 1 w)).toNat (trim.getD (d / max 1 w) {}).value
      acc.modify (groupOf starts d / conc) (fun x => x ||| dotSlots sl 0 t)) (List.replicate np 0)
    (order.flatMap (fun p => (enumFrom 0 sl).filterMap (fun x => if bit (masks.getD p 0) x.1 then some (p, x.1, x.2) else none)), 0)
  else
    let all := order.flatMap (fun p => (enumFrom 0 sl).map (fun x => (p, x.1, x.2)))
    (((enumFrom 0 all).filter (fun x => Config.freeNat (m.fresh + x.1) % 2 == 1)).map Prod.snd, all.length)

/-- The dots that are 1 in the load of each fired entry, bit d for dot d (R104, R105); of an undefined layout they are open. -/
def Mach.lineLoads (mem : Mem) (m : Mach) (h : Nat) (it : Item) (a : Nat) (es : List (Nat × Nat × Nat)) : List Nat :=
  let groups := it.s (K.HP_SG_GROUPS h)
  let conc := max 1 (it.s (K.HP_SG_CONCURRENT h))
  let starts := (List.range groups).map (fun i => it.s (K.HP_SG_START h i))
  let sl := slotsInUse (it.s (K.HP_SLOT_TABLE h))
  let dots := m.headDots h
  if m.layoutOk h it starts then
    let w := blockWidth dots
    let trim := (m.head h).trim
    let ps := (List.range dots).map (fun d =>
      let t := firedTime (mem.read (a + 0x60 + 2 * d) 2) (mem.byte (a + 0x18 + d / max 1 w)).toNat (trim.getD (d / max 1 w) {}).value
      (d, groupOf starts d / conc, dotSlots sl 0 t))
    es.map (fun e => ps.foldl (fun x (p : Nat × Nat × Nat) => if p.2.1 = e.1 ∧ bit p.2.2 e.2.1 = true then x + 2 ^ p.1 else x) 0)
  else (enumFrom 0 es).map (fun x => Config.freeNat (m.fresh + x.1) % 2 ^ dots)

/-- The dots a lane carries, in the order they are shifted; a place beyond HP_DOTS is shifted as 0 (R102). -/
def Mach.laneDots (m : Mach) (h lane : Nat) : List (Option Nat) :=
  let l := max 1 (m.h (K.HP_LANES h))
  let dots := m.h (K.HP_DOTS h)
  let n := ceilDiv dots l
  let ds := (List.range n).map (fun k => if m.h (K.HP_LANE_MAP h) = 0 then lane * n + k else k * l + lane)
  (if m.h (K.HP_SHIFT_ORDER h) = 1 then ds.reverse else ds).map (fun d => if lane < l ∧ d < dots then some d else none)

/-- The bits a lane shifts for a load, first bit first (R102). HP_POLARITY bit 2 inverts the dots' bits; the bits beyond HP_DOTS stay 0
(DEDUCED, log entry 100). -/
def Mach.laneBits (m : Mach) (h lane load : Nat) : List Bool :=
  (m.laneDots h lane).map (fun d => match d with | some d => bit load d != bit (m.h (K.HP_POLARITY h)) 2 | none => false)

/-! ### Short lines, R110, R111 -/

/-- A line in progress is cut by a trigger at t10: its remaining entries are counted, it is a short line, and the run may
reach HP_SHORT_LIMIT, which spoils the item with reason 2 at the first line of the run. A line cut short in two passes is one short
line of the item (DESIGN CHOICE, log entry 38). -/
def Mach.cutLine (m : Mach) (h t10 : Nat) (l : FiringLine) : Mach :=
  let m := m.noteStrobes h t10 (m.lineDrove h t10 l)
  let m := (m.count (K.HP_SLOTS_CUT h) (l.remaining t10)).count (K.HP_SHORT_TOTAL h)
  let run := m.g (K.HP_SHORT_RUN h) + 1
  let m := (m.put (K.HP_SHORT_RUN h) (min 64 run)).modHead h (fun x => { x with
    firing := none, runStart := if run = 1 then l.line else x.runStart })
  let m := m.modItem l.item (fun it => if it.shortList.contains l.line then it
    else { it with shortList := l.line :: it.shortList, shortLines := it.shortLines + 1 })
  let m := if run = 1 then m.raiseHp h 0x03 [l.item, l.line] else m
  if m.g (K.HP_SHORT_LIMIT h) ≤ run then m.spoilAt l.item 2 (m.head h).runStart else m

/-- The lead port of an item's count of fired lines: the lead head of the station when it fires the item, else the
first of its heads. -/
def Mach.countingHead (m : Mach) (it : Item) : Nat :=
  let l := m.h (K.TH_LEAD it.station)
  if it.heads.contains l then l else it.heads.headD 0

/-- The line record of the trigger a port takes. -/
def Mach.takeTrigger (m : Mach) (h : Nat) : Option (Nat × Nat × Mach) :=
  match (m.head h).due with
  | [] => none
  | (r, t) :: rest => some (r, t, m.modHead h (fun x => { x with due := rest }))

/-- The next dot of a pass without a result, from a dot on, wrapping once. -/
def nextDot (dots from_ : Nat) (valid : List Nat) : Option Nat :=
  ((List.range dots).map (fun i => (from_ + i) % dots)).find? (fun d => !(valid.contains d))

/-- HP_SCAN_NEXT: the dot the next step measures, one without a result in this pass (R126, R144). -/
def Mach.showNext (m : Mach) (h : Nat) : Mach :=
  let s := (m.head h).scan
  m.put (K.HP_SCAN_NEXT h) ((nextDot (m.headDots h) s.dot s.valid).getD s.dot)

/-- A trigger abandons the scan step in progress (R126): its strobe goes off, it has no result, and its dot is retried at its next
turn. -/
def Mach.scanAbandon (m : Mach) (h t10 : Nat) : Mach :=
  let x := m.head h
  if !x.scan.pulsing then m
  else (m.modHead h (fun x => { x.clipScan t10 with scan := { x.scan with
    pulsing := false, dot := if m.headDots h = 0 then 0 else (x.scan.dot + 1) % m.headDots h } })).showNext h

/-- A line trigger reaches a port (R93, R106, R110, R111). badWord says that the line record holds an uncorrectable
word (R39, R93). -/
def Mach.trigger (mem : Mem) (m : Mach) (h : Nat) (badWord : Bool) : Mach :=
  match m.takeTrigger h with
  | none => m
  | some (r, t10, m) =>
    match m.item? (m.g (K.HP_ITEM h)) with
    | none => m
    | some it =>
      let p := it.headPlan h
      let a := p.addr + r * lineRecordBytes p.dots
      let line := r % max 1 it.length
      let m := m.lineSettle h t10
      let m := m.scanAbandon h t10
      if badWord || m.badIn a (lineRecordBytes p.dots) then
        let m := if badWord then m.badFound a (lineRecordBytes p.dots) else m
        if it.final then m else m.spoilFrom it.id 5 line r
      else
        let pred := (List.range 8).map (fun i => sext 16 (mem.read (a + 8 + 2 * i) 2))
        let m := m.trimUpdate h it pred
        if (m.head h).heldOff r then m
        else
          let (es, used) := m.lineEntries mem h it a line
          let m := { m with fresh := m.fresh + used }
          let m := match (m.head h).firing with
            | some l => if es = [] then m else m.cutLine h t10 l
            | none => m
          if (m.head h).heldOff r then m
          else
            let m := (m.count (K.HP_LINES_FIRED h)).put (K.HP_LINE h) line
            let m := if h = m.countingHead it then m.modItem it.id (fun it => { it with linesFired := it.linesFired + 1 }) else m
            if es = [] then m
            else if m.strobesForced h then m.count (K.HP_SLOTS_CUT h) es.length
            else
              let lat := m.h (K.HP_LATCH_WIDTH h) + m.h (K.HP_LATCH_SETUP h)
              let fe := entryTimes (m.h (K.HP_STROBE_GAP h)) (m.loadTime h) lat (t10 + 100 + m.loadTime h + lat) es
              let busy := match fe.getLast? with | some e => e.start + e.dur | none => t10
              let loads := m.lineLoads mem h it a es
              let m := if m.layoutOk h it ((List.range (it.s (K.HP_SG_GROUPS h))).map (fun i => it.s (K.HP_SG_START h i))) then m
                else { m with fresh := m.fresh + es.length }
              m.modHead h (fun x => { x with
                firing := some { item := it.id, record := r, line, trigger := t10, entries := fe, busyUntil := busy, loads } })

/-! ### Triggers from a position, R108, R109 -/

/-- The boundary of a line of the pass a port is in, in 1/65,536 of the source's unit (R108). -/
def Mach.boundary (m : Mach) (h : Nat) (it : Item) (l : Nat) : Int :=
  let c := m.h (K.TH_LINE_COUNTS it.station)
  let delta : Nat := if m.headOffset it h = 0 then 0 else it.s (K.TH_TANDEM_OFFSET it.station) * c / 16
  (m.head h).origin + (((it.preFeed + l) * c + delta : Nat) : Int)

/-- Append a trigger for every boundary at or below a position that has none yet. -/
def Mach.dueLines (m : Mach) (h : Nat) (it : Item) (pos : Int) (t10 : Nat) : Nat → Mach
  | 0 => m
  | n + 1 =>
    let x := m.head h
    if x.nextLine < it.length ∧ m.boundary h it x.nextLine ≤ pos then
      Mach.dueLines (m.modHead h (fun x => { x with
        due := x.due ++ [(x.pass * it.length + x.nextLine, t10)], nextLine := x.nextLine + 1 })) h it pos t10 n
    else m

/-- A position of 48 bits as the one nearest to a high-water mark that it may stand for (R108). -/
def unwrap48 (high pos : Int) : Int := high + sext 48 (ofInt 48 (pos - high))

/-- A port follows its encoder's position, in 1/65,536 count (R109). With several passes its triggers are disarmed from a pass's last
line to the next pass (R114). -/
def Mach.encoderAt (m : Mach) (h : Nat) (pos : Int) (t10 : Nat) : Mach :=
  let x := m.head h
  let pos := unwrap48 x.high pos
  match m.item? (m.g (K.HP_ITEM h)) with
  | none => m
  | some it =>
    if !x.armed ∨ (1 < it.passes ∧ it.length ≤ x.nextLine) then m
    else if x.high < pos then
      let m := if x.suspended then (m.modHead h (fun x => { x with suspended := false })).raiseHp h 0x05 [] else m
      let m := m.modHead h (fun x => { x with high := pos })
      m.dueLines h it pos t10 (it.length - x.nextLine)
    else
      let lead := m.h (K.TH_LEAD it.station)
      let w := m.g (K.HP_BACKLASH (if m.isTandem it.station then lead else h))
      if (w : Int) * 65536 < x.high - pos ∧ x.suspended = false then
        ((m.modHead h (fun x => { x with suspended := true })).count (K.HP_SUSPENDS h)).raiseHp h 0x04 []
      else m

/-- The inspection of an item counts only rows stamped after its last pass begins; item line 0 lies at P_0 + 16 × PRE_FEED (R288,
R289). -/
def Mach.inspFrom (m : Mach) (it : Item) (origin : Int) : Mach :=
  let l0 := ((origin : Rat) * 16 / (m.h (K.TH_LINE_COUNTS it.station) : Rat)).floor + 16 * (it.preFeed : Int)
  { m with insp := m.insp.map (fun r => if r.item = it.id then { r with line0 := l0, since := some m.time } else r) }

/-- A pass of an item begins on its ports: P_0 is latched, high-water marks are reset (R108, R114); the run of short lines counts
within an item (R111). -/
def Mach.passBegin (m : Mach) (it : Item) (pass : Nat) (origin : Int) : Mach :=
  it.heads.foldl (fun m h =>
    let m := if pass = 0 then m.put (K.HP_SHORT_RUN h) 0 else m
    (m.modHead h (fun x => { x with
    armed := true, off := if pass = 0 then none else x.off, pass := pass, nextLine := 0, due := []
    runStart := if pass = 0 then 0 else x.runStart
    origin := origin, high := origin, suspended := false })).put (K.HP_ITEM h) it.id)
    (if pass + 1 = it.passes then m.inspFrom it origin else m)

/-- HP_FIRING (R123): 3 latched off, 2 suspended, 1 while the lines of an item are triggered, else 0 idle (DEDUCED, log
entry 27). -/
def Mach.firingView (m : Mach) (h : Nat) : Nat :=
  let x := m.head h
  if x.pepper then 3 else if x.suspended then 2 else if x.armed && !(x.heldOff (x.nextRecord (((m.item? (m.g (K.HP_ITEM h))).map Item.length).getD 0))) then 1 else 0

/-! ### Removing and fitting heads, R118-R122 -/

/-- Restart an item RENDERING for another set of heads (R119, R122): its memory is reserved anew; without room it waits
with its bands not begun. -/
def Mach.restartFor (m : Mach) (id : Nat) (heads : List Nat) (fallback : Bool) : Mach :=
  let m := (m.dropBands id).modItem id (fun it => { it with
    heads, fallback, span := none, sumSpan := none, plan := { it.plan with heads := [] } })
  match m.item? id with
  | none => m
  | some it =>
    let need := m.thermalNeed it heads
    match m.poolFind need.1 with
    | none => m
    | some a =>
      let m := m.modItem id (fun it => { it with span := some (a, need.1) })
      match m.poolFind need.2 with
      | none => m.modItem id (fun it => { it with span := none })
      | some b => ((m.modItem id (fun it => { it with sumSpan := some (b, need.2) })).beginBands id)

/-- Begin the bands of items that wait for memory after such a restart. -/
def Mach.retryStarved (m : Mach) : Mach :=
  (m.items.filter (fun it => it.state == .rendering && it.span.isNone && !it.isSL)).foldl (fun m it =>
    m.restartFor it.id it.heads it.fallback) m

/-- The items of a station RENDERING restart for the ports that fire now (R92, R119, R122). -/
def Mach.restartHeads (m : Mach) (st : Nat) : Mach :=
  ((m.itemsOf st (fun it => it.state == .rendering)).foldl (fun m it =>
    let hs := m.activePorts st
    let m := m.restartFor it.id hs (m.g (K.TH_ST_MODE st) == 2)
    hs.foldl (fun m h => m.raiseHp h 0x46 [it.id]) m) m).pump

/-- The items printing with a head, each with the line the removal of that head spoils it at (R47). -/
def Mach.removalLines (m : Mach) (h : Nat) : List (Nat × Nat) :=
  (m.items.filter (fun it => it.heads.contains h && it.state == .printing)).map (fun it => (it.id, m.itemLine it true))

/-- Effect of a removal on the items of the station (R119); lines gives those it spoils. -/
def Mach.removalItems (m : Mach) (st h : Nat) (lines : List (Nat × Nat)) : Mach :=
  let uses (it : Item) : Bool := it.heads.contains h
  let m := (m.itemsOf st (fun it => uses it && (it.state == .admitted || it.state == .committed))).foldl (fun m it => m.cancel it.id 4) m
  let m := lines.foldl (fun m (p : Nat × Nat) => m.spoilAt p.1 4 p.2) m
  if m.isTandem st && m.g (K.TH_TANDEM_POLICY st) = 1 then
    let rest := (m.stationPorts st).filter (fun x => x != h)
    let m := m.puts [(K.TH_ST_MODE st, 2), (K.TH_ST_ACTIVE_PORTS st, rest.foldl (fun a x => a + 2 ^ x) 0)]
    ((m.raiseTh st 0x01 []).refreshStations).restartHeads st
  else m

/-- A head is removed (R118): without firmware everything of the port goes off. A head whose identity was not known when it was removed
equals no other (DESIGN CHOICE, log entry 100). -/
def Mach.removeHead (m : Mach) (h : Nat) : Mach :=
  let lines := m.removalLines h
  let m := m.strobesOff h
  let crc := m.g (K.HP_ID_CRC h)
  let m := m.modHead h (fun y => { y with
    presN := true, pwrEn := false, pwrFell := if y.pwrEn then some m.time else y.pwrFell, fit := .none, high := 0, suspended := false
    armed := false, off := none, due := [], firing := none, firstFit := false, idKnown := false
    lastCrc := if y.idKnown then some crc else none, scan := { classes := y.scan.classes } })
  let m := (m.resetTrim h).puts [(K.HP_SHORT_RUN h, 0), (K.HP_ID_DATA h, objDefault (K.HP_ID_DATA h)), (K.HP_ID_CRC h, 0), (K.HP_SCAN_NEXT h, 0),
    (K.HP_PRESENT h, 0), (K.HP_REMOVALS h, (m.g (K.HP_REMOVALS h) + 1) % 65536)]
  let m := m.raiseHp h 0x06 []
  let m := (m.refreshHead h).partnerLost dscHead h 0 0
  match m.stationOf h with
  | some st => m.removalItems st h lines
  | none => m

/-- The insertion sequence starts at step 1 (R120): the ID settings are read. -/
def Mach.fitStart (m : Mach) (h : Nat) : Mach :=
  let m := (m.sample [K.HP_ID_ADDR h, K.HP_ID_LEN h, K.HP_ID_SPEED h]).modHead h (fun x => { x with
    fit := .seen, fitEdge := m.time, idTries := 0, pwrEn := false, pwrFell := if x.pwrEn then some m.time else x.pwrFell
    scan := { classes := x.scan.classes } })
  (m.put (K.HP_SCAN_NEXT h) 0).refreshHead h

/-- Clear a scan for a new pass. -/
def ScanRun.newPass (s : ScanRun) (insertion : Bool) : ScanRun :=
  { s with insertion, valid := [], ovr := [], pulsing := false, dot := if insertion then 0 else s.dot }

/-! ### The resistance scan, R126-R130 -/

/-- t_on and t_step of a scan step, in 10 ns (R127). -/
def Mach.scanTimes (m : Mach) (h : Nat) : Nat × Nat :=
  let on := 100 + m.loadTime h + m.h (K.HP_LATCH_WIDTH h) + m.h (K.HP_LATCH_SETUP h)
  (on, on + m.g (K.HP_SCAN_PULSE h) + 50)

/-- When the next planned trigger of a port comes (10 ns), for a planned-position source. -/
def Mach.nextTrigger (m : Mach) (h : Nat) : Option Nat :=
  match m.item? (m.g (K.HP_ITEM h)) with
  | none => none
  | some it =>
    let x := m.head h
    if !x.armed || decide (it.length ≤ x.nextLine) then none
    else match x.due with
      | (_, t) :: _ => some t
      | [] =>
        match m.feedAxis it.station with
        | none => none
        | some a =>
          match (m.axis a).mode, (m.axis a).plan with
          | .profile _, some p => some (p.start10 + timeAt p.pieces ((m.boundary h it x.nextLine : Rat) / 65536 - p.origin))
          | _, _ => none

/-- Whether an item of a port's station is ADMITTED or PRINTING. -/
def Mach.portBusy (m : Mach) (h : Nat) : Bool :=
  match m.stationOf h with
  | none => false
  | some st => (m.itemsOf st (fun it => it.state == .admitted || it.state == .printing)) != []

/-- Whether a scan of a port runs: an occasion of R126 stands, whether or not a step is on at the moment (DEDUCED, log entry 102). -/
def Mach.scanRuns (m : Mach) (h : Nat) : Bool :=
  let x := m.head h
  let en := m.g (K.HP_SCAN_ENABLE h)
  x.scan.pulsing || (m.g (K.HP_MODE h) != 0 && x.pwrEn && !x.pepper && decide (0 < m.headDots h)
    && (x.fit == .scanning || (x.fit == .done && (if m.portBusy h then bit en 1 && (match m.stationOf h with
      | none => false
      | some st => m.h (K.TH_TRIG_SRC st) == 0) else bit en 0))))

/-- Whether a scan step may start now (R126). -/
def Mach.scanMayStart (m : Mach) (h : Nat) : Bool :=
  let x := m.head h
  let now := m.now10
  let spaced := match x.scan.lastStart with
    | none => true
    | some t => decide (t + m.g (K.HP_SCAN_PERIOD h) ≤ m.time)
  let base := m.g (K.HP_MODE h) != 0 && x.pwrEn && !x.pepper && !x.scan.pulsing && spaced && decide (0 < m.headDots h)
  let en := m.g (K.HP_SCAN_ENABLE h)
  let busyItems := m.portBusy h
  let idle := x.fit == .done && bit en 0 && !busyItems
  let gap := x.fit == .done && bit en 1 && busyItems && (match m.stationOf h with
    | none => false
    | some st => m.h (K.TH_TRIG_SRC st) == 0)
    && (match x.firing with | none => true | some l => decide (l.busyUntil ≤ now))
    && (match m.nextTrigger h with | none => true | some t => decide (now + (m.scanTimes h).2 + 200 ≤ t))
    && x.scan.lineTag != some (m.g (K.HP_ITEM h), x.nextLine)
  base && (x.fit == .scanning || idle || gap)

/-- A scan step starts (R127). -/
def Mach.scanStart (m : Mach) (h : Nat) : Mach :=
  if !(m.scanMayStart h) then m
  else
    let x := m.head h
    match nextDot (m.headDots h) x.scan.dot x.scan.valid with
    | none => m
    | some d =>
      let (on, st) := m.scanTimes h
      let starts := (List.range (m.g (K.HP_SG_GROUPS h))).map (fun i => m.g (K.HP_SG_START h i))
      let g := groupOf starts d
      let t := m.now10 + on
      let w := m.g (K.HP_SCAN_PULSE h)
      let forced := m.strobesForced h
      let m := m.modHead h (fun x => { x with scan := { x.scan with
        dot := d, pulsing := true, strobe := (g, t, t + w), iOff := none, iOn := none, vOn := none, cut := forced
        lastStart := some m.time, stepEnd := m.now10 + st, lineTag := some (m.g (K.HP_ITEM h), x.nextLine) } })
      if forced then m else m.noteStrobes h m.now10 [(g, t, w)]

/-- What a step measured (R128): none when it is invalid, with whether an over-range flag made it so. -/
def Mach.scanResult (m : Mach) (h : Nat) : Option Nat × Bool :=
  let s := (m.head h).scan
  if s.cut then (none, false)
  else match s.iOff, s.iOn, s.vOn with
    | some (i0, f0), some (i1, f1), some (v, fv) =>
      if f0 || fv then (none, true)
      else if f1 then (some 0, false)
      else
        let di : Int := (i1 : Int) - i0
        if di ≤ (m.g (K.HP_SCAN_I_MIN h) : Int) then (some 0xFFFF, false)
        else
          let num : Rat := (v : Rat) * (m.gf (K.HP_SCAN_V_SCALE h)).val
          let den : Rat := (di : Rat) * (m.gf (K.HP_SCAN_I_SCALE h)).val
          if den = 0 then (some (if num = 0 then Config.freeNat m.fresh % 0xFFFF else 0xFFFE), false)
          else (some (clampI 0 0xFFFE (roundRat (4 * num / den))).toNat, false)
    | _, _, _ => (none, false)

/-- The median of a list of values (mean of the middle two of an even number). -/
def median (l : List Nat) : Rat :=
  let s := l.mergeSort (fun a b => decide (a ≤ b))
  let n := s.length
  if n = 0 then 0
  else if n % 2 = 1 then (s.getD (n / 2) 0 : Rat)
  else ((s.getD (n / 2 - 1) 0 : Rat) + (s.getD (n / 2) 0 : Rat)) / 2

/-- Class of a dot by its stored resistance (R129). -/
def dotClassOf (openF shortF med : Rat) (driftPct v ref : Nat) : Nat :=
  let q : Rat := v
  if v = 0xFFFF ∨ openF * med < q then 2
  else if q < shortF * med then 3
  else
    let d := if v < ref then ref - v else v - ref
    if driftPct * ref < 100 * d then 1 else 0

/-- Write a class into a map entry under HP_MAP_AUTO (R133). -/
def mapEntry (hideDefault e new : Nat) : Nat :=
  let dead := decide (2 ≤ e % 8 ∧ e % 8 ≤ 5)
  let newDead := decide (2 ≤ new ∧ new ≤ 5)
  if bit e 5 then e
  else if dead && !newDead then e
  else
    let e1 := e - e % 8 + new
    if newDead && !dead then e1 - (e1 / 8 % 4) * 8 + hideDefault * 8 else e1

/-- Write class changes to the dot map of a port (R130, R133). The answer says whether the map changed. -/
def Mach.applyClasses (m : Mach) (h : Nat) (ch : List (Nat × Nat)) : Mach × Bool :=
  if m.gb (K.HP_MAP_AUTO h) then
    let old := m.g (K.HP_DOT_MAP h)
    let map := ch.foldl (fun x c => setFld x c.1 1 (mapEntry (m.g (K.HP_HIDE_DEFAULT h)) (fld x c.1 1) c.2)) old
    (m.put (K.HP_DOT_MAP h) map, map != old)
  else (m, false)

/-- Dots of class DRIFT in the map. -/
def Mach.showDrift (m : Mach) (h : Nat) : Mach :=
  let map := m.g (K.HP_DOT_MAP h)
  m.put (K.HP_DRIFT_COUNT h) ((List.range (m.headDots h)).filter (fun d => dotClass map d == 1)).length

/-- Items RENDERING take a dot map that was written, but for one that the optical gate writes (R92, R130, R131). -/
def Mach.mapTaken (m : Mach) (h : Nat) : Mach :=
  { m with items := m.items.map (fun it => if it.state == .rendering && it.maps.any (fun p => p.1 == h) then
      { it with maps := it.maps.map (fun p => if p.1 = h then (h, m.g (K.HP_DOT_MAP h)) else p) } else it) }

/-- Restart of items RENDERING after a write of dot data (R92, R130). -/
def Mach.dotDataWritten (m : Mach) (h : Nat) : Mach :=
  match m.stationOf h with
  | some st => m.restartStation st
  | none => m

/-- The end of a scan pass (R129, R130). -/
def Mach.scanPassEnd (m : Mach) (h : Nat) : Mach :=
  let x := m.head h
  let s := x.scan
  let dots := m.headDots h
  let meas := m.g (K.HP_DOT_MEASURED h)
  let vals := (List.range dots).map (fun d => fld meas (2 * d) 2)
  let med := median (vals.filter (· ≠ 0xFFFF))
  let m := if s.insertion && !x.sameHead then m.put (K.HP_DOT_REF h) meas else m
  let ref := m.g (K.HP_DOT_REF h)
  let oF := (m.gf (K.HP_OPEN_FACTOR h)).val
  let sF := (m.gf (K.HP_SHORT_FACTOR h)).val
  let cls := (enumFrom 0 vals).map (fun p => dotClassOf oF sF med (m.g (K.HP_DRIFT_LIMIT h)) p.2 (fld ref (2 * p.1) 2))
  let now (d : Nat) : Nat := ((s.classes.find? (fun (p : Nat × Nat) => p.1 == d)).map Prod.snd).getD 0
  let changes := (enumFrom 0 cls).filter (fun p => p.2 != now p.1 && (s.insertion || s.pending.getD p.1 0xFF == p.2))
  let m := (m.puts [(K.HP_RES_MEDIAN h, (roundRat med).toNat % 65536)]).count (K.HP_SCAN_PASSES h)
  let m := m.modHead h (fun x => { x with scan := { x.scan with
    classes := (x.scan.classes.filter (fun (p : Nat × Nat) => !(changes.any (fun c => c.1 == p.1)))) ++ changes
    pending := cls } })
  let m := changes.foldl (fun m c => m.raiseHp h 0x11 [c.1, now c.1, c.2]) m
  let (m, mapped) := m.applyClasses h changes
  let res := m.g (K.HP_DOT_RES h)
  let far := (enumFrom 0 vals).any (fun p =>
    let r := fld res (2 * p.1) 2
    decide (m.g (K.HP_RES_DEADBAND h) * r < 100 * (if p.2 < r then r - p.2 else p.2 - r)))
  let write := s.insertion || (m.gb (K.HP_SCAN_AUTO h) && far)
  let m := if write then m.put (K.HP_DOT_RES h) (res - res % 256 ^ (2 * dots) + packLe 2 vals) else m
  let m := (m.raiseHp h 0x10 []).showDrift h
  let m := m.modHead h (fun x => { x with
    fit := if s.insertion then .done else x.fit
    scan := x.scan.newPass false })
  let m := (m.showNext h).refreshPair h
  let m := if mapped then m.mapTaken h else m
  if write || mapped then m.dotDataWritten h else m

/-- A scan step ends (R128). -/
def Mach.scanEnd (m : Mach) (h : Nat) : Mach :=
  let s := (m.head h).scan
  if !s.pulsing then m
  else
    let (v, ovr) := m.scanResult h
    let m := { m with fresh := m.fresh + 1 }
    let n := ((s.ovr.find? (fun (p : Nat × Nat) => p.1 == s.dot)).map Prod.snd).getD 0 + 1
    let v := if ovr && decide (8 ≤ n) then some 0xFFFF else v
    let m := m.modHead h (fun x => { x with scan := { x.scan with
      pulsing := false, dot := if m.headDots h = 0 then 0 else (s.dot + 1) % m.headDots h
      ovr := if ovr then (s.dot, n) :: x.scan.ovr.filter (fun (p : Nat × Nat) => decide (p.1 ≠ s.dot)) else x.scan.ovr
      valid := if v.isSome then s.dot :: x.scan.valid else x.scan.valid } })
    let m := m.showNext h
    match v with
    | none => m
    | some v =>
      let m := m.put (K.HP_DOT_MEASURED h) (setFld (m.g (K.HP_DOT_MEASURED h)) (2 * s.dot) 2 v)
      if m.headDots h ≤ (m.head h).scan.valid.length then m.scanPassEnd h else m

/-- A head's identity is known (R120 step 4, R121): stored, compared, reported, and the insertion scan begins. -/
def Mach.headFitted (m : Mach) (h : Nat) (data : List Byte) : Mach :=
  let crc := crc32 data
  let x := m.head h
  let same := !x.firstFit && (m.h (K.HP_ID_LEN h) == 0 || x.lastCrc == some crc)
  let m := m.puts [(K.HP_ID_DATA h, ofLe data + 256 ^ data.length), (K.HP_ID_CRC h, crc), (K.HP_SCAN_NEXT h, 0)]
  let m := m.modHead h (fun x => { x with fit := .scanning, idKnown := true, sameHead := same, scan := x.scan.newPass true })
  let m := (m.raiseHp h 0x07 [crc]).partnerFound dscHead h crc 0
  let m := if same then m else match m.stationOf h with
    | none => m
    | some st => (m.itemsOf st (fun it => it.state == .committed)).foldl (fun m it => m.cancel it.id 4) m
  let m := m.refreshHead h
  if m.headDots h = 0 then m.scanPassEnd h else m

end Sys2Proof.Machine
end

