-- ==== Sys2Proof/Machine/MediaOps.lean ====
section
/-! DEFINITION. The media path of a thermal station (R147-R164): sensing, top of form, alignment and learning feeds, media
presence, ribbon, cutting and presenting. -/

namespace Sys2Proof.Machine

open Sys2Proof

def Mach.sta (m : Mach) (st : Nat) : StationRt := m.stations.getD st {}
def Mach.modSta (m : Mach) (st : Nat) (f : StationRt → StationRt) : Mach := { m with stations := m.stations.modify st f }
def Mach.chan (m : Mach) (st c : Nat) : SenseChan := (m.sta st).chans.getD c {}
def Mach.modChan (m : Mach) (st c : Nat) (f : SenseChan → SenseChan) : Mach :=
  m.modSta st (fun x => { x with chans := x.chans.modify c f })

/-- Accepted active level of a sense input; 0xFF names none (R240). -/
def Mach.si (m : Mach) (n : Nat) : Bool := decide (n < 24) && bit (m.g K.SI_STATE) n

/-! ### Positions on the media path -/

/-- Position of a station's trigger source in 1/65,536 of its unit (R108). -/
def Mach.sourcePos (m : Mach) (st : Nat) : Rat :=
  let src := m.h (K.TH_TRIG_SRC st)
  if src = 0 then (match m.feedAxis st with | some a => m.axPos a * 65536 | none => 0)
  else (m.gi 32 (K.QE_COUNT (src - 1)) : Rat) * 65536

/-- A source position as a station line position, 1/16 line. -/
def Mach.toLine (m : Mach) (st : Nat) (q : Rat) : Int := (q * 16 / (m.h (K.TH_LINE_COUNTS st) : Rat)).floor
/-- The station line position now. -/
def Mach.linePos (m : Mach) (st : Nat) : Int := m.toLine st (m.sourcePos st)
/-- 1/16 lines as pos of the feed axis. -/
def Mach.linesToPos (m : Mach) (st : Nat) (l16 : Rat) : Rat := l16 / 16 * m.posPerLine st
/-- Whether the feed of a station is at rest. -/
def Mach.feedAtRest (m : Mach) (st : Nat) : Bool := match m.feedAxis st with | some a => m.axVel a == 0 | none => true
/-- 0.1 mm/s as pos/s of the feed axis. -/
def Mach.feedSpeed (m : Mach) (st v : Nat) : Rat := (v : Rat) * 100000 / (m.h (K.TH_LINE_NM st) : Rat) * m.posPerLine st
/-- The join speed of an item (R87, R245). -/
def Mach.joinOf (m : Mach) (st : Nat) (id : Option Nat) : Rat := m.feedSpeed st (m.lim id (K.TH_MIN_SPEED st))

/-- The item that the profile in force on a feed serves. -/
def Mach.feedItem (m : Mach) (st : Nat) : Option Nat :=
  match m.feedAxis st with
  | none => none
  | some a => match (m.axis a).mode with | .profile p => p.kind.item | _ => none

/-- A station halt (R236). -/
def Mach.stationHalt (m : Mach) (st : Nat) : Mach :=
  match m.feedAxis st with
  | some a => m.axHalt a (m.stopOf st (m.feedItem st))
  | none => m

/-! ### Alignment feeds, R152, R153 -/

/-- Travel to reach the join speed of an item from a speed, in 1/16 line, rounded up. -/
def Mach.reachJoin (m : Mach) (it : Item) (v : Rat) : Int :=
  let st := it.station
  let d := rampDist (m.accelOf st (some it.id)) (m.jerkOf st (some it.id)) v (m.joinOf st (some it.id))
  if m.posPerLine st = 0 then 0 else (d * 16 / m.posPerLine st).ceil

/-- P_0 of an item placed at a TOF, at an offset. -/
def Item.p0At (it : Item) (ofs t : Int) : Int := t + ofs - 16 * (it.preFeed : Int)

/-- The step of predicted TOFs; 0 when none can be predicted. -/
def Mach.formStep (m : Mach) (st : Nat) : Nat :=
  if m.g (K.TH_FORM_LEN st) ≠ 0 then m.g (K.TH_FORM_LEN st) else m.g (K.TH_FORM_LEN_NOM st)

/-- The TOF to place an item at and whether it is predicted (R152). -/
def Mach.chooseTof (m : Mach) (it : Item) (ofs start need : Int) : Option (Int × Bool) :=
  let st := it.station
  match (m.sta st).tofs.find? (fun t => decide (need ≤ it.p0At ofs t - start)) with
  | some t => some (t, false)
  | none =>
    let f := m.formStep st
    match (m.sta st).lastTof with
    | none => none
    | some l =>
      if f = 0 then none
      else
        let short := start + need - it.p0At ofs l
        let k := max 1 ((short + f - 1) / f)
        some (l + k * f, true)

/-- Pieces, in pos, of an item's alignment feed over a distance (1/16 line), from a speed. -/
def Mach.alignPieces (m : Mach) (it : Item) (v : Rat) (d : Int) : List Piece :=
  let st := it.station
  let join := m.joinOf st (some it.id)
  let up := rampPiece (m.accelOf st (some it.id)) (m.jerkOf st (some it.id)) 0 0 v join
  let up : List Piece := if v = join then [] else [up]
  joinPieces up [flatPiece 0 0 (max 0 (m.linesToPos st d - piecesLen up)) join]

/-- Travel of a seek: until it is ended. -/
def seekTravel : Int := 2 ^ 40

/-- Where the feed will be, and at what speed, when what is queued on it has run: the start of an alignment feed. -/
def Mach.feedEnd (m : Mach) (st : Nat) : Int × Rat :=
  match m.feedAxis st with
  | none => (m.linePos st, 0)
  | some a =>
    let x := m.axis a
    let q := x.queue.foldl (fun s p => s + p.length) (0 : Rat)
    match x.mode, x.plan with
    | .profile p, some pl =>
      let rest := pl.origin + p.length - x.posAt10 m.now10
      let v := match x.queue.getLast? with | some l => l.vEnd | none => p.vEnd
      let far := rest + q
      (m.linePos st + (if m.posPerLine st = 0 then 0 else (far * 16 / m.posPerLine st).floor), v)
    | _, _ =>
      let v := match x.queue.getLast? with | some l => l.vEnd | none => 0
      (m.linePos st + (if m.posPerLine st = 0 then 0 else (q * 16 / m.posPerLine st).floor), v)

/-- Whether an earlier item of a station still has its cut to come, so that the feed starts again from rest (R162). -/
def Mach.cutAhead (m : Mach) (it : Item) : Bool :=
  (m.itemsOf it.stIndex (fun x => (x.state == .admitted || x.state == .printing) && x.id != it.id && x.endAction != 0)) != []

/-- Change the alignment of an item. -/
def Mach.modAlign (m : Mach) (st id : Nat) (f : AlignRun → AlignRun) : Mach :=
  m.modSta st (fun x => { x with aligns := x.aligns.map (fun y => if y.item = id then f y else y) })

/-- The alignment of an item, with the offset and limit its admission reads (R166). -/
def Mach.alignRun (m : Mach) (it : Item) : AlignRun :=
  match (m.sta it.station).aligns.find? (fun r => r.item == it.id) with
  | some r => r
  | none => { item := it.id, ofs := m.gi 32 (K.TH_TOF_OFFSET it.station), seekMax := m.g (K.TH_SEEK_MAX it.station), waiting := true }

/-- Start an alignment of an item from a place and speed: the feed to P_0, or a seek (R152, R153). -/
def Mach.alignFrom (m : Mach) (it : Item) (start : Int) (v : Rat) : Mach × List Piece :=
  let st := it.station
  let r := m.alignRun it
  let need := if v = m.joinOf st (some it.id) then 0 else m.reachJoin it v
  let pick := if (m.sta st).tofSeen then m.chooseTof it r.ofs start need else none
  let put (r : AlignRun) : Mach := m.modSta st (fun x => { x with aligns :=
    (if x.aligns.any (fun (y : AlignRun) => y.item == it.id) then x.aligns.map (fun (y : AlignRun) => if y.item = it.id then r else y)
     else x.aligns ++ [r]) })
  match pick with
  | some (t, pred) =>
    let p0 := it.p0At r.ofs t
    (put { r with tof := some t, predicted := pred, p0, start, seek := none, waiting := false }, m.alignPieces it v (p0 - start))
  | none => (put { r with tof := none, start, seek := some start, waiting := false }, m.alignPieces it v seekTravel)

/-- Queue an item's alignment feed at admission. After a cut, or after an alignment that has no TOF yet, its start is known only when it
begins; its pieces are made then. -/
def Mach.queueAlign (m : Mach) (it : Item) : Mach :=
  match m.feedAxis it.station with
  | none => m
  | some a =>
    if m.cutAhead it || (m.sta it.station).aligns.any (fun r => r.tof.isNone) then
      (m.modSta it.station (fun x => { x with aligns := x.aligns ++ [m.alignRun it] })).axQueue a (mkProfile (.align it.id) [])
    else
      let (start, v) := m.feedEnd it.station
      let (m, ps) := m.alignFrom it start v
      m.axQueue a (mkProfile (.align it.id) ps)

/-- A TOF is accepted: the alignments it concerns are placed or corrected (R152, R153). A feed that seeks takes the first TOF, queued or
predicted, that qualifies. A real TOF is compared with the predicted one it stands for, the nearest, also after P_0. -/
def Mach.alignTof (m : Mach) (st : Nat) (t : Int) : Mach :=
  (m.sta st).aligns.foldl (fun m r =>
    match m.item? r.item with
    | none => m
    | some it =>
      let p := m.linePos st
      let v := match m.feedAxis st with | some a => m.axVel a | none => 0
      let begun := decide (r.start ≤ p)
      let here := if begun then p else r.start
      let need := if begun then m.reachJoin it v else m.reachJoin it 0
      if r.waiting then m
      else match r.tof with
      | none =>
        match m.chooseTof it r.ofs here need with
        | some (u, pred) =>
          let p0 := it.p0At r.ofs u
          m.modAlign st r.item (fun y => { y with tof := some u, predicted := pred, p0, move := some p0, seek := none })
        | none => m
      | some u =>
        let d := t - u
        if !r.predicted || decide ((m.formStep st : Int) < 2 * d) || decide ((m.formStep st : Int) < -(2 * d)) then m
        else
          let q := it.p0At r.ofs t
          let ok := !r.begun && decide (p < r.p0) && decide (need ≤ q - here)
          let m := m.modAlign st r.item (fun y => { y with predicted := false, tof := some t
                                                           p0 := if ok then q else y.p0, move := if ok then some q else y.move })
          m.raiseIf (decide ((m.g (K.TH_TOF_MISREG_TOL st) : Int) < d) || decide ((m.g (K.TH_TOF_MISREG_TOL st) : Int) < -d))
            (0x2713 + 0x20 * st) [it.id, ofInt 32 d]) m

/-- Whether a profile is an item's alignment feed. -/
def Profile.aligns (p : Profile) (id : Nat) : Bool := match p.kind with | .align i => i == id | _ => false

/-- The alignments after one whose end has moved start as much later: they are placed anew. -/
def Mach.realign (m : Mach) (a : Nat) (delta : Int) (later : List AlignRun) : Mach :=
  later.foldl (fun (acc : Mach × Int) r =>
    let m := acc.1
    if r.waiting || acc.2 == 0 then acc
    else match m.item? r.item, (m.axis a).queue.find? (fun p => p.aligns r.item) with
      | some it, some q =>
        let (m, ps) := m.alignFrom it (r.start + acc.2) q.vStart
        let r' := m.alignRun it
        let m := m.modAxis a (fun x => { x with queue := x.queue.map (fun p => if p.aligns r.item then mkProfile p.kind ps else p) })
        (m, if r.tof.isNone || r'.tof.isNone then 0 else r'.p0 - r.p0)
      | _, _ => acc) (m, delta) |>.1

/-- The alignment feed in progress, rebuilt from the present state to end at a new P_0 (R245), and how far its end moves. -/
def Mach.alignRebuilt (m : Mach) (st a : Nat) (it : Item) (p : Profile) (p0 : Int) : Profile × Rat :=
  let join := m.joinOf st (some it.id)
  let jerk := m.jerkOf st (some it.id)
  let v := m.axVel a
  let old := match (m.axis a).plan with | some pl => pl.origin + p.length | none => m.axPos a
  let turn := turnPiece v ((m.axis a).accAt10 m.now10) jerk
  let v1 := match turn.getLast? with | some p => p.v1 | none => v
  let dist := m.linesToPos st (p0 - m.linePos st) - piecesLen turn
  let up : List Piece := if v1 = join then [] else [rampPiece (m.accelOf st (some it.id)) jerk 0 0 v1 join]
  let q := mkProfile (.align it.id) (joinPieces turn (joinPieces up [flatPiece 0 0 (max 0 (dist - piecesLen up)) join]))
  (q, m.axPos a + q.length - old)

/-- The length of an item's queued alignment feed. -/
def Mach.queuedAlign (m : Mach) (a id : Nat) : Rat :=
  match (m.axis a).queue.find? (fun p => p.aligns id) with | some p => p.length | none => 0

/-- pos as 1/16 lines, rounded down. -/
def Mach.posToLines (m : Mach) (st : Nat) (d : Rat) : Int := if m.posPerLine st = 0 then 0 else (d * 16 / m.posPerLine st).floor

/-- The planner takes moved ends of alignment feeds (R245): the feed in progress is rebuilt from the present state, one
that waits in the queue anew; those behind it follow. -/
def Mach.alignMoves (m : Mach) (st : Nat) : Mach :=
  match m.feedAxis st with
  | none => m
  | some a => (m.sta st).aligns.foldl (fun m r =>
    match r.move, m.item? r.item with
    | some p0, some it =>
      let m := m.modAlign st r.item (fun y => { y with move := none })
      let later := (((m.sta st).aligns.dropWhile (fun y => y.item != r.item)).drop 1)
      let queued (m : Mach) : Mach :=
        let old := m.queuedAlign a r.item
        let m := m.modAxis a (fun x => { x with queue := x.queue.map (fun p =>
          if p.aligns r.item then mkProfile p.kind (m.alignPieces it p.vStart (p0 - r.start)) else p) })
        m.realign a (m.posToLines st (m.queuedAlign a r.item - old)) later
      match (m.axis a).mode with
      | .profile p =>
        if p.aligns r.item then
          let (q, moved) := m.alignRebuilt st a it p p0
          (m.modAxis a (fun x => { x.planFrom m.now10 q.pieces with mode := .profile q })).realign a (if r.seek.isSome then 0 else m.posToLines st moved) later
        else queued m
      | _ => queued m
    | _, _ => m) m

/-- Alignments end with their items; those whose item prints wait for the real TOF (R152). -/
def Mach.alignsEnd (m : Mach) (st : Nat) : Mach :=
  m.modSta st (fun x => { x with aligns := x.aligns.filter (fun r => match m.item? r.item with
    | some it => it.state == .admitted || it.state == .printing
    | none => false) })

/-- No TOF within TH_SEEK_MAX lines (R153): the feed stops, the media reads absent, the station holds. -/
def Mach.seekOver (m : Mach) (st : Nat) : Bool :=
  (m.sta st).aligns.any (fun r => match r.seek with
    | some s => decide (s + 16 * (r.seekMax : Int) ≤ m.linePos st)
    | none => false)

/-! ### Media presence, R155, R156 -/

/-- Whether a head still has lines of an item to fire. -/
def Mach.linesLeft (m : Mach) (it : Item) (h : Nat) : Bool :=
  let x := m.head h
  m.g (K.HP_ITEM h) == it.id && x.armed && (decide (x.pass + 1 < it.passes) || decide (x.nextLine < it.length) || x.due != [])

/-- The line positions, 1/16 line, at which the heads that still have lines of an item to fire fire its last line. A later pass begins
where this one did (R114). -/
def Mach.lastFires (m : Mach) (it : Item) : List Int :=
  (it.heads.filter (m.linesLeft it)).map (fun h => m.toLine it.station (m.boundary h it (it.length - 1)))

/-- The medium has ended at a place (R156): an item that prints completes where its last line is fired by then, else it is spoiled with
reason 10. -/
def Mach.mediaEnds (m : Mach) (st : Nat) (at_ : Int) : Mach :=
  (m.itemsOf st (fun it => it.state == .printing)).foldl (fun m it =>
    if (m.lastFires it).all (fun p => decide (p ≤ at_)) then m else m.spoil it.id 10) m

/-- Presence of the medium by its inputs (R155). -/
def Mach.mediaThere (m : Mach) (st : Nat) : Bool :=
  let si := m.h (K.TH_MEDIA_PRES_SI st)
  (decide (23 < si) || m.si si) && !(m.chan st 0).out

/-- Bring a station's media presence up to date (R155). at_ is where the medium ends when it goes absent. -/
def Mach.mediaEval (m : Mach) (st : Nat) (at_ : Int) : Mach :=
  let now := m.mediaThere st
  if now = m.gb (K.TH_MEDIA_PRESENT st) then m
  else
    let m := (m.put (K.TH_MEDIA_PRESENT st) (b2n now)).raiseTh st (if now then 0x11 else 0x10) []
    let m := m.partnerIs dscMedia st now
    if now then
      (m.modSta st (fun x => { x with tofs := [], lastTof := none, tofSeen := false })).put (K.TH_TOF_QUEUED st) 0
    else m.mediaEnds st at_

/-- The media channel enters the out state. -/
def Mach.mediaOut (m : Mach) (st : Nat) (at_ : Int) : Mach :=
  (m.modChan st 0 (fun c => { c with out := true, back := none, restBack := none })).mediaEval st at_

/-- The media channel leaves the out state. -/
def Mach.mediaBack (m : Mach) (st : Nat) : Mach :=
  (m.modChan st 0 (fun c => { c with out := false, inMark := false, back := none, restBack := none })).mediaEval st 0

/-- SEEK_LIMIT (R153). -/
def Mach.seekLimit (m : Mach) (st : Nat) : Mach :=
  if !(m.seekOver st) then m
  else
    let id := match (m.sta st).aligns.find? (fun r => r.seek.isSome) with | some r => r.item | none => 0
    let m := (m.stationHalt st).modSta st (fun x => { x with aligns := x.aligns.filter (fun r => r.seek.isNone) })
    (m.mediaOut st (m.linePos st)).setHold st id

/-! ### Top of form, R150, R151, R154 -/

/-- Publish the number of queued TOFs. -/
def Mach.showTofs (m : Mach) (st : Nat) : Mach := m.put (K.TH_TOF_QUEUED st) (m.sta st).tofs.length

/-- TOFs leave the queue as the head line passes them (R150). -/
def Mach.passTofs (m : Mach) (st : Nat) : Mach :=
  let p := m.linePos st
  (m.modSta st (fun x => { x with tofs := x.tofs.filter (fun t => decide (p ≤ t)) })).showTofs st

/-- A learning feed ends (R154). -/
def Mach.learnEnd (m : Mach) (st : Nat) (ok : Bool) : Mach :=
  let m := (m.stationHalt st).modSta st (fun x => { x with learn := none })
  (m.put (K.TH_LEARN_STATE st) (if ok then 2 else 3)).raiseTh st (if ok then 0x16 else 0x17) []

/-- Mean of the last accepted lengths, rounded to the nearest 1/16 line. -/
def meanLen (l : List Nat) : Nat := if l = [] then 0 else roundDiv (l.foldl (· + ·) 0) l.length

/-- A TOF at the head line position t: its length is checked, and it is queued (R150, R151, R154). -/
def Mach.topOfForm (m : Mach) (st : Nat) (t : Int) : Mach :=
  let x := m.sta st
  let nom := m.g (K.TH_FORM_LEN_NOM st)
  let queue (m : Mach) : Mach :=
    let m := (m.modSta st (fun x => { x with
      tofs := let l := x.tofs ++ [t]; l.drop (l.length - 16)
      lastTof := some t, tofSeen := true, learn := x.learn.map (fun (l : Int × Nat) => (l.1, l.2 + 1)) })).showTofs st
    let m := m.alignTof st t
    match (m.sta st).learn with
    | some l => if 3 ≤ l.2 then m.learnEnd st true else m
    | none => m
  match x.lastTof with
  | none => queue m
  | some l =>
    let len := (t - l).toNat
    let off := if len < nom then nom - len else len - nom
    if nom = 0 ∨ 100 * off ≤ nom * m.g (K.TH_LEN_TOL st) then
      let lens := (x.lens ++ [len]).drop ((x.lens ++ [len]).length - 4)
      queue ((m.modSta st (fun x => { x with lens })).put (K.TH_FORM_LEN st) (meanLen lens))
    else
      let m := m.modSta st (fun x => { x with learn := x.learn.map (fun (l : Int × Nat) => (l.1, 0)) })
      ((m.count (K.TH_LEN_REJECTS st)).raiseTh st 0x12 [len])

/-! ### Sense channels, R147-R149 -/

/-- T from the levels (R149). -/
def Mach.senseT (m : Mach) (st c : Nat) (lm lg : Rat) : Int := (lm + (lg - lm) * (m.g (K.SNS_FRACTION st c) : Rat) / 256).floor

/-- Publish a channel's levels, rounded down. -/
def Mach.showLevels (m : Mach) (st c : Nat) : Mach :=
  let x := m.chan st c
  m.put (K.SNS_LEVELS st c) (packLe 2 [x.lm.floor.toNat, x.lg.floor.toNat])

/-- The loop at configuration (R149). -/
def Mach.senseReset (m : Mach) (st c : Nat) : Mach :=
  let lo := m.g (K.SNS_LOWER st c)
  let hi := m.g (K.SNS_UPPER st c)
  let m := m.modChan st c (fun _ => { lm := lo, lg := hi })
  (m.puts [(K.SNS_THRESHOLD st c, (m.senseT st c lo hi).toNat), (K.SNS_LOOP_STATUS st c, 0)]).showLevels st c

/-- Set T within the bounds with its status and events (R149, R24-R26). -/
def Mach.senseSet (m : Mach) (st c : Nat) (lm lg : Rat) : Mach :=
  let old := m.g (K.SNS_LOOP_STATUS st c)
  if old = 3 then m
  else
    let x := m.chan st c
    let (t, s, p) := loopUpdate (m.g (K.SNS_LOWER st c)) (m.g (K.SNS_UPPER st c)) (m.g (K.SNS_FREEZE_COUNT st c)) old x.pinned
      (m.g (K.SNS_THRESHOLD st c)) (m.senseT st c lm lg)
    let m := m.modChan st c (fun x => { x with lm, lg, pinned := p })
    let m := (m.puts [(K.SNS_THRESHOLD st c, t.toNat), (K.SNS_LOOP_STATUS st c, s)]).showLevels st c
    let m := m.raiseIf ((s = 1 || s = 2) && s ≠ old) (0x2714 + 0x20 * st) [c]
    m.raiseIf (s = 3) (0x2715 + 0x20 * st) [c]

/-- The threshold loop at an accepted episode (R149). -/
def Mach.senseLearn (m : Mach) (st c : Nat) : Mach :=
  let x := m.chan st c
  let k : Rat := ((2 ^ m.g (K.SNS_LEARN_SHIFT st c) : Nat) : Rat)
  let g : Rat := if x.n = 0 then x.lg else (x.sum : Rat) / (x.n : Rat)
  let md : Rat := if x.medium = [] then x.lm else ((x.medium.foldl (· + ·) 0 : Nat) : Rat) / (x.medium.length : Rat)
  (m.senseSet st c (x.lm + (md - x.lm) / k) (x.lg + (g - x.lg) / k)).modChan st c (fun x => { x with medium := [], learned := true })

/-- The levels with which a learning feed begins (R154): the lowest and highest signal since it began, and the T they give within the
bounds; it is no update of the loop (DEDUCED, log entry 110). -/
def Mach.learnLevels (m : Mach) (st c : Nat) : Mach :=
  if m.g (K.SNS_LOOP_STATUS st c) = 3 then m
  else
    let x := m.chan st c
    let t := clampI (m.g (K.SNS_LOWER st c)) (m.g (K.SNS_UPPER st c)) (m.senseT st c x.lo x.hi)
    ((m.modChan st c (fun x => { x with lm := x.lo, lg := x.hi })).put (K.SNS_THRESHOLD st c) t.toNat).showLevels st c

/-! ### Ribbon travel, R158, R161 -/

/-- π, correct to 20 decimals; the results it enters are rounded far above that. -/
def piRat : Rat := 314159265358979323846 / 100000000000000000000

/-- The axes of a station's ribbon (R166). -/
def Mach.ribSupply (m : Mach) (st : Nat) : Nat := m.h (K.TH_RIB_SUPPLY_AXIS st)
def Mach.ribTakeup (m : Mach) (st : Nat) : Nat := m.h (K.TH_RIB_TAKEUP_AXIS st)

/-- Spool travel as ribbon travel in 1/16 line, at a radius in mm. -/
def Mach.ribTravel (m : Mach) (st : Nat) (pos r : Rat) : Rat :=
  if m.h (K.TH_RIB_COUNTS_REV st) = 0 then 0
  else pos / (m.h (K.TH_RIB_COUNTS_REV st) : Rat) * 2 * piRat * r * 1000000 / (m.h (K.TH_LINE_NM st) : Rat) * 16

/-- Ribbon travel since a panel positioning began. -/
def Mach.panelTravel (m : Mach) (st : Nat) (p : PanelRun) : Int :=
  (m.ribTravel st (m.axPos (m.ribTakeup st) - p.from_) (m.sta st).rt).floor

/-- The travel against which a channel measures: the medium's, or the ribbon's while it is wound to a panel. -/
def Mach.sensePos (m : Mach) (st c : Nat) : Int :=
  match (m.sta st).panel with
  | some p => if c = 1 then m.panelTravel st p else m.linePos st
  | none => m.linePos st

/-- Whether what a channel sees moves. -/
def Mach.senseMoves (m : Mach) (st c : Nat) : Bool :=
  match (m.sta st).panel with
  | some _ => if c = 1 then m.axVel (m.ribTakeup st) != 0 else !(m.feedAtRest st)
  | none => !(m.feedAtRest st)

/-- A mark of the ribbon channel (R161): where it begins and how long it is. -/
def Mach.panelMark (m : Mach) (st : Nat) (entry len : Int) : Mach :=
  m.modSta st (fun x => { x with panel := x.panel.map (fun p =>
    if p.target.isNone && (!p.set || decide ((m.g (K.TH_SET_MARK st) : Int) ≤ len)) then
      { p with target := some (entry - m.hi 32 (K.SNS_DIST st 1) + m.gi 32 (K.TH_PANEL_OFFSET st)) }
    else p) })

/-- One conversion of a sense channel (R147-R151, R154, R155). At rest it counts in the means, and no edge is detected. An episode
discarded as noise leaves the medium run as it was (R148). -/
def Mach.senseConv (m : Mach) (st c code : Nat) (flag : Bool) : Mach :=
  if flag then m
  else
    let s := if m.h (K.SNS_POLARITY st c) = 1 then 4095 - code else code
    let half := m.g (K.SNS_HYST st c) / 2
    let m :=
      if c = 0 && (m.sta st).learn.isSome then
        let m := m.modChan st c (fun x => { x with lo := min x.lo s, hi := max x.hi s })
        let x := m.chan st c
        if x.learned then m else m.learnLevels st c
      else m
    let x := m.chan st c
    let t := m.g (K.SNS_THRESHOLD st c)
    let p := m.sensePos st c
    if !(m.senseMoves st c) then
      m.modChan st c (fun x =>
        let x := if x.inMark then { x with sum := x.sum + s, n := x.n + 1 } else { x with medium := (s :: x.medium).take 4096 }
        if c = 0 && x.out then { x with restBack := if s + half < t then some (x.restBack.getD m.time) else none } else x)
    else if !x.inMark then
      if t + half ≤ s then m.modChan st c (fun x => { x with inMark := true, entry := p, sum := s, n := 1, restBack := none })
      else
        let m := m.modChan st c (fun x => { x with medium := (s :: x.medium).take 4096, back := some (x.back.getD p), restBack := none })
        if c = 0 && x.out && decide (x.back.getD p + 256 ≤ p) then m.mediaBack st else m
    else if s + half < t then
      let len := if p < x.entry then x.entry - p else p - x.entry
      if len < (m.g (K.SNS_MIN_LEN st c) : Int) then
        let m := m.modChan st c (fun x => { x with inMark := false, medium := (s :: x.medium).take 4096, back := some (x.back.getD p) })
        let m := m.count (K.SNS_NOISE_COUNT st c)
        if c = 0 && x.out && decide (x.back.getD p + 256 ≤ p) then m.mediaBack st else m
      else
        let m := m.modChan st c (fun x => { x with inMark := false, back := some p })
        let m := (m.senseLearn st c).modChan st c (fun x => { x with medium := [s] })
        if c = 1 then m.panelMark st x.entry len
        else
          let d := m.hi 32 (K.SNS_DIST st 0)
          match m.h (K.SNS_MODE st 0) with
          | 1 => m.topOfForm st (p - d)
          | 2 => m.topOfForm st (x.entry - d)
          | _ => m
    else
      let m := m.modChan st c (fun x => { x with sum := x.sum + s, n := x.n + 1 })
      let len := if p < x.entry then x.entry - p else p - x.entry
      if c = 0 && !x.out && decide ((m.g (K.TH_OUT_LEN st) : Int) ≤ len) then
        m.mediaOut st (x.entry - m.hi 32 (K.SNS_DIST st 0))
      else m

/-- A conversion of an analogue input goes to every sense channel that reads it: channel 1 only with panel ribbons. -/
def Mach.senseDeliver (m : Mach) (ain code : Nat) (flag : Bool) : Mach :=
  upto m.nStations m (fun m st =>
    if !(m.configured st) then m
    else upto 2 m (fun m c =>
      if m.h (K.SNS_MODE st c) ≠ 0 ∧ m.h (K.SNS_AIN st c) = ain ∧ (c = 0 ∨ 0 < m.h (K.TH_PANELS st)) then m.senseConv st c code flag
      else m))

/-! ### Ribbon, R157-R161 -/

/-- Whether a station is fitted with a ribbon drive. -/
def Mach.hasRibbon (m : Mach) (st : Nat) : Bool := m.configured st && m.h (K.TH_RIBBON st) != 0
/-- Ribbon present (R41): fitted and neither out nor broken. -/
def Mach.ribbonThere (m : Mach) (st : Nat) : Bool := let s := m.g (K.TH_RIB_STATE st); 1 ≤ s && s ≤ 3

/-- Publish radii and travel. -/
def Mach.showRibbon (m : Mach) (st : Nat) : Mach :=
  let x := m.sta st
  m.puts [(K.TH_RIB_R_SUPPLY st, (roundRat (x.rs * 10)).toNat), (K.TH_RIB_R_TAKEUP st, (roundRat (x.rt * 10)).toNat),
    (K.TH_RIB_USED st, x.used.floor.toNat), (K.TH_RIB_SAVED st, x.saved.floor.toNat)]

/-- A ribbon is fitted (R158, R159): radii at full and core, counts at 0. -/
def Mach.ribbonFit (m : Mach) (st : Nat) (event : Bool) : Mach :=
  let m := m.modSta st (fun x => { x with
    rs := (m.g (K.TH_RIB_R_FULL st) : Rat) / 10, rt := (m.g (K.TH_RIB_R_CORE st) : Rat) / 10
    used := 0, saved := 0, window := none, badS := 0, badT := 0, heldAt := none, atSet := false })
  let m := ((m.showRibbon st).put (K.TH_RIB_STATE st) 1)
  (m.raiseIf event (0x271A + 0x20 * st)).partnerIs dscRibbon st true

/-- A ribbon fault (R159): OUT 4 or BROKEN 5, the printing item spoiled with reason 11. -/
def Mach.ribbonFault (m : Mach) (st state : Nat) (event : Option Nat) : Mach :=
  let m := (m.put (K.TH_RIB_STATE st) state).modSta st (fun x => { x with window := none, heldAt := none, panel := none })
  let m := match event with | some e => m.raiseTh st e [] | none => m
  (m.partnerIs dscRibbon st false).spoilStation st 11

/-- The currents of the spools at a tick (R157), in mA. -/
def Mach.ribbonCurrents (m : Mach) (st : Nat) : Mach :=
  if !(m.hasRibbon st) then m
  else
    let x := m.sta st
    let amps (r : Rat) (kt : R32) : Int := if kt.val = 0 then Config.freeInt m.fresh else roundRat ((m.g (K.TH_RIB_TENSION st) : Rat) * r / kt.val)
    let m := m.axAmps (m.ribSupply st) (amps x.rs (m.gf (K.TH_RIB_KT_S st)))
    if x.panel.isSome then m else m.axAmps (m.ribTakeup st) (amps x.rt (m.gf (K.TH_RIB_KT_T st)))

/-- TH_RIB_STATE while the ribbon is in order: held, feeding with the feed, idle. -/
def Mach.ribbonState (m : Mach) (st : Nat) : Mach :=
  if !(m.hasRibbon st) ∨ !(m.ribbonThere st) then m
  else m.put (K.TH_RIB_STATE st) (if (m.sta st).heldAt.isSome then 3 else if m.feedAtRest st then 1 else 2)

/-- Where a spool stands: by its encoder, since its planned position stands still in CURRENT mode; without one by the planned position
(DEDUCED, log entry 111). -/
def Mach.spoolPos (m : Mach) (n : Nat) : Rat := if (m.axis n).enc = 0xFF then m.axPos n else m.axEnc n

/-- Whether a station's feed moves forward. -/
def Mach.feedForward (m : Mach) (st : Nat) : Bool := match m.feedAxis st with | some a => decide (0 < m.axVel a) | none => false

/-- A window begins where the feed moves forward with the head down; one that the feed leaves backwards, or in which the head is lifted,
is dropped (DEDUCED, log entry 111). -/
def Mach.windowBegin (m : Mach) (st : Nat) : Mach :=
  if !(m.hasRibbon st) ∨ !(m.ribbonThere st) then m
  else
    let x := m.sta st
    if x.heldAt.isSome || x.lifted || (!(m.feedForward st) && !(m.feedAtRest st)) then m.modSta st (fun x => { x with window := none })
    else if x.window.isSome || !(m.feedForward st) then m
    else m.modSta st (fun x => { x with window := some (m.linePos st, m.spoolPos (m.ribSupply st), m.spoolPos (m.ribTakeup st)) })

/-- Whether a radius estimate is valid (R158). -/
def windowValid (slip : Nat) (r rn : Rat) : Bool :=
  let d := if rn < r then r - rn else rn - r
  decide (d * 100 ≤ r * (slip : Rat))

/-- A ribbon window ends (R158, R159). -/
def Mach.ribbonWindow (m : Mach) (st : Nat) : Mach :=
  let x := m.sta st
  match x.window with
  | none => m
  | some (p, s0, t0) =>
    let win := m.g (K.TH_RIB_WIN st)
    if m.linePos st - p < 16 * (win : Int) then m
    else
      let mm : Rat := ((win * m.h (K.TH_LINE_NM st) : Nat) : Rat) / 1000000
      let rev : Rat := m.h (K.TH_RIB_COUNTS_REV st)
      let est (d : Rat) : Option Rat :=
        let d := if d < 0 then -d else d
        if d = 0 ∨ rev = 0 then none else some (mm / (2 * piRat * (d / rev)))
      let es := est (wrapPos (m.spoolPos (m.ribSupply st) - s0))
      let et := est (wrapPos (m.spoolPos (m.ribTakeup st) - t0))
      let slip := m.g (K.TH_RIB_SLIP st)
      let okS := match es with | some r => windowValid slip x.rs r | none => false
      let okT := match et with | some r => windowValid slip x.rt r | none => false
      let m := m.modSta st (fun x => { x with
        rs := if okS then x.rs + (es.getD 0 - x.rs) / 4 else x.rs
        rt := if okT then x.rt + (et.getD 0 - x.rt) / 4 else x.rt
        badS := if okS then 0 else x.badS + 1, badT := if okT then 0 else x.badT + 1
        used := x.used + mm, window := none })
      let m := (m.showRibbon st).windowBegin st
      let y := m.sta st
      if 2 ≤ y.badS ∨ 2 ≤ y.badT then m.ribbonFault st 5 (some 0x19)
      else if okS && decide (y.rs * 10 < (m.g (K.TH_RIB_R_OUT st) : Rat)) then m.ribbonFault st 4 (some 0x18)
      else m

/-- Lift or lower the print head of a station with its actuator. -/
def Mach.headLift (m : Mach) (st : Nat) (up : Bool) : Mach :=
  (m.axActuate (m.h (K.TH_RIB_LIFT_AXIS st)) up).modSta st (fun x => { x with lifted := up })

/-- The ribbon is held where it is. -/
def Mach.ribbonHold (m : Mach) (st : Nat) : Mach := m.modSta st (fun x => { x with heldAt := some (x.heldAt.getD (m.linePos st)), window := none })

/-- The ribbon follows the feed again: what the medium moved meanwhile is saved. -/
def Mach.ribbonRelease (m : Mach) (st : Nat) (counts : Bool) : Mach :=
  match (m.sta st).heldAt with
  | none => m
  | some p =>
    let mm : Rat := ((m.linePos st - p : Int) : Rat) / 16 * (m.h (K.TH_LINE_NM st) : Rat) / 1000000
    (m.modSta st (fun x => { x with heldAt := none, saved := if counts then x.saved + mm else x.saved })).showRibbon st

/-! Ribbon saving, R160 -/

/-- Runs of consecutive places that satisfy a test, as (first, last). -/
def runsOf (p : Nat → Bool) : Nat → Nat → Option Nat → List (Nat × Nat)
  | 0, i, some a => if a < i then [(a, i - 1)] else []
  | 0, _, none => []
  | n + 1, i, none => if p i then runsOf p n (i + 1) (some i) else runsOf p n (i + 1) none
  | n + 1, i, some a => if p i then runsOf p n (i + 1) (some a) else (a, i - 1) :: runsOf p n (i + 1) none

/-- The save runs of an item from its committed plans (R160), as line records. -/
def Mach.planSaves (mem : Mem) (m : Mach) (it : Item) : List SaveRun :=
  let st := it.station
  let head (h r : Nat) : Nat := (it.headPlan h).addr + r * lineRecordBytes (it.headPlan h).dots
  let g := m.g (K.TH_SAVE_GUARD st)
  let nsMs (ms p : Nat) : Nat := if p = 0 then 0 else ceilDiv (ms * 1000000) p
  (List.range it.passes).flatMap (fun q =>
    let rec0 := q * it.length
    let blank (l : Nat) : Bool := it.heads.all (fun h => bit (mem.read (head h (rec0 + l) + 6) 1) 0)
    ((runsOf blank it.length 0 none).filter (fun r => decide (m.g (K.TH_SAVE_MIN st) ≤ r.2 + 1 - r.1))).filterMap (fun r =>
      let h := m.countingHead it
      let ps := (List.range (r.2 + 1 - r.1)).map (fun i => mem.read (head h (rec0 + r.1 + i)) 4)
      let p := ps.foldl min (ps.headD 0)
      let hold := r.1 + g + nsMs (m.g (K.TH_RIB_LIFT_MS st)) p
      let back := g + nsMs (m.g (K.TH_RIB_LOWER_MS st)) p
      if hold + back < r.2 + 1 then
        some { item := it.id, lift := rec0 + r.1 + g, hold := rec0 + hold, lower := rec0 + (r.2 + 1 - back), check := if r.2 + 1 < it.length then rec0 + r.2 + 1 else it.length * it.passes }
      else none))

/-- What a line boundary of the lead head does to the ribbon (R160). -/
def Mach.saveAction (m : Mach) (st id r : Nat) : Mach :=
  (m.sta st).saves.foldl (fun m s =>
    if s.item ≠ id then m
    else
      let m := if r = s.lift then m.headLift st true else m
      let m := if r = s.hold then m.ribbonHold st else m
      let m := if r = s.lower then (m.headLift st false).ribbonRelease st true else m
      if r = s.check then
        let si := m.h (K.TH_RIB_DOWN_SI st)
        if si < 24 ∧ m.si si = false then
          (((m.raiseTh st 0x1B []).count (K.TH_SAVE_LATE st)).put (K.TH_SAVE_ENABLE st) 0)
        else m
      else m) m

/-! Panels, R161 -/

/-- Wind the ribbon to the next mark: head up, take-up at TH_RETRACT_SPEED. -/
def Mach.panelWind (m : Mach) (st item : Nat) (set : Bool) : Mach :=
  let m := (m.ribbonRelease st false).headLift st true
  let a := m.ribTakeup st
  let r := (m.sta st).rt
  let v : Rat := if r = 0 then 0 else (m.g (K.TH_RETRACT_SPEED st) : Rat) / 10 / (2 * piRat * r) * (m.h (K.TH_RIB_COUNTS_REV st) : Rat)
  (m.modSta st (fun x => { x with panel := some { item, set, from_ := m.axPos a } })).axRun a v

/-- Ribbon travel (1/16 line) as spool travel, at a radius in mm. -/
def Mach.spoolTravel (m : Mach) (st : Nat) (l16 : Int) (r : Rat) : Rat :=
  if r = 0 then 0
  else (l16 : Rat) / 16 * (m.h (K.TH_LINE_NM st) : Rat) / 1000000 / (2 * piRat * r) * (m.h (K.TH_RIB_COUNTS_REV st) : Rat)

/-- The progress of a panel positioning at a tick: once its mark is known the take-up stops on the target (a target closer than its
stopping distance is passed and returned to); ribbon out past TH_PANEL_MAX; head down. -/
def Mach.panelTick (m : Mach) (st : Nat) : Mach :=
  match (m.sta st).panel with
  | none => m
  | some p =>
    let a := m.ribTakeup st
    match p.lowering with
    | some t =>
      let si := m.h (K.TH_RIB_DOWN_SI st)
      let down := if si < 24 then m.si si else decide (t + 1000 * m.g (K.TH_RIB_LOWER_MS st) ≤ m.time)
      if down then m.modSta st (fun x => { x with panel := none, atSet := p.set }) else m
    | none =>
      match p.target with
      | some t =>
        if !p.going then
          (m.axGo a (p.from_ + m.spoolTravel st t (m.sta st).rt)).modSta st (fun x => { x with panel := some { p with going := true } })
        else if m.axState a = axIdle then
          (m.headLift st false).modSta st (fun x => { x with panel := some { p with lowering := some m.time } })
        else m
      | none => if (m.g (K.TH_PANEL_MAX st) : Int) < m.panelTravel st p then (m.axRun a 0).ribbonFault st 4 (some 0x18) else m

/-- Before an item's first profile begins the ribbon is wound to a set start where it does not stand at one; the feed waits (R161). -/
def Mach.panelFirst (m : Mach) (st : Nat) (q : Profile) : Mach :=
  let wind (id : Nat) : Mach :=
    if 0 < m.h (K.TH_PANELS st) ∧ (m.sta st).atSet = false ∧ (m.sta st).panel.isNone then m.panelWind st id true else m
  match q.kind with
  | .align id => wind id
  | .pass id 0 => wind id
  | _ => m

/-! ### Cutting and presenting, R162-R164 -/

/-- The marks of a test pattern (R137): LADDER one per dot, TANDEM its bars, GEOMETRY the vertical marks and both bars, REGISTER four
crosses of each kind, FACET the vertical lines and one line mark per beam. Which features count as marks is a DESIGN CHOICE (log entry
103). -/
def Mach.calMarks (m : Mach) (it : Item) (pattern : Nat) : Nat :=
  let dots := m.headDots (m.g K.TH_CAL_PORT)
  match pattern with
  | 1 => dots
  | 2 => 32
  | 3 => (dots + 31) / 64 + 2
  | 4 => 8
  | _ => ceilDiv it.width 256 + m.h K.LS_BEAMS

/-- The mean of n measured values, the i-th less a nominal one. Where the gate finds a mark is what its camera sees: free values (log
entry 103). -/
def Mach.meanMeasured (m : Mach) (from_ n : Nat) (nominal : Nat → Int) : Int :=
  if n = 0 then Config.freeInt (m.fresh + from_)
  else roundRat ((((List.range n).foldl (fun a i => a + (Config.freeInt (m.fresh + from_ + i) - nominal i)) 0 : Int) : Rat) / (n : Rat))

/-- The results of a pattern (R139), with how many free values they draw. -/
def Mach.calResults (m : Mach) (pattern : Nat) : List (Nat × Nat) × Nat :=
  match pattern with
  | 1 => ([], 0)
  | 2 => ([(K.TH_CAL_TANDEM_ERR, ofInt 32 (m.meanMeasured 0 16 (fun _ => 512)))], 16)
  | 3 =>
    let dots := m.headDots (m.g K.TH_CAL_PORT)
    let n := (dots + 31) / 64
    let edge := m.gi 32 K.TH_CAL_EDGE_REF
    let lat := m.meanMeasured 0 n (fun j => edge + 16 * (64 * (j : Int) + 32))
    let y (i : Nat) : Int := Config.freeInt (m.fresh + n + 1 + i)
    let skew : Int := if n ≤ 1 then y 0 else roundRat (((y 1 - y 0 : Int) : Rat) * ((dots - 1 : Nat) : Rat) / ((64 * (n - 1) : Nat) : Rat))
    ([(K.TH_CAL_LAT, ofInt 16 lat), (K.TH_CAL_SKEW, ofInt 16 skew)], n + 3)
  | 4 => ([(K.TH_CAL_REG_X, ofInt 32 (m.meanMeasured 0 4 (fun _ => 0))), (K.TH_CAL_REG_Y, ofInt 32 (m.meanMeasured 4 4 (fun _ => 0)))], 8)
  | _ =>
    let facets := m.h K.LS_FACETS
    let beams := m.h K.LS_BEAMS
    let f (i : Nat) : Int := Config.freeInt (m.fresh + i)
    ([(K.TH_CAL_FACET, packLe 2 ((List.range 12).map (fun i => if i < facets then ofInt 16 (f i - f 0) else 0))),
      (K.TH_CAL_BEAM, packLe 2 ((List.range 8).map (fun i =>
        if i % 4 < beams then ofInt 16 (f (12 + i) - f (12 + i / 4 * 4)) else 0)))], 20)

/-- An alignment measurement on an item that is printed and inspected ends (R138, R139): fewer than 90 % of the pattern's marks
fail it with code 2, an item printed without INSPECT among them. The dead dots of pattern 1 are counted where they are classed
(R131). -/
def Mach.calItemDone (m : Mach) (it : Item) : Mach :=
  if m.g K.TH_CAL_ITEM ≠ it.id ∨ m.g K.TH_CAL_STATE ≠ 2 then m
  else
    let pattern := m.g K.TH_CAL_PATTERN
    let total := m.calMarks it pattern
    let (found, m) := if it.inspect then m.freeBelow (total + 1) else (0, m)
    let m := m.put K.TH_CAL_MARKS (min 65535 found)
    if 10 * found < 9 * total then m.calFail 2
    else
      let (vals, used) := m.calResults pattern
      let m := { m.puts vals with fresh := m.fresh + used, calResult := (pattern, m.g K.TH_CAL_PORT, it.station) }
      let m := m.put K.TH_CAL_STATE 3
      if it.isSL then m.raise 0x2784 [] else m.raiseTh it.station 0x03 []

/-- The printed item reaches DONE when everything of R36 holds. -/
def Mach.itemDone (m : Mach) (id : Nat) : Mach :=
  match m.item? id with
  | none => m
  | some it =>
    if it.state == .printing && it.feedDone && it.endDone && decide (it.length * (if it.isSL then 1 else it.passes) ≤ it.linesFired)
        && (!it.inspect || it.inspected) then
      let m := if it.isSL then m else it.heads.foldl (fun m h => if m.g (K.HP_ITEM h) = id then m.disarmHead h else m) m
      (((m.finish id .done 0).itemEvent 0x2303 id).publishGains it).calItemDone it
    else m

/-- The end action of an item is complete. -/
def Mach.endDone (m : Mach) (id : Nat) : Mach := (m.modItem id (fun it => { it with endDone := true })).itemDone id

/-- The travel of the cut feed from the end of the last pass, in pos (R162). -/
def Mach.cutDistance (m : Mach) (st : Nat) : Rat :=
  m.linesToPos st (((m.gi 32 (K.TH_CUT_OFFSET st) + (m.h (K.TH_CUT_DIST st) : Int) : Int) : Rat))

/-- The cut feed of an item: from the join speed to rest with the cut point at the blade. -/
def Mach.cutFeed (m : Mach) (st id : Nat) : Profile × Bool :=
  let join := m.joinOf st (some id)
  let (ps, over_) := movePieces (m.accelOf st (some id)) (m.stopOf st (some id)) (m.jerkOf st (some id)) join join (m.cutDistance st)
  ({ mkProfile (.cutFeed id) ps with vStart := join, vEnd := 0 }, over_)

/-- The feed moves back by the cut feed's travel. -/
def Mach.cutReturn (m : Mach) (st id : Nat) (d : Rat) : Profile :=
  { mkProfile (.cutReturn id) (movePieces (m.accelOf st (some id)) (m.stopOf st (some id)) (m.jerkOf st (some id))
      (m.joinOf st (some id)) 0 (-d)).1 with vStart := 0, vEnd := 0 }

/-- A retract (R114): a stop at TH_STOP_DECEL, then back by the distance of the pass. -/
def Mach.retract (m : Mach) (it : Item) (pass : Nat) (len : Rat) : Profile :=
  let st := it.station
  let join := m.joinOf st (some it.id)
  let d := m.stopOf st (some it.id)
  let j := m.jerkOf st (some it.id)
  let stop := rampPiece d j 0 0 join 0
  { mkProfile (.retract it.id pass) (joinPieces [stop] (restMove (m.accelOf st (some it.id)) d j
      (m.feedSpeed st (it.s (K.TH_RETRACT_SPEED st))) (-len))) with vStart := join, vEnd := 0 }

/-- A cut begins: it reads its values (R166). -/
def Mach.cutReads (m : Mach) (st : Nat) : Mach :=
  m.modSta st (fun x => { x with
    cutTravel := m.cutDistance st, cutFull := m.gi 32 (K.TH_CUT_FULL_POS st), cutPart := m.gi 32 (K.TH_CUT_PARTIAL_POS st)
    cutTimeout := m.g (K.TH_CUT_TIMEOUT st), cutBack := m.gb (K.TH_CUT_BACKFEED st) })

/-- The profile of one pass of a committed item, in pos from where it begins. -/
def Mach.passProfile (m : Mach) (it : Item) (q : Nat) : Profile :=
  let ps := m.passPieces it it.plan.speeds
  mkProfile (.pass it.id q) (scalePieces (m.posPerLine it.station) (shiftPieces (it.preFeed : Rat) 0 ps))

/-- Put a profile at the front of a feed's queue. -/
def Mach.axQueueFirst (m : Mach) (n : Nat) (p : Profile) : Mach := m.modAxis n (fun a => { a with queue := p :: a.queue })

/-- What a station does when a profile of its feed ends (R114, R161, R162). -/
def Mach.profileEnds (m : Mach) (st a : Nat) (p : Profile) : Mach :=
  match p.kind with
  | .pass id q =>
    match m.item? id with
    | none => m
    | some it =>
      if q + 1 < it.passes then
        let m := if 0 < m.h (K.TH_PANELS st) then (m.headLift st true).ribbonHold st else m
        m.axQueueFirst a (m.retract it q p.length)
      else
        let m := m.modItem id (fun it => { it with feedDone := true })
        let m := if 0 < m.h (K.TH_PANELS st) then m.modSta st (fun x => { x with atSet := false }) else m
        if it.state == .printing && it.endAction ≠ 0 then
          let (c, over_) := m.cutFeed st id
          let m := if over_ then (m.count (K.AX_OVERSHOOTS a)).raise 0x2A04 [a] else m
          (m.cutReads st).axQueueFirst a c
        else if it.state == .printing then m.modItem id (fun it => { it with endDone := true })
        else m
  | .retract id q =>
    match m.item? id with
    | none => m
    | some it =>
      let m := if 0 < m.h (K.TH_PANELS st) then m.panelWind st id false else m
      m.axQueueFirst a (m.passProfile it (q + 1))
  | .cutFeed id => m.modSta st (fun x => { x with cut := .ready id })
  | .cutReturn id => m.modSta st (fun x => { x with cut := match x.cut with | .after i => if i = id then .none else x.cut | c => c })
  | .align _ => m
  | .seek => m
  | .learn => m
  | .panel _ => m
  | .present _ _ => m
  | .ramp _ => m

/-- Whether the feed of a station may begin its next profile now: not while a panel is positioned, nor from the start of a
cut until home is confirmed (R161, R162). -/
def Mach.feedMayBegin (m : Mach) (st : Nat) : Bool :=
  (m.sta st).panel.isNone && (match (m.sta st).cut with
    | .none => true | .ready _ => false | .out _ => false | .back _ => false | .after _ => true)

/-- The cutter home input is inactive when an item's profile would begin (R164): the station holds. -/
def Mach.cutterOpen (m : Mach) (st : Nat) : Bool :=
  m.h (K.TH_CUT_AXIS st) != 0xFF && !(m.si (m.h (K.TH_CUT_HOME_SI st)))

/-- The presenter of a station. -/
def Mach.presenter (m : Mach) (st : Nat) : Option Nat := let a := m.h (K.TH_PRES_AXIS st); if a = 0xFF then none else some a

/-- The cutter stroke begins (R162): a full cut waits for an empty presenter. -/
def Mach.cutStroke (m : Mach) (st : Nat) : Mach :=
  match (m.sta st).cut with
  | .ready id =>
    match m.item? id with
    | none => m.modSta st (fun x => { x with cut := .none })
    | some it =>
      if it.state != .printing then m.modSta st (fun x => { x with cut := .none })
      else if !(m.feedAtRest st) || (it.endAction != 1 && (m.presenter st).isSome && m.g (K.TH_PRES_STATE st) != 0) then m
      else
        let a := m.h (K.TH_CUT_AXIS st)
        let m := m.modSta st (fun x => { x with cut := .out id, cutHome := m.axPos a, cutDeadline := m.time + 1000 * x.cutTimeout })
        m.axGo a (if it.endAction = 1 then (m.sta st).cutPart else (m.sta st).cutFull)
  | _ => m

/-- The presenter moves by a distance. -/
def Mach.presenterMove (m : Mach) (st a : Nat) (d : Int) (state : Nat) : Mach :=
  (m.put (K.TH_PRES_STATE st) state).axGo a (m.axPos a + (d : Rat))

/-- The cut completes (R162, R163): home confirmed. -/
def Mach.cutDone (m : Mach) (st id : Nat) : Mach :=
  let m := (m.modSta st (fun x => { x with cut := .after id })).count (K.TH_CUTS st)
  let m := match m.feedAxis st with
    | some f => if (m.sta st).cutBack then m.axQueueFirst f (m.cutReturn st id (m.sta st).cutTravel)
                else m.modSta st (fun x => { x with cut := .none })
    | none => m.modSta st (fun x => { x with cut := .none })
  match m.item? id with
  | none => m
  | some it =>
    match m.presenter st with
    | some a =>
      if it.endAction = 1 then m.endDone id
      else
        let m := m.modSta st (fun x => { x with
          presItem := id, presTimeout := m.g (K.TH_PRES_TIMEOUT st), presRetract := m.gi 32 (K.TH_PRES_RETRACT_DIST st) })
        if it.endAction = 3 then m.presenterMove st a (m.gi 32 (K.TH_PRES_DIST st)) 1
        else m.presenterMove st a (m.gi 32 (K.TH_PRES_EJECT st)) 1
    | none => m.endDone id

/-- The stroke turns at its far end; without the axis at rest nothing happens (at a tick). -/
def Mach.cutTick (m : Mach) (st : Nat) : Mach :=
  match (m.sta st).cut with
  | .out id =>
    let a := m.h (K.TH_CUT_AXIS st)
    if m.axState a = axIdle then (m.modSta st (fun x => { x with cut := .back id })).axGo a (m.sta st).cutHome else m
  | .back id => if m.axState (m.h (K.TH_CUT_AXIS st)) = axIdle && m.si (m.h (K.TH_CUT_HOME_SI st)) then m.cutDone st id else m
  | _ => m

/-- Home becomes active again: the stroke back ends the cut. -/
def Mach.cutHomeEdge (m : Mach) (st : Nat) : Mach :=
  match (m.sta st).cut with
  | .back id => m.cutDone st id
  | _ => m

/-- A fault of the cut or presenter (R164): causes 1 timeout, 2 cutter, 3 presenter. The feed is cut as reason 9 says. -/
def Mach.cutFault (m : Mach) (st cause : Nat) : Mach :=
  let id := match (m.sta st).cut with
    | .out i => some i | .back i => some i | .ready i => some i | .after i => some i
    | .none => (m.printingItem st).map Item.id
  let m := (m.modSta st (fun x => { x with cut := .none })).raiseTh st 0x1C [cause]
  match id with
  | some i => m.spoil i 9
  | none => m

/-- The presenter's move is complete (R163). -/
def Mach.presenterDone (m : Mach) (st : Nat) : Mach :=
  match m.presenter st with
  | none => m
  | some a =>
    if m.axState a ≠ axIdle then m
    else
      let id := (m.sta st).presItem
      if m.g (K.TH_PRES_STATE st) = 1 then
        let present := match m.item? id with | some it => it.endAction == 3 | none => false
        if present then
          let m := (m.puts [(K.TH_PRES_STATE st, 2), (K.TH_PRES_ITEM st, id)]).modSta st (fun x => { x with presSince := m.time })
          (m.endDone id).raiseTh st 0x1D []
        else (m.put (K.TH_PRES_STATE st) 0).endDone id
      else if m.g (K.TH_PRES_STATE st) = 3 then
        ((m.puts [(K.TH_PRES_STATE st, 0), (K.TH_PRES_ITEM st, 0)]).raiseTh st 0x1F [id]).count (K.TH_PRES_RETRACTS st)
      else m

/-- The presented item is taken (R163). -/
def Mach.presenterTaken (m : Mach) (st : Nat) : Mach :=
  if m.g (K.TH_PRES_STATE st) = 2 then (m.puts [(K.TH_PRES_STATE st, 0), (K.TH_PRES_ITEM st, 0)]).raiseTh st 0x1E [] else m

/-! ### Sense inputs of a station, R155, R156, R159, R162, R163 -/

/-- An accepted edge of a sense input, stamped at a moment, on the stations that use it. at_ is the line position at the
stamp. -/
def Mach.mediaEdge (m : Mach) (st n : Nat) (active : Bool) (at_ : Int) : Mach :=
  if !(m.configured st) then m
  else
    let m := if m.h (K.TH_MEDIA_PRES_SI st) = n then m.mediaEval st (at_ - m.hi 32 (K.SNS_DIST st 0)) else m
    let m := if m.hasRibbon st && m.h (K.TH_RIB_PRES_SI st) == n then
        if active then m.ribbonFit st true else (m.ribbonFault st 4 none).partnerIs dscRibbon st false
      else m
    let m := if active && m.h (K.TH_CUT_AXIS st) != 0xFF && m.h (K.TH_CUT_HOME_SI st) == n then m.cutHomeEdge st else m
    if !active && (m.presenter st).isSome && m.h (K.TH_PRES_TAKEN_SI st) == n then m.presenterTaken st else m

end Sys2Proof.Machine
end

