-- ==== Sys2Proof/Machine/CamOps.lean ====
section
/-! DEFINITION. Camera ports and frames (R274-R287): fitting and failing, the frame as it arrives with its marks, the ingest
buffer, pipeline readiness, and the exposure triggers. -/

namespace Sys2Proof.Machine

open Sys2Proof

def Mach.cam (m : Mach) (p : Nat) : CamRt := m.cams.getD p {}
def Mach.modCam (m : Mach) (p : Nat) (f : CamRt → CamRt) : Mach := { m with cams := m.cams.modify p f }
def Mach.ctx (m : Mach) (c : Nat) : CtxRt := m.ctxs.getD c {}
def Mach.modCtx (m : Mach) (c : Nat) (f : CtxRt → CtxRt) : Mach := { m with ctxs := m.ctxs.modify c f }
def Mach.pipe (m : Mach) (i : Nat) : PipeRt := m.pipes.getD i {}
def Mach.modPipe (m : Mach) (i : Nat) (f : PipeRt → PipeRt) : Mach := { m with pipes := m.pipes.modify i f }
def Mach.modInsp (m : Mach) (id : Nat) (f : InspRun → InspRun) : Mach :=
  { m with insp := m.insp.map (fun r => if r.item = id then f r else r) }

/-! ### Context records, R281 -/

def ctxPort (r : Nat) : Nat := fld r 0 1
def ctxFormat (r : Nat) : Nat := bits (fld r 1 1) 1 0
def ctxVc (r : Nat) : Nat := bits (fld r 1 1) 3 2
def ctxLine (r : Nat) : Bool := bit (fld r 1 1) 4
def ctxCfa (r : Nat) : Nat := bits (fld r 2 1) 2 0
def ctxOn (r i : Nat) : Bool := bit (fld r 3 1) i
def ctxWidth (r : Nat) : Nat := fld r 4 2
def ctxHeight (r : Nat) : Nat := fld r 6 2
def ctxWhite (r : Nat) : Nat := fld r 0x22 2
def ctxCols (r : Nat) : Nat := fld r 0x36 2
/-- Rectified columns per print unit and rows per print line. -/
def ctxSx (r : Nat) : Nat := 2 ^ bits (fld r 0x3C 1) 1 0
def ctxSy (r : Nat) : Nat := 2 ^ bits (fld r 0x3C 1) 3 2
/-- Bytes of a stored pixel (R276). -/
def ctxPixel (r : Nat) : Nat := if ctxFormat r = 0 then 1 else 2

/-- The checks of a written record (R281): the values the table calls refused, WIDTH and OUT_COLS, an absent port, and lists
outside the host area. -/
def Mach.ctxOk (m : Mach) (r : Nat) : Bool :=
  ctxFormat r != 3 && decide (ctxCfa r ≤ 4) && bits (fld r 0x3C 1) 1 0 != 3 && bits (fld r 0x3C 1) 3 2 != 3
    && decide (1 ≤ ctxWidth r ∧ ctxWidth r ≤ 8192) && decide (1 ≤ ctxCols r ∧ ctxCols r ≤ 8192) && decide (ctxPort r < m.nCameras)
    && (!(ctxOn r 2) || inHostArea (fld r 0x18 5) (4 * fld r 0x20 2))
    && (!(ctxOn r 3) || inHostArea (fld r 0x24 5) (if ctxCfa r = 0 then 1024 else 4096))
    && (!(ctxOn r 4) || inHostArea (fld r 0x58 5) (5440 * fld r 0x60 2))

/-! ### Pipelines, R280, R297 -/

/-- The contexts a mode and an enable mask use: none in mode 0 (R280). -/
def usedContexts (mode enable : Nat) : List Nat := if mode = 0 then [] else bitsSet 2 enable

/-- The enabled contexts of a pipeline, as pipeline × 2 + context. -/
def Mach.contexts (m : Mach) (i : Nat) : List Nat := (usedContexts (m.g (K.IP_MODE i)) (m.g (K.IP_CTX_ENABLE i))).map (2 * i + ·)

/-- The port a context names in its latest accepted record. -/
def Mach.ctxPortOf (m : Mach) (c : Nat) : Nat := ctxPort (m.g (K.IN_CTX_RECORD c))

/-- The rules of R280: dedicated uses exactly one context, shared both on different ports, and no port is named by two enabled
contexts of the device. -/
def Mach.pipeRules (m : Mach) : Bool :=
  (List.range m.nPipes).all (fun i =>
    let n := (m.contexts i).length
    match m.g (K.IP_MODE i) with | 0 => true | 1 => n == 1 | _ => n == 2)
    && (let ps := ((List.range m.nPipes).flatMap m.contexts).map m.ctxPortOf
        ps.all (fun p => ps.count p == 1))

/-- The enabled context that names a port. -/
def Mach.portCtx (m : Mach) (p : Nat) : Option Nat := ((List.range m.nPipes).flatMap m.contexts).find? (fun c => m.ctxPortOf c == p)

/-- A pipeline's readiness from its ports (R297). -/
def Mach.pipeReadiness (m : Mach) (i : Nat) : Nat :=
  if m.g (K.IP_MODE i) = 0 then vOff
  else
    let st := (m.contexts i).map (fun c => m.g (K.CP_STATE (m.ctxPortOf c)))
    let up := (st.filter (· == vReady)).length
    if st ≠ [] ∧ up = st.length then vReady
    else if 0 < up then vDegraded
    else if st.contains vStarting && !(st.contains vFault) then vStarting
    else vFault

/-- Bring the readiness of every pipeline up to date; a change raises event 0x2C06. -/
def Mach.refreshPipes (m : Mach) : Mach :=
  upto m.nPipes m (fun m i =>
    let v := m.pipeReadiness i
    if m.g (K.IP_STATE i) = v then m else ((m.put (K.IP_STATE i) v).setReady (rdyPipe i) v).raise 0x2C06 [])

/-- Set a port's state: readiness and event 0x2C06, and its pipelines follow. -/
def Mach.setCam (m : Mach) (p v : Nat) : Mach :=
  if m.g (K.CP_STATE p) = v then m
  else (((m.put (K.CP_STATE p) v).setReady (rdyCamera p) v).raise 0x2C06 []).refreshPipes

/-! ### Frames, R282-R284 -/

def mkShort : Nat := 0
def mkLong : Nat := 1
def mkHdr : Nat := 2
def mkCrc : Nat := 3
def mkWidth : Nat := 4
def mkNoFe : Nat := 5
def mkNoTrig : Nat := 6
def mkMem : Nat := 7

/-- The frame of a port that is arriving. -/
def CamRt.current (x : CamRt) : Option CamFrame := if x.receiving && !x.dropping then x.frames.getLast? else none
/-- Change the frame that is arriving. -/
def CamRt.modCurrent (x : CamRt) (f : CamFrame → CamFrame) : CamRt :=
  { x with frames := match x.frames.getLast? with | some y => x.frames.dropLast ++ [f y] | none => [] }

/-- The counter named against a mark (R284). -/
def markCounter (p b : Nat) : Option Nat :=
  match b with
  | 0 => some (K.CP_SHORT p) | 1 => some (K.CP_LONG p) | 2 => some (K.CP_ECC_ERR p) | 3 => some (K.CP_CRC_ERR p)
  | 4 => some (K.CP_WIDTH_ERR p) | _ => none

/-- Mark the frame that is arriving: a mark it did not carry increments its counter (R284). -/
def Mach.mark (m : Mach) (p b : Nat) : Mach :=
  match (m.cam p).current with
  | none => m
  | some f =>
    if bit f.marks b then m
    else
      let m := m.modCam p (fun x => x.modCurrent (fun f => { f with marks := withBit f.marks b true }))
      match markCounter p b with | some k => m.count k | none => m

/-- Pixels of the taken frame of a port that its pipeline has not processed: it gains 400 pixels a µs (R283). -/
def Mach.backlog (m : Mach) (p : Nat) : Nat := let x := m.cam p; x.backlog - 400 * (m.time - x.backlogAt)

/-- Bytes in a port's ingest buffer. -/
def Mach.camFill (m : Mach) (p : Nat) : Nat :=
  (m.cam p).frames.foldl (fun n f =>
    n + ctxPixel f.record * (if f.taken then m.backlog p else f.rows.length * ctxWidth f.record)) 0

/-- Capacity of a port's buffer (R276). -/
def Mach.camBuffer (m : Mach) (p : Nat) : Nat := if m.h (K.CP_LANES p) = 4 then 524288 else 262144

/-- End of a pipeline's work on a frame: it is idle. -/
def Mach.pipeFree (m : Mach) (i : Nat) : Mach :=
  match (m.pipe i).cur with
  | none => m
  | some (_, t) => (m.modPipe i (fun x => { x with
      cur := none, busy := (x.busy.filter (fun b => decide (m.time ≤ b.2 + 100000))) ++ [(t, m.time)] })).put (K.IP_BUSY_CTX i) 0xFF

/-- The frame that is arriving is dropped (R283): CP_DROPS, event 0x2C04, and temporal noise reduction restarts. -/
def Mach.dropFrame (m : Mach) (p : Nat) : Mach :=
  match (m.cam p).current with
  | none => m
  | some f =>
    let m := m.modCam p (fun x => { x with frames := x.frames.dropLast, dropping := true })
    let m := (m.put (K.CP_LAST_DROP p) (f.num % 65536)).count (K.CP_DROPS p)
    let m := m.raise 0x2C04 [p, f.ctx, f.num]
    let m := if f.taken then m.pipeFree (f.ctx / 2) else m
    let m := (m.modCtx f.ctx (fun c => { c with prev := none })).modCam p (fun x => { x with noRef := true })
    { m with insp := m.insp.map (fun r => if r.port = p ∧ r.closed.isNone then { r with drops := r.drops + 1 } else r) }

/-- The first marked frame of each second raises event 0x2C05 (R284). -/
def Mach.markEvent (m : Mach) (p num marks : Nat) : Mach :=
  let sec := m.time / 1000000
  if marks = 0 ∨ (m.cam p).markSecond = some sec then m
  else (m.modCam p (fun x => { x with markSecond := some sec })).raise 0x2C05 [p, num, marks]

/-- The inspections through a port close with PORT_FAILED (R289): marked here, written by the inspection's own operation. -/
def Mach.portRunsFail (m : Mach) (p : Nat) : Mach :=
  { m with insp := m.insp.map (fun r => if r.port = p ∧ r.pipe ≠ 0xFF ∧ r.closed.isNone then { r with closed := some (4, m.time) } else r) }

/-- A port fails (R279): FAULT, event 0x2C03. -/
def Mach.camFail (m : Mach) (p : Nat) : Mach :=
  ((((m.modCam p (fun x => { x with step := .failed })).setCam p vFault).raise 0x2C03 [p])).portRunsFail p

/-- The arriving frame ends (R284): counted, the failure and fit rules applied (R278, R279). -/
def Mach.frameEnd (m : Mach) (p : Nat) : Mach :=
  match (m.cam p).current with
  | none => m.modCam p (fun x => { x with receiving := false, dropping := false })
  | some f =>
    let hdr := bit f.marks mkHdr
    let m := m.modCam p (fun x =>
      let y := x.modCurrent (fun f => { f with ended := true, tFe := m.time })
      { y with receiving := false, hdrRun := if hdr then x.hdrRun + 1 else 0,
               frames := if f.ctx = 255 then y.frames.dropLast else y.frames })
    let m := (m.count (K.CP_FRAMES p)).markEvent p f.num f.marks
    if 8 ≤ (m.cam p).hdrRun then m.camFail p
    else if (m.cam p).step = .armed ∧ f.marks = 0 then
      (((m.modCam p (fun x => { x with step := .ready, again := false })).setCam p vReady).partnerFound dscCamera p (m.g (K.CP_ID_READ p)) 0).raise
        0x2C01 [p, m.g (K.CP_ID_READ p)]
    else m

/-! ### Exposure triggers, R287 -/

/-- Multiples of the pitch that a source passes forward on its way to multiple k: none on a sheet it has not been on, where the count
begins (R287). -/
def CamRt.pulseKeys (x : CamRt) (sheet : Nat) (k : Int) : List Int :=
  match x.high with
  | some (s, h) => if s = sheet then (List.range (k - h).toNat).map (fun (i : Nat) => h + 1 + (i : Int)) else []
  | none => []

/-- A port's source stands at a position (1/16 line or scan line, on a sheet, 0 for a thermal station): every multiple of the
pitch passed forward gives a pulse and a stamp. view is what the stamp is less by. -/
def Mach.camSource (m : Mach) (p : Nat) (sheet : Nat) (pos view : Int) : Mach :=
  let pitch : Int := m.h (K.CP_TRIG_PITCH p)
  let x := m.cam p
  if pitch = 0 ∨ !(x.step == .armed || x.step == .ready) then m
  else
    let k := pos / pitch
    let ks := x.pulseKeys sheet k
    let high : Nat × Int := match x.high with | some (s, h) => if s = sheet then (s, max h k) else (sheet, k) | none => (sheet, k)
    let m := m.modCam p (fun x => { x with high := some high })
    ks.foldl (fun m (i : Int) =>
      (m.modCam p (fun x => { x with stamps := x.stamps ++ [⟨i * pitch - view, sheet, m.time⟩], due := some (x.due.getD m.time), trigAt := some m.time })).emit (.trig p)) m

/-- The exposure triggers of the ports that a thermal station drives. -/
def Mach.camStation (m : Mach) (st : Nat) : Mach :=
  if !(m.configured st) then m
  else upto m.nCameras m (fun m p =>
    if m.gb (K.CP_ENABLE p) && m.h (K.CP_TRIG_SRC p) == st + 1 then m.camSource p 0 (m.linePos st) (m.hi 32 (K.CP_VIEW_DIST p)) else m)

/-! ### Arriving packets -/

/-- Whether a port's receiver is armed (R278 step 4). -/
def Mach.camArmed (m : Mach) (p : Nat) : Bool :=
  decide (p < m.nCameras) && m.gb (K.CP_ENABLE p) && ((m.cam p).step == .armed || (m.cam p).step == .ready)

/-- The next stamp of a port: the oldest that waits, else the previous plus the pitch; the answer says whether it is missing,
which a port without a trigger source does not mark. -/
def Mach.takeStamp (m : Mach) (p : Nat) : Stamp × Bool × Mach :=
  let x := m.cam p
  match x.stamps with
  | s :: rest => (s, false, m.modCam p (fun x => { x with stamps := rest, lastStamp := s }))
  | [] =>
    let s := { x.lastStamp with pos := x.lastStamp.pos + (m.h (K.CP_TRIG_PITCH p) : Int), at_ := m.time }
    (s, m.h (K.CP_TRIG_SRC p) != 0, m.modCam p (fun x => { x with lastStamp := s }))

/-- The entries of a defect list in memory (R285). -/
def defectList (mem : Mem) (a n : Nat) : List (Nat × Nat) :=
  (List.range n).map (fun k => (mem.read (a + 4 * k) 2, mem.read (a + 4 * k + 2) 2))

/-- A context's frame begins: a record written since the last frame comes into force, with its lists (R281). -/
def Mach.ctxFrame (mem : Mem) (m : Mach) (c : Nat) : Mach :=
  if !(m.ctx c).fresh then m
  else
    let r := m.g (K.IN_CTX_RECORD c)
    m.modCtx c (fun x => { x with
      fresh := false, record := r, lastRow := none
      defects := if ctxOn r 2 then defectList mem (fld r 0x18 5) (min 512 (fld r 0x20 2)) else []
      shading := if ctxOn r 3 then mem.read (fld r 0x24 5) (if ctxCfa r = 0 then 1024 else 4096) else 0 })

/-- A frame begins on a port (R282), with its stamp for an area sensor. -/
def Mach.beginFrame (mem : Mem) (m : Mach) (p num : Nat) : Mach :=
  let m := m.modCam p (fun x => { x with count16 := (x.count16 + 1) % 65536, receiving := true, dropping := false, due := none
                                         startAt := some m.time })
  let n := if m.h (K.CP_FRAME_NUM_SRC p) = 1 then (m.cam p).count16 else num
  match m.portCtx p with
  | none => m.modCam p (fun x => { x with frames := x.frames ++ [{ num := n, ctx := 255, record := 0, tFs := m.time }] })
  | some c =>
    let anew := (m.ctx c).fresh || (m.cam p).noRef
    let m := (m.ctxFrame mem c).modCam p (fun x => { x with noRef := false })
    let x := m.ctx c
    let r := x.record
    let f : CamFrame := { num := n, ctx := c, record := r, defects := x.defects, shading := x.shading, noRef := anew, tFs := m.time }
    if ctxLine r then m.modCam p (fun x => { x with frames := x.frames ++ [f] })
    else
      let (s, lost, m) := m.takeStamp p
      let m := m.modCam p (fun x => { x with frames := x.frames ++ [{ f with stamp := s }] })
      if lost then m.mark p mkNoTrig else m

/-- The record that governs a port's packets now. -/
def Mach.camRecord (m : Mach) (p : Nat) : Option Nat :=
  match (m.cam p).current with
  | some f => if f.ctx = 255 then none else some f.record
  | none => (m.portCtx p).map (fun c => if (m.ctx c).fresh then m.g (K.IN_CTX_RECORD c) else (m.ctx c).record)

/-- A corrected or uncorrectable header (R284): the answer says whether the packet is used. -/
def Mach.camHeader (m : Mach) (p ecc : Nat) : Mach × Bool :=
  match ecc with
  | 0 => (m, true)
  | 1 => (m.count (K.CP_ECC_CORR p), true)
  | _ => (m.mark p mkHdr, false)

/-- Append a row to the arriving frame; a line-scan row takes its own stamp, and its frame ends after HEIGHT rows. -/
def Mach.addRow (m : Mach) (p : Nat) (f : CamFrame) (row : Option (List Nat)) : Mach :=
  let m := if ctxLine f.record && f.ctx != 255 then
      let (s, lost, m) := m.takeStamp p
      let m := m.modCam p (fun x => x.modCurrent (fun f => { f with stamps := f.stamps ++ [s] }))
      if lost then m.mark p mkNoTrig else m
    else m
  let m := m.modCam p (fun x =>
    let y := x.modCurrent (fun f => { f with rows := f.rows ++ [row], arrivals := f.arrivals ++ [m.time] })
    if f.taken then { y with backlog := m.backlog p + ctxWidth f.record, backlogAt := m.time } else y)
  let m := m.put (K.CP_BUF_PEAK p) (max (m.g (K.CP_BUF_PEAK p)) (m.camFill p))
  if ctxLine f.record && f.ctx != 255 && decide (ctxHeight f.record ≤ f.rows.length + 1) then m.frameEnd p else m

/-- A row packet for the arriving frame (R284): extra rows are discarded, a wrong width is padded or cut, a wrong check value
is marked, and a row that does not fit drops the frame. -/
def Mach.rowPacket (m : Mach) (p : Nat) (crcBad : Bool) (pix : List Nat) : Mach :=
  match (m.cam p).current with
  | none => m
  | some f =>
    if f.ctx = 255 then (if crcBad then m.mark p mkCrc else m)
    else
      let w := ctxWidth f.record
      if ctxHeight f.record ≤ f.rows.length then m.mark p mkLong
      else
        let m := if pix.length = w then m else m.mark p mkWidth
        let m := if crcBad then m.mark p mkCrc else m
        if m.camBuffer p < m.camFill p + w * ctxPixel f.record then m.dropFrame p
        else m.addRow p f (some (padTo w 0 pix))

/-- A camera is removed (R279): OFF, partner absent, event 0x2C02, the arriving frame ends with NO_FE. -/
def Mach.camRemoved (m : Mach) (p : Nat) : Mach :=
  let m := if (m.cam p).receiving then (m.mark p mkNoFe).frameEnd p else m
  let m := m.modCam p (fun x => { x with step := .off, misses := 0, hdrRun := 0, due := none, stamps := [], high := none, receiving := false, dropping := false })
  let m := (((m.put (K.CP_PRESENT p) 0).setCam p vOff).partnerLost dscCamera p 0 0).raise 0x2C02 [p]
  m.portRunsFail p

/-- The fit sequence from step 1 with an identity (R278). -/
def Mach.camFit (m : Mach) (p id : Nat) : Mach :=
  let m := (m.put (K.CP_ID_READ p) id).setCam p vStarting
  let want := m.g (K.CP_ID_VALUE p)
  if want ≠ 0xFFFF ∧ want ≠ id then
    ((m.modCam p (fun x => { x with step := .failed })).setCam p vFault).raise 0x2C07 [p, 0xFF]
  else (m.sample [K.CP_INIT p, K.CP_RESET_WAIT p]).modCam p (fun x => { x with step := .reset, fitAt := m.time, again := false, hdrRun := 0 })

/-- Entries of the initial list in use: it ends at its first entry of zeros (R277). -/
def Mach.initEntries (m : Mach) (p : Nat) : List Nat :=
  let v := m.h (K.CP_INIT p)
  let n := domVarLen v / 8
  ((List.range n).map (fun i => fld v (8 * i) 8)).takeWhile (· != 0)

end Sys2Proof.Machine
end

