-- ==== Sys2Proof/Machine/Pixels.lean ====
section
/-! DEFINITION. What a pipeline does to the pixels of a frame (R285), the statistics record (R286), and rectification (R288). -/

namespace Sys2Proof.Machine

open Sys2Proof

/-- A frame's codes, row by row. -/
abbrev Grid := List (List Nat)

/-- A place beyond an edge mirrors into the frame about the edge pixel, so that a site keeps its colour (DEDUCED, log entry
180). -/
def mirror (n : Nat) (i : Int) : Nat :=
  let j := if i < 0 then -i else if (n : Int) ≤ i then 2 * (n : Int) - 2 - i else i
  (clampI 0 ((n : Int) - 1) j).toNat

def Grid.px (g : Grid) (x y : Int) : Nat :=
  let row := g.getD (mirror g.length y) []
  row.getD (mirror row.length x) 0

/-- Replace every pixel by a function of its place and value. -/
def Grid.mapPx (g : Grid) (f : Nat → Nat → Nat → Nat) : Grid := g.mapIdx (fun y row => row.mapIdx (fun x p => f x y p))

/-- The eight places around one. -/
def around : List (Int × Int) := [(-1, -1), (0, -1), (1, -1), (-1, 0), (1, 0), (-1, 1), (0, 1), (1, 1)]
def cross : List (Int × Int) := [(0, -1), (-1, 0), (1, 0), (0, 1)]

/-- Neighbours of a pixel at a distance. -/
def Grid.near (g : Grid) (d : Nat) (offs : List (Int × Int)) (x y : Nat) : List Nat :=
  offs.map (fun (o : Int × Int) => g.px (x + o.1 * d) (y + o.2 * d))

def sumN (l : List Nat) : Nat := l.foldl (· + ·) 0
def meanQ (l : List Nat) : Rat := if l = [] then 0 else (sumN l : Rat) / (l.length : Rat)

/-- Distance of same-colour neighbours: 2 for a CFA sensor, 1 for mono. -/
def ctxStep (r : Nat) : Nat := if ctxCfa r = 0 then 1 else 2

/-- Codes scaled to 12 bits. -/
def scale12 (r : Nat) (p : Nat) : Nat := match ctxFormat r with | 0 => p * 16 | 1 => p * 4 | _ => p

/-- Stage 1, spatial noise reduction. -/
def stageSpatial (r : Nat) (g : Grid) : Grid :=
  if !(ctxOn r 0) then g
  else
    let lim : Rat := (fld r 0x08 2 : Rat)
    let s : Rat := (fld r 0x0A 1 : Rat)
    g.mapPx (fun x y p =>
      let d := meanQ (g.near (ctxStep r) around x y) - p
      let c := if d < -lim then -lim else if lim < d then lim else d
      (roundRat (p + c * s / 256)).toNat)

/-- Stage 2, temporal noise reduction, with the context's previous frame after this stage. -/
def stageTemporal (r : Nat) (prev : Option Grid) (g : Grid) : Grid :=
  if !(ctxOn r 1) ∨ ctxLine r then g
  else match prev with
    | none => g
    | some q => g.mapPx (fun x y p =>
        match q[y]? with
        | none => p
        | some row =>
          let v := row.getD x 0
          if (if p < v then v - p else p - v) ≤ fld r 0x0C 2 then
            (roundRat ((p : Rat) + ((v : Rat) - p) * (fld r 0x0B 1 : Rat) / 256)).toNat else p)

/-- The site of a pixel in its 2 × 2 cell. -/
def siteOf (x y : Nat) : Nat := x % 2 + 2 * (y % 2)

/-- Stage 3, black level. -/
def stageBlack (r : Nat) (g : Grid) : Grid := g.mapPx (fun x y p => p - fld r (0x10 + 2 * siteOf x y) 2)

/-- Stage 4, defect correction: the static list, then the dynamic test. -/
def stageDefect (r : Nat) (list : List (Nat × Nat)) (g : Grid) : Grid :=
  if !(ctxOn r 2) then g
  else
    let t := fld r 0x0E 2
    g.mapPx (fun x y p =>
      if list.contains (x, y) then (roundRat (median (g.near (ctxStep r) cross x y))).toNat
      else if t = 0 then p
      else
        let n := g.near (ctxStep r) around x y
        if n.foldl max 0 + t < p ∨ p + t < n.foldl min 65535 then (roundRat (median n)).toNat else p)

/-- A shading gain: bilinear between the 32 × 16 knots of a site's table. -/
def shadingGain (tables site w h x y : Nat) : Rat :=
  let u : Rat := if w ≤ 1 then 0 else (31 * x : Nat) / ((w - 1 : Nat) : Rat)
  let v : Rat := if h ≤ 1 then 0 else (15 * y : Nat) / ((h - 1 : Nat) : Rat)
  let i := min 30 u.floor.toNat
  let j := min 14 v.floor.toNat
  let k (a b : Nat) : Rat := (fld tables (1024 * site + 2 * (32 * b + a)) 2 : Rat)
  let fu := u - i
  let fv := v - j
  (k i j * (1 - fu) + k (i + 1) j * fu) * (1 - fv) + (k i (j + 1) * (1 - fu) + k (i + 1) (j + 1) * fu) * fv

/-- Stage 5, shading. -/
def stageShading (r tables : Nat) (g : Grid) : Grid :=
  if !(ctxOn r 3) then g
  else g.mapPx (fun x y p =>
    let s := if ctxCfa r = 0 then 0 else siteOf x y
    min 4095 (roundRat ((p : Rat) * shadingGain tables s (ctxWidth r) (ctxHeight r) x y / 4096)).toNat)

/-- The colour of a site: 0 R, 1 G, 2 B; mono has one channel, 0. -/
def siteColour (cfa x y : Nat) : Nat :=
  let l : List Nat := match cfa with
    | 1 => [0, 1, 1, 2] | 2 => [1, 0, 2, 1] | 3 => [1, 2, 0, 1] | 4 => [2, 1, 1, 0] | _ => [0, 0, 0, 0]
  l.getD (siteOf x y) 0

/-- Stage 6, bilinear demosaic with white balance to luminance, or mono. -/
def stageLuma (r : Nat) (g : Grid) : Grid :=
  let cfa := ctxCfa r
  if cfa = 0 then g
  else g.mapPx (fun x y p =>
    let c (k : Nat) : Nat :=
      let v : Rat := if siteColour cfa x y = k then (p : Rat) else
        meanQ ((around.filter (fun (o : Int × Int) => siteColour cfa (x + 2 + o.1 : Int).toNat (y + 2 + o.2 : Int).toNat == k)).map
          (fun (o : Int × Int) => g.px (x + o.1) (y + o.2)))
      min 4095 (roundRat (v * (fld r (0x2C + 2 * k) 2 : Rat) / 4096)).toNat
    (roundRat (((fld r 0x32 1 * c 0 + fld r 0x33 1 * c 1 + fld r 0x34 1 * c 2 : Nat) : Rat) / 256)).toNat)

/-- A frame through stages 1 to 6: the codes after stage 2 (the next reference), after stage 5 (for the statistics), and the
luminance. -/
def framePipeline (f : CamFrame) (prev : Option Grid) (g : Grid) : Grid × Grid × Grid :=
  let r := f.record
  let a := stageTemporal r (if f.noRef then none else prev) (stageSpatial r (g.map (fun row => row.map (scale12 r))))
  let b := stageShading r f.shading (stageDefect r f.defects (stageBlack r a))
  (a, b, stageLuma r b)

/-! ### Statistics, R286 -/

/-- Pixels of a channel with their places; rows that are missing give none. -/
def channelPixels (cfa k : Nat) (have_ : Nat → Bool) (g : Grid) : List (Nat × Nat × Nat) :=
  (enumFrom 0 g).flatMap (fun (yr : Nat × List Nat) =>
    if !(have_ yr.1) then [] else
      ((enumFrom 0 yr.2).filter (fun (xp : Nat × Nat) => siteColour cfa xp.1 yr.1 == k)).map (fun (xp : Nat × Nat) => (xp.1, yr.1, xp.2)))

/-- The statistics record of a frame, 5,440 bytes as one number. -/
def statsRecord (r : Nat) (f : CamFrame) (port : Nat) (have_ : Nat → Bool) (g : Grid) : Nat :=
  let cfa := ctxCfa r
  let rows := ((List.range f.rows.length).filter have_).length
  let zw := ctxWidth r / 24
  let zh := rows / 16
  let chans := if cfa = 0 then 1 else 3
  let px (k : Nat) : List (Nat × Nat × Nat) := if k < chans then channelPixels cfa k have_ g else []
  let hist := (List.range 3).flatMap (fun k => let l := px k; (List.range 256).map (fun b => (l.filter (fun q => q.2.2 / 16 == b)).length))
  let zone := (List.range 384).flatMap (fun z => (List.range 3).map (fun k =>
    let l := (px k).filter (fun q => decide (zw ≠ 0 ∧ zh ≠ 0 ∧ q.1 / zw = z % 24 ∧ q.2.1 / zh = z / 24))
    (roundRat (meanQ (l.map (fun q => q.2.2)))).toNat))
  packLe 1 ([f.num % 256, f.num / 256, 0, 0, port, f.ctx, f.marks % 256, f.marks / 256]) + 256 ^ 8 * f.tFs + 256 ^ 16 * f.tFe
    + 256 ^ 24 * rows + 256 ^ 28 * chans + 256 ^ 32 * zw + 256 ^ 34 * zh + 256 ^ 0x40 * packLe 4 hist + 256 ^ 0xC40 * packLe 2 zone

/-! ### Rectification, R288 -/

/-- A REAL32 field of a context record as an exact number. -/
def ctxReal (r off : Nat) : Rat := (R32.ofBits (fld r off 4)).val

/-- Where rectified column u lies, 1/16 print unit. -/
def colX (r u : Nat) : Rat := ((sext 32 (fld r 0x38 4) : Int) : Rat) + (16 * u : Nat) / ((ctxSx r : Nat) : Rat)

/-- The camera column a rectified column samples. -/
def colC (r u : Nat) : Rat :=
  let x := colX r u
  ctxReal r 0x40 + ctxReal r 0x44 * x + ctxReal r 0x48 * x * x + ctxReal r 0x4C * x * x * x

/-- A row's value at a camera column, interpolated. -/
def rowAt (row : List Nat) (c : Rat) : Rat :=
  let i := c.floor.toNat
  let a : Rat := (row.getD i 0 : Rat)
  let b : Rat := (row.getD (i + 1) (row.getD i 0) : Rat)
  a + (b - a) * (c - i)

/-- Rectified rows between two camera rows, the later one second. -/
def rectBetween (r : Nat) (a b : CamRow) : List RectRow :=
  let step : Int := (16 / ctxSy r : Nat)
  let lo := if a.pos ≤ b.pos then a.pos else b.pos
  let hi := if a.pos ≤ b.pos then b.pos else a.pos
  let k0 := (lo / step).ceil
  let k1 := (hi / step).floor
  (List.range (k1 + 1 - k0).toNat).map (fun (i : Nat) =>
    let l : Int := (k0 + (i : Int)) * step
    let w : Rat := if a.pos = b.pos then 0 else ((l : Rat) - a.pos) / (b.pos - a.pos)
    { pos := l, stamped := a.stamped, arrived := b.arrived, y := (List.range (ctxCols r)).map (fun u =>
        let c := colC r u
        if c < 0 ∨ ((ctxWidth r - 1 : Nat) : Rat) < c then none
        else some (roundRat (rowAt a.codes c + (rowAt b.codes c - rowAt a.codes c) * w)).toNat) })

/-- Rectified rows of adjacent camera rows; a missing row breaks the sequence. -/
def rectRows (r : Nat) : List (Option CamRow) → List RectRow
  | some a :: some b :: l => rectBetween r a b ++ rectRows r (some b :: l)
  | _ :: l => rectRows r l
  | [] => []

/-- Keep one row for each coordinate, the later. -/
def mergeRows (old new : List RectRow) : List RectRow :=
  new.foldl (fun l x => l.filter (fun y => y.pos != x.pos) ++ [x]) old

/-! ### Density, R291 -/

/-- The density in mOD of a mean luminance: 1,000 × log10(WHITE / max(Ŷ, 1)), rounded, 0 to 4,000. The nearest d has
10^(2d-1) ≤ (WHITE / Ŷ)^2000 < 10^(2d+1). -/
def density (white : Nat) (y : Rat) : Nat :=
  let y := if y < 1 then 1 else y
  let q : Rat := (white : Rat) / y
  let n := q.num.toNat ^ 2000
  let d := q.den ^ 2000
  let above (k : Nat) : Bool := decide (10 ^ (2 * k - 1) * d ≤ n)
  let rec go : Nat → Nat → Nat → Nat
    | 0, lo, _ => lo
    | f + 1, lo, hi =>
      if hi ≤ lo then lo
      else
        let mid := (lo + hi + 1) / 2
        if above mid then go f mid hi else go f lo (mid - 1)
  go 13 0 4000

end Sys2Proof.Machine
end

