-- ==== Sys2Proof/Machine/InspOps.lean ====
section
/-! DEFINITION. Inspection of items (R289-R296): which rows belong to an item, INSPECTION bands, closing, the products in
RESULT_BUF, the optical gate and the learning of density gains. -/

namespace Sys2Proof.Machine

open Sys2Proof

/-! ### Begin, R289 -/

/-- The head sections of a station: its ports, lead first (R290). -/
def Mach.sections (m : Mach) (it : Item) : List Nat :=
  if it.isSL then []
  else
    let lead := m.h (K.TH_LEAD it.station)
    let ps := m.stationPorts it.station
    (ps.filter (· == lead)) ++ ps.filter (· != lead)

def roundup64 (n : Nat) : Nat := ceilDiv n 64 * 64
def profileBytes (dots : Nat) : Nat := roundup64 (8 * dots)
def mapBytes (dots : Nat) : Nat := roundup64 (8 * ceilDiv dots 64)

/-- Offsets of the sections: profiles, maps, edge record, windows (R290). -/
def Mach.sectionOffsets (m : Mach) (hs : List Nat) : List Nat × List Nat × Nat × Nat :=
  let ps := hs.foldl (fun (a : List Nat × Nat) h => (a.1 ++ [a.2], a.2 + profileBytes (m.headDots h))) ([], 128)
  let ms := hs.foldl (fun (a : List Nat × Nat) h => (a.1 ++ [a.2], a.2 + mapBytes (m.headDots h))) ([], ps.2)
  (ps.1, ms.1, ms.2, ms.2 + 64)

/-- The header of RESULT_BUF, 128 bytes as a number (R290). -/
def Mach.resultHeader (m : Mach) (it : Item) (r : InspRun) (status lines first last windows tClosed : Nat) : Nat :=
  let hs := m.sections it
  let (po, mo, eo, wo) := m.sectionOffsets hs
  it.id + 256 ^ 2 * status + 256 ^ 3 * hs.length + 256 ^ 4 * (if r.pipe = 0xFF then 0 else r.pipe % 4 + 4 * (r.ctx % 2))
    + 256 ^ 5 * it.station + 256 ^ 6 * windows + 256 ^ 8 * lines + 256 ^ 0x0C * first + 256 ^ 0x10 * last
    + 256 ^ 0x14 * (r.marks % 65536) + 256 ^ 0x16 * (r.drops % 65536) + 256 ^ 0x18 * r.used + 256 ^ 0x20 * tClosed
    + 256 ^ 0x28 * packLe 4 (padTo 2 0 po) + 256 ^ 0x30 * packLe 4 (padTo 2 0 mo) + 256 ^ 0x38 * eo + 256 ^ 0x3C * wo
    + 256 ^ 0x40 * packLe 1 (padTo 2 0 hs)

/-- An item enters PRINTING (R289): a measurement armed on it is MEASURING, or fails where its station has no gate by then (R138), and an inspected item is assigned to a
pipeline and context, with the header written as not closed. Without a pipeline, or with a port that has failed or is absent, it closes at
once. -/
def Mach.inspBegin (m : Mach) (it : Item) : Mach :=
  let m := m.calDefined it
  let m := if m.g K.TH_CAL_ITEM = it.id ∧ m.g K.TH_CAL_STATE = 1 then m.put K.TH_CAL_STATE 2 else m
  if !it.inspect then m
  else
    let p := if it.isSL then m.g K.IN_SL_PIPE else m.g (K.TH_OPT_PIPE it.station)
    let c := if it.isSL then m.g K.IN_SL_CONTEXT else m.g (K.TH_OPT_CONTEXT it.station)
    let named := decide (p < m.nPipes)
    let ctx := if named then 2 * p + c % 2 else 255
    let port := m.ctxPortOf ctx
    let st := m.g (K.CP_STATE port)
    let r : InspRun := { item := it.id, pipe := if named then p else 0xFF, ctx, port, since := if it.isSL then some m.time else none
                         closed := if !named then some (5, m.time) else if st = vFault ∨ st = vOff then some (4, m.time) else none }
    let m := { m with insp := m.insp.filter (fun (x : InspRun) => x.item != it.id) ++ [r] }
    m.storeNum it.resultBuf 128 (m.resultHeader it r 0xFF 0 0 0 0 0)

/-! ### Rows of an item -/

/-- The item line a coordinate falls on. -/
def InspRun.lineOf (r : InspRun) (pos : Int) : Int := (pos - r.line0) / 16
/-- Rows of the item's lines (R289). -/
def InspRun.itemRows (r : InspRun) (it : Item) : List RectRow :=
  r.rows.filter (fun x => decide (0 ≤ r.lineOf x.pos ∧ r.lineOf x.pos < (it.length : Int)))
def InspRun.rowsOf (r : InspRun) (l : Nat) : List RectRow := r.rows.filter (fun x => r.lineOf x.pos == (l : Int))

/-- The mean luminance of a station dot on an item line, and whether all its samples are viewed; none without a row (R291). -/
def InspRun.dotLine (r : InspRun) (rec l : Nat) (s : Int) : Option (Rat × Bool) :=
  let rows := r.rowsOf l
  if rows = [] then none
  else
    let us := (List.range (ctxCols rec)).filter (fun u => decide (((16 * s : Int) : Rat) ≤ colX rec u ∧ colX rec u < ((16 * s + 16 : Int) : Rat)))
    let vs := rows.flatMap (fun x => us.map (fun u => x.y.getD u none))
    if vs = [] then some (0, false)
    else some (meanQ (vs.map (fun v => v.getD 0)), vs.all Option.isSome && us.length == ctxSx rec)

/-! ### Products, R291-R294 -/

/-- The demanded tone of a head dot on a line, from the inspection reference: the passes divide the dots (R291). -/
def Mach.demanded (mem : Mem) (m : Mach) (it : Item) (h d l : Nat) : Nat :=
  (List.range it.passes).foldl (fun a q => max a (2 * (mem.byte (m.refAddr it h + (q * it.length + l) * m.headDots h + d)).toNat)) 0

/-- A profile entry of a dot (R291): measured and target mean, used lines and flags, and what R131 asks: whether it is
demanded on enough lines and whether it fails. -/
structure ProfileEntry where
  meas : Nat
  target : Nat
  lines : Nat
  excluded : Bool
  notViewed : Bool
  demanded : Bool
  missing : Bool
  deriving DecidableEq, Repr

/-- What a printed item's inspection takes of a head: the rendering context under the calibration set it was committed with (R143). -/
def Mach.printedCtx (m : Mach) (it : Item) (h : Nat) : HeadCtx :=
  let lat (x : Nat) : Int := roundRat ((sfld it.cal (0x10 + 2 * x) 2 : Rat) / 16)
  let other := ((m.stationPorts it.station).find? (fun x => x != h)).getD h
  { m.headCtx it h with lat := lat h, otherLat := lat other, skew := sfld it.cal (0x18 + 2 * h) 2 }

/-- The densities of a head's dots on the covered lines: per line and dot the demanded tone and, where the line has a row, the
density with whether it is viewed. -/
def Mach.densities (mem : Mem) (m : Mach) (it : Item) (r : InspRun) (h : Nat) : List (List (Nat × Nat × Bool)) :=
  let rec_ := (m.ctx r.ctx).record
  let lat := (m.printedCtx it h).lat
  ((List.range it.length).filter (fun l => r.rowsOf l != [])).map (fun l =>
    (List.range (m.headDots h)).map (fun (d : Nat) =>
      match r.dotLine rec_ l ((d : Int) - lat) with
      | some (y, v) => (m.demanded mem it h d l, density (ctxWhite rec_) y, v)
      | none => (0, 0, false)))

/-- The profile of a head (R131, R291). -/
def Mach.profile (mem : Mem) (m : Mach) (it : Item) (r : InspRun) (h : Nat) : List ProfileEntry :=
  let st := it.station
  let c := m.printedCtx it h
  let dots := m.headDots h
  let fired := it.heads.contains h
  let grid := m.densities mem it r h
  let tmin := m.g (K.TH_OPT_MIN_TONE st)
  let targets := it.s (K.IN_TARGET it.mediaClass)
  let out (d : Nat) : Bool := dotDead c.map d || c.handedOver d
  (List.range dots).map (fun d =>
    let used := if fired then grid.filter (fun row => decide (tmin ≤ (row.getD d (0, 0, false)).1) && (row.getD d (0, 0, false)).1 != 0) else []
    let at_ (row : List (Nat × Nat × Bool)) (k : Nat) : Nat := (row.getD k (0, 0, false)).2.1
    let meas := meanQ (used.map (fun row => at_ row d))
    let near := ((List.range 9).map (fun (k : Nat) => (d : Int) - 4 + (k : Int))).filter (fun k =>
      decide (0 ≤ k ∧ k < (dots : Int)) && k != (d : Int) && !(dotDead c.map k.toNat))
    let nb := meanQ (used.flatMap (fun row => near.map (fun k => at_ row k.toNat)))
    let enough := decide (m.g (K.TH_OPT_MIN_LINES st) ≤ used.length) && used != []
    { meas := (roundRat meas).toNat
      target := (roundRat (meanQ (used.map (fun row => fld targets (2 * (row.getD d (0, 0, false)).1) 2)))).toNat
      lines := min 65535 used.length
      excluded := ((List.range 5).any (fun k => let e : Int := (d : Int) - 2 + (k : Int); decide (0 ≤ e ∧ e < (dots : Int)) && out e.toNat))
      notViewed := used.any (fun row => !(row.getD d (0, 0, false)).2.2)
      demanded := enough
      missing := enough && decide (100 * meas < (m.g (K.TH_OPT_DEAD_FRAC st) : Rat) * nb) && !(dotDead c.map d) })

/-- The 8 bytes of a profile entry. -/
def ProfileEntry.num (e : ProfileEntry) (learned : Bool) : Nat :=
  e.meas % 65536 + 256 ^ 2 * (e.target % 65536) + 256 ^ 4 * e.lines
    + 256 ^ 6 * (b2n learned + 2 * b2n e.missing + 4 * b2n e.excluded + 8 * b2n e.notViewed)

/-- Where a row crosses WHITE / 2, 1/16 print unit: the first crossing upwards and the last downwards, interpolated (R293). -/
def rowEdges (rec : Nat) (x : RectRow) : Option Rat × Option Rat :=
  let half : Rat := (ctxWhite rec : Rat) / 2
  let ys := x.y.map (fun v => ((v.getD 0 : Nat) : Rat))
  let cross (a b : Rat) (u : Nat) : Rat := colX rec u + (half - a) / (b - a) * (colX rec (u + 1) - colX rec u)
  let pairs := enumFrom 0 (ys.zip ys.tail)
  ((pairs.find? (fun (p : Nat × Rat × Rat) => decide (p.2.1 < half ∧ half ≤ p.2.2))).map (fun (p : Nat × Rat × Rat) => cross p.2.1 p.2.2 p.1),
   (pairs.reverse.find? (fun (p : Nat × Rat × Rat) => decide (half ≤ p.2.1 ∧ p.2.2 < half))).map (fun (p : Nat × Rat × Rat) => cross p.2.1 p.2.2 p.1))

def meanR (l : List Rat) : Rat := if l = [] then 0 else l.foldl (· + ·) 0 / (l.length : Rat)

/-- The leading or trailing edge along a column: the coordinate, 1/16 line, of the crossing of WHITE / 2 between two rows. -/
def columnEdge (rec : Nat) (rows : List RectRow) (u : Nat) (lead : Bool) : Option Rat :=
  let half : Rat := (ctxWhite rec : Rat) / 2
  let ps := rows.map (fun x => ((x.pos : Rat), ((((x.y.getD u none).getD 0 : Nat)) : Rat)))
  let pairs := ps.zip ps.tail
  let hit := if lead then pairs.find? (fun (p : (Rat × Rat) × (Rat × Rat)) => decide (p.1.2 < half ∧ half ≤ p.2.2))
    else pairs.reverse.find? (fun (p : (Rat × Rat) × (Rat × Rat)) => decide (half ≤ p.1.2 ∧ p.2.2 < half))
  hit.map (fun (p : (Rat × Rat) × (Rat × Rat)) => p.1.1 + (half - p.1.2) / (p.2.2 - p.1.2) * (p.2.1 - p.1.1))

/-- The edge record (R293), with the free values drawn: how SKEW is fitted to LEFT is not stated. -/
def Mach.edgeRecord (m : Mach) (it : Item) (r : InspRun) : Nat × Mach :=
  let rec_ := (m.ctx r.ctx).record
  let rows := r.rows.mergeSort (fun a b => decide (a.pos ≤ b.pos))
  let own := (rows.filter (fun x => decide (0 ≤ r.lineOf x.pos ∧ r.lineOf x.pos < (it.length : Int))))
  let lefts := own.filterMap (fun x => (rowEdges rec_ x).1)
  let rights := own.filterMap (fun x => (rowEdges rec_ x).2)
  let leads := (List.range (ctxCols rec_)).filterMap (fun u => columnEdge rec_ rows u true)
  let trails := (List.range (ctxCols rec_)).filterMap (fun u => columnEdge rec_ rows u false)
  let i32 (q : Rat) : Nat := ofInt 32 (roundRat q)
  let skew := decide (2 ≤ lefts.length)
  let valid := b2n (lefts ≠ []) + 2 * b2n (rights ≠ []) + 4 * b2n (leads ≠ []) + 8 * b2n (trails ≠ []) + 16 * b2n skew
  let s := if skew then Config.freeNat m.fresh % 2 ^ 32 else 0
  (packLe 4 [i32 (meanR lefts), i32 (meanR rights), if leads = [] then 0 else i32 (meanR leads - r.line0),
    if trails = [] then 0 else i32 (meanR trails - r.line0), s, valid], { m with fresh := m.fresh + 1 })

/-- Reflectance of a sample, 0.1 % (R294). -/
def reflectance (white : Nat) (y : Nat) : Nat := min 1000 (roundRat (1000 * (y : Rat) / ((max 1 white : Nat) : Rat))).toNat

/-- Elements of a scan: runs above and below the threshold, each with its extreme reflectance, at which elements are compared
(PRESUMED, log entry 183). -/
def scanElements (th2 : Nat) : List Nat → List (Bool × Nat)
  | [] => []
  | v :: l =>
    let up := decide (th2 ≤ 2 * v)
    match scanElements th2 l with
    | (b, e) :: rest => if b = up then (b, if up then max e v else min e v) :: rest else (up, v) :: (b, e) :: rest
    | [] => [(up, v)]

/-- R_min, R_max, SC, EC_min and MOD of one scan (R294). -/
def scanValues (vs : List Nat) : List Nat :=
  let lo := vs.foldl min 1000
  let hi := vs.foldl max 0
  let es := (scanElements (lo + hi) vs).map Prod.snd
  let ds := (es.zip es.tail).map (fun p => if p.1 < p.2 then p.2 - p.1 else p.1 - p.2)
  let ec := match ds with | [] => 0 | d :: l => l.foldl min d
  let sc := hi - lo
  [lo, hi, sc, ec, if sc = 0 then 0 else (roundRat (1000 * (ec : Rat) / (sc : Rat))).toNat]

/-- The p-th percentile by nearest rank. -/
def percentile (p : Nat) (l : List Nat) : Nat :=
  let s := l.mergeSort (fun a b => decide (a ≤ b))
  s.getD (ceilDiv (p * s.length) 100 - 1) 0

/-- A window's result, 32 bytes (R294). -/
def Mach.windowResult (m : Mach) (it : Item) (r : InspRun) (w : Nat) : Nat :=
  let rec_ := (m.ctx r.ctx).record
  let white := ctxWhite rec_
  let x0 : Int := 16 * ((fld w 0 2 : Int) + it.xOffset)
  let x1 : Int := x0 + 16 * (fld w 2 2 : Int)
  let y0 := fld w 4 4
  let hgt := fld w 8 4
  let orient := fld w 0x0C 1 % 4
  let us := (List.range (ctxCols rec_)).filter (fun u => decide ((x0 : Rat) ≤ colX rec_ u ∧ colX rec_ u < (x1 : Rat)))
  let rows := (r.rows.filter (fun x => decide ((y0 : Int) ≤ r.lineOf x.pos ∧ r.lineOf x.pos < (y0 + hgt : Nat)))).mergeSort (fun a b => decide (a.pos ≤ b.pos))
  if rows = [] ∨ us = [] then fld w 0x0D 1
  else
    let val (x : RectRow) (u : Nat) : Nat := reflectance white ((x.y.getD u none).getD 0)
    let partial_ := rows.any (fun x => us.any (fun u => (x.y.getD u none).isNone)) || decide (rows.length < hgt * ctxSy rec_)
      || decide (us.length < fld w 2 2 * ctxSx rec_)
    let n := max 1 (it.s K.IN_VWIN_SCANS)
    let pick {α : Type} (l : List α) (k : Nat) : Option α := l[l.length * (2 * k + 1) / (2 * n)]?
    let scans : List (List Nat) :=
      if orient = 0 then (List.range n).filterMap (fun k => (pick rows k).map (fun x => scanValues (us.map (val x))))
      else if orient = 1 then (List.range n).filterMap (fun k => (pick us k).map (fun u => scanValues (rows.map (fun x => val x u))))
      else
        let all := rows.flatMap (fun x => us.map (val x))
        let lo := percentile 10 all
        let hi := percentile 90 all
        [[lo, hi, hi - lo, 0, 0]]
    let mean (i : Nat) : Nat := (roundRat (meanQ (scans.map (fun s => s.getD i 0)))).toNat
    let least (i : Nat) : Nat := match scans.map (fun s => s.getD i 0) with | [] => 0 | a :: l => l.foldl min a
    fld w 0x0D 1 + 256 * (1 + 2 * b2n partial_) + 256 ^ 2 * scans.length + 256 ^ 4 * packLe 2 ((List.range 5).map mean)
      + 256 ^ 0x0E * packLe 2 [least 2, least 3, least 4] + 256 ^ 0x14 * rows.length

/-! ### The optical gate and learning, R131, R295, R296 -/

/-- The optical gate's count (R131): dots that fail in TH_OPT_CONFIRM consecutive inspected items demanding them, or in one item of
test pattern 1, are classed OPTICAL, written under HP_MAP_AUTO as in R130. -/
def Mach.opticalClassify (m : Mach) (it : Item) (h : Nat) (prof : List ProfileEntry) : Mach :=
  let pat1 := m.g K.TH_CAL_ITEM = it.id && m.g K.TH_CAL_STATE = 2 && m.g K.TH_CAL_PATTERN = 1
  let need := if pat1 then 1 else max 1 (m.g (K.TH_OPT_CONFIRM it.station))
  let x := m.head h
  let cnt (d : Nat) : Nat := ((x.opt.find? (fun (p : Nat × Nat) => p.1 == d)).map Prod.snd).getD 0
  let next := (enumFrom 0 prof).map (fun (p : Nat × ProfileEntry) => (p.1, if p.2.demanded then (if p.2.missing then cnt p.1 + 1 else 0) else cnt p.1))
  let hit := (next.filter (fun (p : Nat × Nat) => decide (need ≤ p.2) && (prof.getD p.1 ⟨0, 0, 0, false, false, false, false⟩).missing)).map Prod.fst
  let old (d : Nat) : Nat := dotClass (m.g (K.HP_DOT_MAP h)) d
  let m := m.modHead h (fun x => { x with opt := next.filter (fun (p : Nat × Nat) => p.2 != 0 && !(hit.contains p.1)) })
  let m := if pat1 && m.g K.TH_CAL_PORT == h then m.put K.TH_CAL_DEAD_FOUND hit.length else m
  if hit = [] then m
  else
    let m := hit.foldl (fun m d => m.raiseHp h 0x11 [d, old d, 4]) m
    ((m.applyClasses h (hit.map (fun d => (d, 4)))).1.showDrift h).refreshPair h

/-- Whether an entry is applied to learning (R295). -/
def Mach.learns (m : Mach) (h : Nat) (e : ProfileEntry) : Bool :=
  decide (m.g (K.IN_LEARN_MIN_LINES h) ≤ e.lines ∧ 0 < e.target) && !e.missing && !e.excluded && !e.notViewed

/-- Publish the status of a head's gain loop (R296): the highest state of any dot, the frozen map, events 0x2D02 and 0x2D03. -/
def Mach.gainStatus (m : Mach) (h : Nat) : Mach :=
  let st := (m.head h).gainStatus
  let old := m.g (K.IN_GAIN_STATUS h)
  let new := st.foldl max 0
  let map := (enumFrom 0 st).foldl (fun a (p : Nat × Nat) => if p.2 = 3 then a + 2 ^ p.1 else a) 0
  let m := m.puts [(K.IN_GAIN_STATUS h, new), (K.IN_GAIN_FROZEN_MAP h, map)]
  let m := m.raiseIf (old == 0 && (new == 1 || new == 2)) 0x2D02 [h]
  m.raiseIf (old != 3 && new == 3) 0x2D03 [h]

/-- A head's profile updates its pending gains (R295): each applied entry is one update of the dot's loop (R296). -/
def Mach.gainLearn (m : Mach) (h id : Nat) (prof : List ProfileEntry) : Mach :=
  let lo : Int := m.g (K.HP_GAIN_LOWER h)
  let hi : Int := m.g (K.HP_GAIN_UPPER h)
  let fr := m.g (K.IN_GAIN_FREEZE_COUNT h)
  let sh := m.g (K.IN_LEARN_SHIFT h)
  let x := m.head h
  let pend := m.g (K.IN_GAIN_PENDING h)
  let r := (enumFrom 0 prof).foldl (fun (a : Nat × List Nat × List Nat) (p : Nat × ProfileEntry) =>
    if !(m.learns h p.2) then a
    else
      let g : Int := (fld a.1 (2 * p.1) 2 : Int)
      let v := g - roundRat ((g : Rat) * ((p.2.meas : Rat) - p.2.target) / ((p.2.target * 2 ^ sh : Nat) : Rat))
      let (v', s, c) := loopUpdate lo hi fr (a.2.1.getD p.1 0) (a.2.2.getD p.1 0) g v
      (setFld a.1 (2 * p.1) 2 v'.toNat, a.2.1.set p.1 s, a.2.2.set p.1 c))
    (pend, padTo (m.headDots h) 0 x.gainStatus, padTo (m.headDots h) 0 x.gainPinned)
  let m := (m.puts [(K.IN_GAIN_PENDING h, r.1), (K.IN_LEARN_LAST_ITEM h, id)]).modHead h (fun x => { x with gainStatus := r.2.1, gainPinned := r.2.2 })
  m.gainStatus h

/-! ### Closing, R289, R290 -/

/-- Whether an item line is covered by no row. -/
def InspRun.gaps (r : InspRun) (it : Item) : Bool := (List.range it.length).any (fun l => r.rowsOf l == [])

/-- Highest status that applies (R290). -/
def InspRun.status (r : InspRun) (it : Item) (why : Nat) : Nat :=
  if 3 ≤ why then why else if r.gaps it || r.drops != 0 then 2 else if r.marks != 0 then 1 else 0

/-- The products and the final header are written, the optical gate counts, and learning runs (R289-R296). -/
def Mach.inspProducts (mem : Mem) (m : Mach) (r : InspRun) : Mach :=
  match m.item? r.item, r.closed with
  | some it, some (why, t) =>
    if it.state != .printing then m
    else
      let base := it.resultBuf
      let hs := m.sections it
      let (po, mo, eo, wo) := m.sectionOffsets hs
      let lines := (List.range it.length).filter (fun l => r.rowsOf l != [])
      let st := r.status it why
      let run := hs.map (fun h => (h, m.profile mem it r h))
      let learn (h : Nat) : Bool := decide (st ≤ 1) && m.gb (K.IN_LEARN_ENABLE h) && it.shortLines == 0 && it.heads.contains h
      let m := (enumFrom 0 run).foldl (fun m (x : Nat × Nat × List ProfileEntry) =>
        let h := x.2.1
        let prof := x.2.2
        let m := m.storeNum (base + po.getD x.1 0) (8 * prof.length) (packLe 8 (prof.map (fun e => e.num (learn h && m.learns h e))))
        m.storeNum (base + mo.getD x.1 0) (8 * ceilDiv prof.length 64) ((enumFrom 0 prof).foldl (fun a (p : Nat × ProfileEntry) => if p.2.missing then a + 2 ^ p.1 else a) 0)) m
      let (edge, m) := m.edgeRecord it r
      let m := m.storeNum (base + eo) 64 edge
      let m := (enumFrom 0 it.vwin).foldl (fun m (w : Nat × Nat) => m.storeNum (base + wo + 32 * w.1) 32 (m.windowResult it r w.2)) m
      let m := m.storeNum base 128 (m.resultHeader it r st lines.length (lines.head?.getD 0) (lines.getLast?.getD 0) it.vwin.length t)
      let m := run.foldl (fun m (x : Nat × List ProfileEntry) =>
        let m := if it.heads.contains x.1 then m.opticalClassify it x.1 x.2 else m
        if learn x.1 then m.gainLearn x.1 it.id x.2 else m) m
      let m := ((m.count K.IN_RESULTS).raise 0x2D01 [it.id, st]).modItem it.id (fun it => { it with inspected := true })
      { m with insp := m.insp.filter (fun (x : InspRun) => x.item != it.id) }.itemDone it.id
  | _, _ => m

/-- Inspections that are closed and have no band left write their products; those of items no longer printing end (R289). -/
def Mach.inspSettle (mem : Mem) (m : Mach) : Mach :=
  let m := { m with insp := m.insp.filter (fun (r : InspRun) => match m.item? r.item with | some it => it.state == ItemState.printing | none => false) }
  m.insp.foldl (fun (m : Mach) (r : InspRun) =>
    if r.closed.isSome && !(m.ledger.any (fun b => b.item == r.item && b.kind == .inspection)) then m.inspProducts mem r else m) m

/-- Close an inspection. -/
def Mach.inspClose (mem : Mem) (m : Mach) (id why : Nat) : Mach :=
  (m.modInsp id (fun r => if r.closed.isSome then r else { r with closed := some (why, m.time) })).inspSettle mem

/-! ### A frame is processed -/

/-- An address in the device area that the spec does not give: where rectified rows and the results of INSPECTION bands stand (R57; free,
log entry 181). -/
def freeDevice (k : Nat) : Nat := 0xC0000000 + Config.freeNat k % 0x40000000

/-- Number of a rectified row along its item (R57, R288). -/
def InspRun.rowNumber (r : InspRun) (rec : Nat) (pos : Int) : Nat := ((pos - r.line0) * (ctxSy rec : Int) / 16).toNat

/-- The INSPECTION bands of a frame's rows: one for each block of 64 rows of the item, whose deadline counts from the arrival of the last
row it covers (R55, R57, R61; DEDUCED, log entry 182). -/
def Mach.inspBands (m : Mach) (it : Item) (r : InspRun) (rec : Nat) (own : List RectRow) : List Band :=
  let blocks := (own.map (fun x => r.rowNumber rec x.pos / 64)).eraseDups
  (enumFrom 0 blocks).map (fun (b : Nat × Nat) =>
    let last := ((own.filter (fun x => r.rowNumber rec x.pos / 64 == b.2)).map RectRow.arrived).foldl max 0
    { mkBand it .inspection (r.ctx / 2) b.2 0 (m.itemOrder it.id) (freeDevice (m.fresh + 2 * b.1)) (freeDevice (m.fresh + 2 * b.1 + 1)) with
      deadline := last + m.g K.RD_INSP_LATENCY, seq := r.bands + b.1 })

/-- The rows of a processed frame reach the inspections of their items (R289): rows stamped since the last pass began, cut into
INSPECTION bands. A row beyond the last line closes the inspection. -/
def Mach.inspRows (mem : Mem) (m : Mach) (port ctx rec marks sheet : Nat) (rows : List RectRow) : Mach :=
  let m := m.insp.foldl (fun m r =>
    match m.item? r.item, r.since with
    | some it, some t0 =>
      if r.ctx ≠ ctx ∨ r.port ≠ port ∨ r.closed.isSome ∨ it.state != .printing ∨ (it.isSL ∧ sheet ≠ it.id) then m
      else
        let rows := rows.filter (fun x => decide (t0 ≤ x.stamped))
        let own := rows.filter (fun x => decide (0 ≤ r.lineOf x.pos ∧ r.lineOf x.pos < (it.length : Int)))
        let beyond := rows.any (fun x => decide ((it.length : Int) ≤ r.lineOf x.pos))
        let bands := m.inspBands it r rec own
        let m := { m with fresh := m.fresh + 2 * bands.length }
        (m.modInsp it.id (fun r => { r with
          rows := mergeRows r.rows rows
          marks := if own = [] then r.marks else r.marks ||| marks
          used := if own = [] then r.used else r.used + 1
          bands := r.bands + bands.length
          closed := if beyond then some (0, m.time) else none })).issue bands
    | _, _ => m) m
  (m.pump).inspSettle mem

/-- A frame that its pipeline has processed (R285, R286, R288). missing are rows lost to an uncorrectable word (R284). -/
def Mach.frameDone (mem : Mem) (m : Mach) (i p : Nat) (f : CamFrame) (missing : List Nat) : Mach :=
  let lost := missing.filter (· < f.rows.length)
  let marks := if lost = [] then f.marks else withBit f.marks mkMem true
  let m := if marks = f.marks then m else m.markEvent p f.num marks
  let f := { f with marks := marks }
  let c := f.ctx
  let r := f.record
  let have_ (y : Nat) : Bool := (f.rows.getD y none).isSome && !(lost.contains y)
  let w := ctxWidth r
  let grid : Grid := f.rows.mapIdx (fun y row => if have_ y then row.getD [] else (List.range w).map (fun x => Config.freeNat (m.fresh + w * y + x) % 2 ^ 8))
  let (ref, raw, luma) := framePipeline f (m.ctx c).prev grid
  let n := ((List.range f.rows.length).filter have_).length
  let m := { m with fresh := m.fresh + w * f.rows.length }
  let m := (m.put (K.IP_PIXELS i) ((m.g (K.IP_PIXELS i) + n * w) % 2 ^ 64)).count (K.IN_CTX_FRAMES c)
  let m := if ctxOn r 4 then
      let s := statsRecord r f p have_ raw
      let next := m.g (K.IN_STATS_NEXT c)
      (m.storeNum (fld r 0x58 5 + 5440 * next) 5440 s).puts
        [(K.IN_STATS_LATEST c, s), (K.IN_STATS_NEXT c, (next + 1) % max 1 (fld r 0x60 2))]
    else m
  let stamp (y : Nat) : Stamp := if ctxLine r then f.stamps.getD y {} else f.stamp
  let coord (y : Nat) : Rat := ((stamp y).pos : Rat) + ctxReal r 0x50 + (if ctxLine r then 0 else ctxReal r 0x54 * (y : Rat))
  let cam : List (Option CamRow) := luma.mapIdx (fun y row => if have_ y then some ⟨coord y, (stamp y).at_, f.arrivals.getD y 0, row⟩ else none)
  let before := if ctxLine r && !f.noRef then (m.ctx c).lastRow else none
  let rows := rectRows r (match before with | some x => some x :: cam | none => cam)
  let m := m.modCtx c (fun x => { x with prev := some ref, lastRow := if ctxLine r then (cam.getLast?.getD none) else none })
  let m := m.pipeFree i
  let sheet := if ctxLine r then (f.stamps.getLast?.getD {}).sheet else f.stamp.sheet
  m.inspRows mem p c r marks sheet rows

end Sys2Proof.Machine
end

