-- ==== Sys2Proof/Machine/LaserOps.lean ====
section
/-! DEFINITION. The laser station's imaging (R169-R195): the video image of a page, the scanner and its lock, sweeps with
their corrections and placed edges, the interlock and beam power. -/

namespace Sys2Proof.Machine

open Sys2Proof

/-! ### Video images, R181-R183 -/

/-- The screen cell value at (row, column): threshold and group. -/
def screenCell (scr r c : Nat) : Nat × Nat :=
  let w := fld scr 0 1
  let e := fld scr (0x40 + 2 * (w * r + c)) 2
  (e % 512, bits e 10 9)

/-- Whether a screen record gives defined video (R181). -/
def screenOk (scr : Nat) : Bool :=
  let w := fld scr 0 1
  let h := fld scr 1 1
  decide (1 ≤ w ∧ w ≤ 64 ∧ 1 ≤ h ∧ h ≤ 64) && (List.range h).all (fun r => (List.range w).all (fun c => (screenCell scr r c).2 != 3))

/-- The pulse code of a tone (R183). -/
def pulseCode (scr : Nat) (x y t : Nat) : Nat :=
  let w := fld scr 0 1
  let h := fld scr 1 1
  let (thr, g) := screenCell scr (y % h) ((x + fld scr 2 1 * (y / h)) % w)
  if t ≤ thr then 0 else 1 + 5 * g + min 5 (ceilDiv ((t - thr) * fld scr 4 2) 256) - 1

/-- The shift of a page by its calibration set (R183). -/
def Mach.pageShift (m : Mach) (it : Item) : Int × Int :=
  let cal := m.calSets.getD it.calSet 0
  if fld cal 0x28 1 = 0xFF then (0, 0)
  else (roundRat ((sfld cal 0x20 4 : Rat) / 16), roundRat ((sfld cal 0x24 4 : Rat) / 16))

/-- The codes of one scan line. -/
def Mach.scanLine (mem : Mem) (m : Mach) (it : Item) (y : Nat) : List Nat :=
  let free (i : Nat) : Nat := Config.freeNat (m.fresh + i) % 16
  let scr := m.g (K.LS_SCREEN it.pattern)
  let pap := m.g (K.LS_PAPER it.mediaClass)
  let (sx, sy) := m.pageShift it
  let x0 := (it.xOffset : Int) + sx
  let yi := (y : Int) - sy
  let ok := screenOk scr && !it.touched
  (List.range it.width).map (fun (i : Nat) =>
    let x := x0 + (i : Int)
    if yi < 0 ∨ (it.length : Int) ≤ yi ∨ x < 0 ∨ (m.h K.LS_PRINT_WIDTH : Int) ≤ x ∨ x < (fld pap 4 2 : Int) ∨ (fld pap 6 2 : Int) < x
        ∨ y < fld pap 8 2 ∨ fld pap 0x0A 2 < y then 0
    else if ok then pulseCode scr x.toNat y (imageTone mem it yi ((it.xOffset : Int) + (i : Int)))
    else free i)

/-- Pack codes two to a byte, padded to a stride. -/
def packCodes (stride : Nat) (l : List Nat) : List Byte :=
  (List.range stride).map (fun i => BitVec.ofNat 8 (l.getD (2 * i) 0 + 16 * l.getD (2 * i + 1) 0))

/-- The header of a video image (R182). -/
def Mach.videoHeader (m : Mach) (it : Item) : List Byte :=
  let x0 := ofInt 16 ((it.xOffset : Int) + (m.pageShift it).1)
  let scr := m.g (K.LS_SCREEN it.pattern)
  leBytes 2 it.id ++ leBytes 2 it.width ++ leBytes 2 x0 ++ leBytes 2 0 ++ leBytes 4 it.length ++ leBytes 4 (videoStride it.width)
    ++ leBytes 16 (scr / 256 ^ 0x10) ++ leBytes 32 0

/-- A LASER_VIDEO band is done: its scan lines, and the header, go to memory. -/
def Mach.laserDone (mem : Mem) (m : Mach) (it : Item) (b : Band) : Mach :=
  let base := (it.span.getD (0, 0)).1
  let st := videoStride it.width
  let m := m.storeBytes base (m.videoHeader it)
  let m := upto (min 128 (it.length - 128 * b.row)) m (fun m i =>
    let y := 128 * b.row + i
    let m := m.storeBytes (base + 64 + y * st) (packCodes st (m.scanLine mem it y))
    { m with fresh := m.fresh + it.width })
  m

/-! ### Scanner -/

def Mach.modSl (m : Mach) (f : SlRt → SlRt) : Mach := { m with sl := f m.sl }
def Mach.scanRt (m : Mach) : ScanRt := m.sl.scan
def Mach.modScan (m : Mach) (f : ScanRt → ScanRt) : Mach := m.modSl (fun s => { s with scan := f s.scan })

def scStopped : Nat := 0
def scSpinup : Nat := 1
def scLocking : Nat := 2
def scLocked : Nat := 3
def scStopping : Nat := 4
def scFault : Nat := 5

def Mach.scanState (m : Mach) : Nat := m.g K.LS_SCAN_STATE
/-- The scanner's axis. -/
def Mach.scanAxis (m : Mach) : Nat := m.h K.LS_SCAN_AXIS
/-- A stamp as µs, rounded down. -/
def stampTime (t : Nat) : Nat := t / stampMicro

/-- The target speed, rpm (R171), from a process speed in 0.1 mm/s. -/
def polyRpm (v dpi beams facets : Nat) : Nat :=
  if dpi * beams * facets = 0 then 0 else roundDiv (60 * v * dpi) (254 * beams * facets)

/-- The axes of the process (R220): drum, fuser, pick, registration, exit. -/
def Mach.procAxes (m : Mach) : List Nat :=
  [m.h K.LS_DRUM_AXIS, m.h K.LS_FUSER_AXIS, m.h K.LS_PICK_AXIS, m.h K.LS_REG_AXIS, m.h K.LS_EXIT_AXIS]
/-- The process owns its axes: it is started, or its path is purged (R218, R239). -/
def Mach.procStarted (m : Mach) : Bool :=
  (m.g K.LS_PROC_STATE != 0 && m.g K.LS_PROC_STATE != 1) || m.g K.LS_PATH_STATE == 3
/-- Whether the bus of a sheet-path axis is cut (R192). -/
def Mach.pathCut (m : Mach) : Bool :=
  m.procStarted && m.procAxes.any (fun n => (m.motion.buses.getD (m.axis n).bus {}).cut)

/-- Whether the diodes are off whatever is commanded: interlock, power latch, VMON warning, shutdown, bus cut (R187, R189, R190, R192). -/
def Mach.diodesOff (m : Mach) : Bool :=
  m.g K.LS_INTLK_STATE == 1 || m.g K.LS_INTLK_STATE == 2 || m.g K.LS_PWR_LATCH != 0xFF || m.vmonLow || m.g K.DEV_SHUTDOWN != 0 || m.pathCut
/-- Whether lock supervision is suspended (R187, R189). -/
def Mach.lockSuspended (m : Mach) : Bool :=
  m.g K.LS_INTLK_STATE == 1 || m.g K.LS_INTLK_STATE == 2 || m.g K.LS_PWR_LATCH != 0xFF

/-- Imaging readiness (R191). A scanner that is STOPPING reads OFF, and a stopped one does so whatever the interlock reads
(DESIGN CHOICE, log entry 120). -/
def Mach.imagingReadiness (m : Mach) : Nat :=
  let s := m.scanState
  let i := m.g K.LS_INTLK_STATE
  if s = scFault then vFault
  else if s = scStopped then vOff
  else if s = scSpinup ∨ s = scLocking ∨ i = 1 ∨ i = 2 ∨ m.g K.LS_PWR_LATCH ≠ 0xFF then vStarting
  else if s = scLocked then vReady else vOff

/-- Process readiness (R201). -/
def procReadiness (s : Nat) : Nat := match s with | 2 => vStarting | 3 => vReady | 5 => vFault | _ => vOff

/-- Readiness of SL from both (R201). -/
def slReadiness (a b : Nat) : Nat :=
  if a = vFault ∨ b = vFault then vFault
  else if a = vReady ∧ b = vReady then vReady
  else if a = vOff ∧ b = vOff then vOff else vStarting

/-- Bring LS_IMG_STATE and SL's readiness up to date. -/
def Mach.refreshSL (m : Mach) : Mach :=
  if !m.hasSL then m
  else
    let i := m.imagingReadiness
    let m := if m.g K.LS_IMG_STATE = i then m else (m.put K.LS_IMG_STATE i).raise 0x280B [i]
    m.setReady rdySL (slReadiness i (procReadiness (m.g K.LS_PROC_STATE)))

/-- Change the scanner's state. -/
def Mach.setScan (m : Mach) (s : Nat) : Mach := (m.put K.LS_SCAN_STATE s).refreshSL

/-! ### Pages, R186, R192, R193 -/

def Mach.page? (m : Mach) (id : Nat) : Option PageRun := m.sl.pages.find? (fun p => p.item == id)
def Mach.modPage (m : Mach) (id : Nat) (f : PageRun → PageRun) : Mach :=
  m.modSl (fun s => { s with pages := s.pages.map (fun p => if p.item = id then f p else p) })

/-- The lowest scan line at or above 0 that a sweep writes (R170, R192). -/
def Mach.sweepLine (m : Mach) (k : Nat) : Nat := m.beams * k - leadLines m.beams

/-- When a blanking takes effect: from the sweep in progress, or from the next. -/
inductive BlankFrom where
  | now | next
  deriving DecidableEq, Repr

/-- The sweep of the scanner in progress: the SOS it began at and, where no SOS can come, the nominal sweeps since (R193). -/
def Mach.sweepNow (m : Mach) : Nat × Nat :=
  let x := m.scanRt
  if x.acquired && !m.lockSuspended then (x.last, 0)
  else (x.last, if m.facetPeriod = 0 then 0 else (((stampMicro * m.time - x.last : Nat) : Rat) / m.facetPeriod).floor.toNat)

/-- Spoil a page (R192): its video is blanked from a sweep on; a second cause in the same sweep raises the reason (R193). A page
whose last sweep has run reports its length, one not released its first line (R47, DEDUCED, log entry 121). -/
def Mach.pageSpoil (m : Mach) (id reason : Nat) (from_ : BlankFrom) : Mach :=
  match m.page? id with
  | none => m.spoilAt id reason (match m.item? id with | some it => if it.gateAt.isSome then it.length else 0 | none => 0)
  | some p =>
    let k := match from_ with | .now => p.next - 1 | .next => p.next
    match p.blank with
    | none =>
      let m := if from_ = .now ∧ m.scanRt.page = some id then m.emit (.dark (stampMicro * m.time)) else m
      (m.modPage id (fun p => { p with blank := some k, cause := m.sweepNow })).spoilAt id reason (min p.length (m.sweepLine k))
    | some _ =>
      if p.cause ≠ m.sweepNow then m
      else
        let m := m.modItem id (fun it => if it.state = .spoiled ∧ it.reason < reason then { it with reason := reason } else it)
        if reasonHolds reason ∧ m.g (K.IT_STATION_HOLD 4) = 0 then m.setHold 4 id else m

/-- Spoil every page released and not spoiled. A page already spoiled in the same sweep takes the higher reason. -/
def Mach.spoilPages (m : Mach) (reason : Nat) (from_ : BlankFrom) : Mach :=
  let ids := (m.itemsOf 4 (fun it => it.state == .printing)).map Item.id
  let again := (m.sl.pages.filter (fun p => p.blank.isSome && !(ids.contains p.item))).map PageRun.item
  let m := ids.foldl (fun m id => m.pageSpoil id reason from_) m
  let m := again.foldl (fun m id => m.pageSpoil id reason from_) m
  if reasonHolds reason ∧ m.g (K.IT_STATION_HOLD 4) = 0 then m.setHold 4 0 else m

/-! ### Starting and stopping, R172, R173 -/

/-- What a scanner start reads (R196). -/
def scanKeys : List Nat :=
  [K.LS_BEAMS, K.LS_FACETS, K.LS_DPI, K.LS_PRINT_WIDTH, K.LS_PIX_FREQ, K.LS_SOS_DELAY, K.LS_FACET_SYNC, K.LS_SCAN_AXIS,
   K.LS_LOCK_REVS, K.LS_LOCK_TOL, K.LS_UNLOCK_TOL, K.LS_LOCK_TIMEOUT, K.LS_SOS_SEARCH, K.LS_SOS_LEAD, K.LS_SOS_LATE,
   K.LS_SOS_FLY, K.LS_EOS_ENABLE, K.LS_SOS_EOS_NOM, K.LS_EOS_TOL, K.LS_APC_START, K.LS_APC_WIN, K.LS_IMG_DELAY,
   K.LS_PMON_AIN 0, K.LS_PMON_AIN 1, K.LS_PMON_AIN 2, K.LS_PMON_AIN 3]

/-- Whether a scanner start would be refused (R169, R171, R196). -/
def Mach.scanRefused (m : Mach) : Bool :=
  let b := m.g K.LS_BEAMS
  let f := m.g K.LS_FACETS
  let d := m.g K.LS_DPI
  let p := m.g K.LS_PRINT_WIDTH
  let ax := m.g K.LS_SCAN_AXIS
  !(decide (1 ≤ b ∧ b ≤ 4 ∧ 4 ≤ f ∧ f ≤ 12) && [300, 600, 1200].contains d && decide (p ≤ 10205 ∧ 540 * d ≤ 254 * p ∧ 254 * p ≤ 2160 * d))
    || decide (45000 < polyRpm (m.g K.LS_PROC_SPEED) d b f) || decide (m.g K.LS_UNLOCK_TOL ≤ m.g K.LS_LOCK_TOL)
    || decide (m.nAxes ≤ ax) || (m.axis ax).kind != 2

/-- The power references take LS_POWER (R188): at each gate release and, since beam 0 is lit at its LS_POWER before any page, at a
scanner start (R173; DEDUCED, log entry 122). -/
def Mach.readPower (m : Mach) : Mach := m.modSl (fun s => { s with pref := (List.range 4).map (fun b => m.g (K.LS_POWER b)) })

/-- The scanner starts. -/
def Mach.scanStartUp (m : Mach) : Mach :=
  let m := m.sample (K.LS_PROC_SPEED :: scanKeys)
  let m := m.readPower
  let rpm := polyRpm (m.h K.LS_PROC_SPEED) (m.h K.LS_DPI) (m.h K.LS_BEAMS) (m.h K.LS_FACETS)
  let m := m.put K.LS_POLY_RPM rpm
  let ax := m.scanAxis
  let m := m.modScan (fun x => { intlkOpen := x.intlkOpen, startAt := m.time })
  let m := m.put (K.AX_GROUP ax) 0xFF
  if m.axState ax = axStopped then ((m.setScan scFault).raise 0x2804 [2])
  else
    let m := if m.axState ax = axDisabled then m.axEnableCore ax else m
    (m.axRun ax ((rpm : Rat) * ((m.axis ax).posPerRev : Rat) / 60)).setScan scSpinup

/-- The scanner stops: diodes off, the axis decelerates (R173, R266). A scanner in FAULT whose axis is cut is STOPPED. -/
def Mach.scanStop (m : Mach) : Mach :=
  let ax := m.scanAxis
  if m.scanState = scStopped then m
  else if m.axState ax = axStopped ∨ m.axState ax = axDisabled then m.setScan scStopped
  else (m.axRun ax 0).setScan scStopping

/-- The scanner's ports are released (R266): STOPPED, its axis disabled. -/
def Mach.scanReleased (m : Mach) : Mach :=
  let ax := m.scanAxis
  let a := m.axis ax
  let v := m.axVel ax
  let v := if v < 0 then -v else v
  let rpm : Rat := if a.posPerRev = 0 then 0 else v * 60 / (a.posPerRev : Rat)
  if m.scanState = scStopping && decide (rpm ≤ (fld a.work 0xC6 2 : Rat)) then (m.axDisableCore ax).setScan scStopped else m

/-- Back to LOCKING at step 3 of R173: the next SOS edge is its first. After an outage of the diodes no edge can be predicted, so beam
0 is lit until it comes (DEDUCED, log entry 123). -/
def Mach.relock (m : Mach) (outage : Bool) : Mach :=
  if m.scanState = scLocked ∨ m.scanState = scLocking then
    (m.modScan (fun x => { x with
      startAt := m.time, searchAt := m.time, pausedAt := none, found := false, acquired := x.acquired && !outage
      intervals := if outage then List.replicate 12 none else x.intervals
      good := 0, missRun := 0, edges := 0, missed := false, revStart := none })).setScan scLocking
  else m

/-- The scanner loses its lock (R174): pages are blanked from the sweep in which it is found (R192). -/
def Mach.loseLock (m : Mach) (cause : Nat) (from_ : BlankFrom) : Mach :=
  let m := (m.raise 0x2802 [cause]).count K.LS_LOCK_LOSSES
  let m := m.spoilPages 7 from_
  if cause = 4 then (m.setScan scFault).raise 0x2804 [2] else m.relock false

/-- The scanner axis faults: a loss of lock with cause 4 while LOCKED, else FAULT (R173, R174, R238). -/
def Mach.scanAxisFault (m : Mach) : Mach :=
  if m.scanState = scLocked then m.loseLock 4 .now
  else if m.scanState = scStopped ∨ m.scanState = scFault then m
  else (m.setScan scFault).raise 0x2804 [2]

/-- The lock is not reached in time (R173). -/
def Mach.lockTimeout (m : Mach) : Mach :=
  let s := m.scanState
  if (s = scSpinup ∨ s = scLocking) ∧ m.lockSuspended = false ∧ m.scanRt.startAt + 1000000 * m.h K.LS_LOCK_TIMEOUT ≤ m.time then
    ((m.axRun m.scanAxis 0).setScan scFault).raise 0x2804 [1]
  else m

/-! ### Sweeps, R178-R186 -/

/-- Linear interpolation of the bow table (R184). -/
def bowAt (t sp : Nat) (x : Nat) : Rat :=
  let k := x / max 1 sp
  if 31 ≤ k then (sfld t 62 2 : Rat)
  else
    let a : Rat := sfld t (2 * k) 2
    let b : Rat := sfld t (2 * (k + 1)) 2
    a + (b - a) * ((x - k * sp : Nat) : Rat) / ((max 1 sp : Nat) : Rat)

/-- Sub-steps of a pixel's pulse (R179): from and to within the pixel. -/
def pulseSpan (entry : Nat) : Nat × Nat :=
  let w := min 16 (entry % 32)
  match entry / 32 % 4 with
  | 1 => (0, w)
  | 2 => (16 - w, 16)
  | _ => ((16 - w) / 2, (16 - w) / 2 + w)

/-- Join lit spans that meet. -/
def joinSpans : List (Int × Int) → List (Int × Int)
  | [] => []
  | (a, b) :: l => match joinSpans l with
    | (c, d) :: r => if b = c then (a, d) :: r else (a, b) :: (c, d) :: r
    | [] => [(a, b)]

/-- Pixel period in stamp steps. -/
def Mach.pixelPeriod (m : Mach) : Rat := (stampMicro * 1000000 : Nat) / ((max 1 (m.h K.LS_PIX_FREQ) : Nat) : Rat)

/-- Whether the APC windows and the SOS window do not fit the facet period: sweep timing, windows and video are open (R196). -/
def Mach.layoutBad (m : Mach) : Bool :=
  decide (m.facetPeriod < ((320 * (m.h K.LS_APC_START + m.beams * m.h K.LS_APC_WIN + m.h K.LS_SOS_LEAD) : Nat) : Rat))

/-- The shift of a beam at a pixel, before and after its limit (R184). -/
def PageRun.shift (p : PageRun) (b x : Nat) : Int × Int :=
  let s := roundRat ((bowAt p.bowT p.bowS x + (sfld p.beamO (8 + 2 * b) 2 : Rat)) / 16)
  (s, clampI (-7) 7 s)

/-- What a beam writes in one sweep (R178-R180, R184): the edges placed, the pixels that lose sub-steps at the APC window, and the
pixels of the printable width whose shift was limited. Video earlier than 1 µs after SOS, and all video of a layout that does not fit (R196), is undefined: it takes
free values. -/
def Mach.beamSweep (mem : Mem) (m : Mach) (p : PageRun) (k b sos facet : Nat) : List (Nat × Nat) × Nat × Nat :=
  let n : Int := ((m.beams * k + b : Nat) : Int) - leadLines m.beams
  let width := mem.read (p.base + 2) 2
  let x0 := sext 16 (mem.read (p.base + 4) 2)
  let stride := mem.read (p.base + 0x0C) 4
  let off : Int := (m.h K.LS_SOS_DELAY : Int) + (if m.h K.LS_FACET_SYNC = 1 then sfld p.facetT (2 * facet) 2 else 0) + sfld p.beamO (2 * b) 2
  let tp := m.pixelPeriod
  let place (j : Int) : Nat := sos + (roundRat (((off + j : Int) : Rat) * tp / 16)).toNat
  let limit := 320 * m.h K.LS_APC_START
  let px := (List.range (m.h K.LS_PRINT_WIDTH)).map (fun x =>
    let (s, sc) := p.shift b x
    let line := n + sc
    let i := (x : Int) - x0
    let code := if line < 0 ∨ (p.length : Int) ≤ line ∨ i < 0 ∨ (width : Int) ≤ i then 0
      else let byte := (mem.byte (p.base + 64 + line.toNat * stride + i.toNat / 2)).toNat; if i.toNat % 2 = 0 then byte % 16 else byte / 16
    (x, code, decide (s ≠ sc)))
  let early (x : Nat) : Bool := m.layoutBad || decide (((off + 16 * (x : Int) : Int) : Rat) * tp / 16 < 32000)
  let spans := px.filterMap (fun (q : Nat × Nat × Bool) =>
    let code := if early q.1 then Config.freeNat (m.fresh + q.1) % 16 else q.2.1
    if code = 0 then none
    else
      let (a, z) := pulseSpan ((mem.byte (p.base + 0x10 + code)).toNat)
      if a = z then none else some (16 * (q.1 : Int) + (a : Int), 16 * (q.1 : Int) + (z : Int)))
  let edges := (joinSpans spans).map (fun e => (place e.1, place e.2))
  let kept := (edges.filter (fun e => decide (e.1 < sos + limit))).map (fun e => (e.1, min e.2 (sos + limit)))
  let cut := (px.filter (fun (q : Nat × Nat × Bool) =>
    let (a, z) := pulseSpan ((mem.byte (p.base + 0x10 + q.2.1)).toNat)
    decide (q.2.1 ≠ 0 ∧ a ≠ z ∧ sos + limit < place (16 * (q.1 : Int) + (z : Int))))).length
  (kept, cut, (px.filter (fun (q : Nat × Nat × Bool) => q.2.2)).length)

/-- The lines a sweep reads from a page's video image, as the bow correction shifts them, hold a bad word (R39, R184, R192). -/
def Mach.sweepBad (m : Mach) (mem : Mem) (p : PageRun) (k : Nat) : Bool :=
  let stride := mem.read (p.base + 0x0C) 4
  let n : Int := ((m.beams * k : Nat) : Int) - leadLines m.beams
  if m.badWords = [] then false
  else (List.range m.beams).any (fun b =>
    (((List.range (m.h K.LS_PRINT_WIDTH)).map (fun x => (p.shift b x).2)).eraseDups).any (fun s =>
      let l := n + (b : Int) + s
      decide (0 ≤ l ∧ l < (p.length : Int)) && m.badIn (p.base + 64 + l.toNat * stride) stride))

/-- One sweep of a page (R186). -/
def Mach.pageSweep (mem : Mem) (m : Mach) (p : PageRun) (sos facet : Nat) (badWord : Bool) : Mach :=
  let k := p.next
  let m := if (badWord || m.sweepBad mem p k) && p.blank.isNone then
      m.pageSpoil p.item 5 .next
    else m
  let blanked := match m.page? p.item with | some q => q.blank.isSome | none => true
  let m := m.modPage p.item (fun q => { q with next := k + 1, sos0 := some (q.sos0.getD sos) })
  let m := m.puts [(K.LS_VID_ITEM, p.item), (K.LS_VID_SWEEP, k)]
  let m :=
    if blanked || m.diodesOff || m.scanState != scLocked then m
    else
      let m := upto m.beams m (fun m b =>
        let (es, cut, lim) := m.beamSweep mem p k b sos facet
        let m := { m with fresh := m.fresh + m.h K.LS_PRINT_WIDTH }
        let m := if es = [] then m else m.emit (.video b es)
        let q := (m.page? p.item).getD p
        let m := if 0 < cut then ((m.count K.LS_CUT_PIXELS cut).raiseIf (!q.cutDone) 0x280D []).modPage p.item (fun q => { q with cutDone := true }) else m
        if 0 < lim then ((m.count K.LS_BOW_CLAMPED lim).raiseIf (!q.bowDone) 0x280A []).modPage p.item (fun q => { q with bowDone := true }) else m)
      m.modItem p.item (fun it => if it.state = .printing then { it with linesFired := min p.length (m.sweepLine (k + 1)) } else it)
  if k + 1 = p.sweeps then (m.modSl (fun s => { s with pages := s.pages.filter (fun q => q.item != p.item) })).count K.LS_VID_PAGES else m

/-- The result of a beam's power monitor at the end of its APC window (R189); where the windows do not fit the facet period, the
check is open (R196). -/
def Mach.checkPower (m : Mach) (b : Nat) : Mach :=
  let ain := m.h (K.LS_PMON_AIN b)
  if 63 < ain ∨ m.diodesOff then m
  else match m.ainResult ain with
    | none => m
    | some (code, flag, _) =>
      let (open_, m) := if m.layoutBad then m.freeBelow 2 else (2, m)
      let bad := if m.layoutBad then open_ == 1 else flag || decide (code < m.g K.LS_PMON_LO ∨ m.g K.LS_PMON_HI < code)
      let n := if bad then m.scanRt.pmonBad.getD b 0 + 1 else 0
      let m := m.modScan (fun x => { x with pmonBad := x.pmonBad.set b n })
      if m.g K.LS_PMON_COUNT ≤ n then
        (((m.put K.LS_PWR_LATCH b).raise 0x2808 [b]).spoilPages 7 .now).refreshSL
      else m

/-- The APC windows of the sweep in progress that have ended by now (R186, R189). -/
def Mach.apcTick (m : Mach) : Mach :=
  if !m.hasSL ∨ !m.scanRt.acquired ∨ ¬(m.scanState = scLocking ∨ m.scanState = scLocked) then m
  else upto m.beams m (fun m b =>
    let x := m.scanRt
    if x.apcDone = b ∧ x.last + 320 * (m.h K.LS_APC_START + (b + 1) * m.h K.LS_APC_WIN) ≤ stampMicro * m.time then
      (m.modScan (fun x => { x with apcDone := b + 1 })).checkPower b
    else m)

/-- A page's image belongs to a sweep that begins at an SOS, real or predicted: the first page whose image may begin and is not
yet whole (R186); a page's last sweep and the next page's first may be adjacent. -/
def Mach.sweep (mem : Mem) (m : Mach) (sos : Nat) (badWord : Bool) : Mach :=
  let f := m.scanRt.facet
  let m := m.put K.LS_VID_FACET f
  match m.sl.pages.find? (fun p => p.sos0.isSome || decide (p.notBefore ≤ sos)) with
  | some p => (m.modScan (fun x => { x with page := some p.item, eosIdle := false })).pageSweep mem p sos f badWord
  | none => m.modScan (fun x => { x with page := none })

/-- Sweeps that passed without an SOS, real or predicted, before one at a stamp: the pages released by then, all blank, are that much
further (R192), and those whose last sweep has passed are over. -/
def Mach.skipSweeps (m : Mach) (t : Nat) : Mach :=
  let tf := m.facetPeriod
  if tf = 0 then m
  else
    let n := (roundRat (((t - m.scanRt.last : Nat) : Rat) / tf)).toNat - 1
    let on (p : PageRun) : PageRun :=
      if p.sos0.isSome then { p with next := p.next + n }
      else if p.notBefore < t then { p with next := (((t - p.notBefore : Nat) : Rat) / tf).floor.toNat, sos0 := some p.notBefore } else p
    let ps := m.sl.pages.map on
    let done := (ps.filter (fun p => decide (p.sweeps ≤ p.next))).length
    (m.modSl (fun s => { s with pages := ps.filter (fun p => decide (p.next < p.sweeps)) })).count K.LS_VID_PAGES done

/-- Publish measured facet intervals, ns. -/
def Mach.showIntervals (m : Mach) : Mach :=
  m.put K.LS_FACET_INTERVAL (packLe 4 (m.scanRt.intervals.map (fun i => (roundRat ((i.getD 0 : Rat) / 32)).toNat)))

/-- The next predicted SOS (R175), in stamp steps. -/
def Mach.nextSos (m : Mach) : Nat :=
  let x := m.scanRt
  x.last + (match x.intervals.getD x.facet none with | some i => i | none => (roundRat m.facetPeriod).toNat)

/-- Facets are numbered from the next SOS edge on (R176): the edge just come was the last facet's, and the measured intervals keep
their facets. -/
def Mach.renumber (m : Mach) : Mach :=
  let f := m.facets
  m.modScan (fun x => { x with
    facet := f - 1
    intervals := (List.range 12).map (fun i => if i < f then x.intervals.getD ((x.facet + 1 + i) % f) none else none) })

/-- A revolution ends at a stamp (R174): its deviation, and what it does to the lock. Good revolutions count while they follow one
another (DEDUCED, log entry 124). -/
def Mach.revolution (m : Mach) (t : Nat) (counted : Bool) : Mach :=
  let x := m.scanRt
  match x.revStart with
  | none => m.modScan (fun x => { x with revStart := some t, edges := 0, missed := false })
  | some t0 =>
    let dur : Rat := ((t - t0 : Nat) : Rat)
    let nom := m.facetPeriod * (m.facets : Rat)
    let dev := if dur < nom then nom - dur else dur - nom
    let within (ppm : Nat) : Bool := decide (dev * 1000000 ≤ nom * (ppm : Rat))
    let m := m.put K.LS_REV_PERIOD (roundRat (dur / 32)).toNat
    let good := within (m.h K.LS_LOCK_TOL) && !x.missed && counted
    let m := m.modScan (fun x => { x with revStart := some t, edges := 0, missed := false, good := if good then x.good + 1 else 0 })
    if m.scanState = scLocked then
      if !(within (m.h K.LS_UNLOCK_TOL)) then m.loseLock 1 .next
      else if !counted then m.loseLock 3 .next else m
    else if m.scanState = scLocking ∧ m.h K.LS_LOCK_REVS ≤ m.scanRt.good then
      let m := m.put K.LS_FACET_APPLIED (b2n (m.h K.LS_FACET_SYNC == 1))
      let m := if m.h K.LS_FACET_SYNC = 1 then m else m.renumber
      (m.setScan scLocked).raise 0x2801 []
    else m

/-- The facet after the one in progress. -/
def Mach.advanceFacet (m : Mach) : Mach :=
  m.modScan (fun x => { x with
    facet := if m.h K.LS_FACET_SYNC = 1 && x.indexed then 0 else (x.facet + 1) % m.facets
    indexed := false, sinceIndex := if x.indexed then 1 else x.sinceIndex + 1, edges := x.edges + 1, eosSeen := false, apcDone := 0 })

/-- Whether a revolution ends at the SOS that has begun a sweep, and what follows (R174): at the first SOS after an index pulse, or
after F sweeps. A predicted edge counts as the missed one (R175: as if it had come). Nothing is judged under a VMON warning (R190). -/
def Mach.revStep (m : Mach) (t : Nat) (index : Bool) (n : Nat) : Mach :=
  if m.vmonLow then m
  else if m.h K.LS_FACET_SYNC = 1 then (if index then m.revolution t (n == m.facets) else m)
  else if m.scanRt.revStart.isNone || decide (m.facets ≤ m.scanRt.edges) then m.revolution t true else m

/-- A sweep begins at an SOS, real or predicted (R174-R176, R186). -/
def Mach.sweepBegins (mem : Mem) (m : Mach) (t : Nat) (badWord : Bool) : Mach :=
  let x := m.scanRt
  (m.advanceFacet.revStep t x.indexed x.sinceIndex).sweep mem t badWord

/-- An SOS edge at a stamp (R173-R176, R186): the first one starts the prediction; a later one counts in its window, outside which beam 0
is dark. A layout that does not fit leaves open which stamp it takes (R196). -/
def Mach.sosEdge (mem : Mem) (m : Mach) (t : Nat) (badWord : Bool) : Mach :=
  let x := m.scanRt
  if m.diodesOff ∨ ¬(m.scanState = scLocking ∨ m.scanState = scLocked) ∨ x.pausedAt.isSome then m
  else if !x.acquired then
    let m := (m.skipSweeps t).modScan (fun x => { x with
      acquired := true, found := true, last := t, predicted := false, measured := none, facet := m.facets - 1, good := 0, missRun := 0, edges := 0
      missed := false, revStart := none })
    m.sweepBegins mem t badWord
  else
  let (t, m) := if m.layoutBad then m.freeBelow (t + 2 * stampMicro) else (t, m)
  let p := m.nextSos
  if t ≤ x.last ∨ m.layoutBad = false ∧ (t + 320 * m.h K.LS_SOS_LEAD < p ∨ p + 320 * m.h K.LS_SOS_LATE < t) then m
  else
    let m := m.modScan (fun y => { y with
      intervals := if x.predicted then y.intervals else y.intervals.set x.facet (some (t - x.last))
      measured := if x.predicted then y.measured else some (t - x.last)
      found := true, last := t, predicted := false, missRun := 0 })
    m.showIntervals.sweepBegins mem t badWord

/-- An SOS window closes without an edge (R175, R190): the sweep is timed from the predicted edge. -/
def Mach.sosMiss (mem : Mem) (m : Mach) (badWord : Bool) : Mach :=
  let x := m.scanRt
  let p := m.nextSos
  let flies (m : Mach) : Mach := m.modScan (fun x => { x with last := p, predicted := true })
  if !x.acquired ∨ m.lockSuspended ∨ ¬(m.scanState = scLocking ∨ m.scanState = scLocked)
      ∨ stampMicro * m.time < p + 320 * m.h K.LS_SOS_LATE then m
  else if m.vmonLow then (flies m).sweepBegins mem p badWord
  else
    let m := (m.count K.LS_SOS_MISSED).raiseIf (x.missRun == 0) 0x2803 []
    let m := flies (m.modScan (fun x => { x with missRun := x.missRun + 1, missed := true }))
    let m := if m.scanState = scLocked ∧ m.h K.LS_SOS_FLY < m.scanRt.missRun then m.loseLock 2 .next else m
    m.sweepBegins mem p badWord

/-- The VMON warning is over (R190): SOS windows resume at the next predicted edge, the run of misses starts again, and the
revolution in progress is not judged. -/
def Mach.scanResume (m : Mach) : Mach :=
  m.modScan (fun x => { x with missRun := 0, missed := false, edges := 0, revStart := none })

/-- An index pulse (R174, R176). -/
def Mach.indexPulse (m : Mach) : Mach :=
  let x := m.scanRt
  if m.h K.LS_FACET_SYNC ≠ 1 ∨ ¬(m.scanState = scLocking ∨ m.scanState = scLocked) ∨ !x.acquired then m
  else
    let wrong := x.revStart.isSome && x.sinceIndex != m.facets
    let m := m.modScan (fun x => { x with indexed := true })
    if m.scanState = scLocked ∧ wrong ∧ m.lockSuspended = false ∧ m.vmonLow = false then m.loseLock 3 .now else m

/-- Event 0x2805, once per page; between pages once (R177; DESIGN CHOICE, log entry 125). -/
def Mach.eosBad (m : Mach) : Mach :=
  match m.scanRt.page.bind m.page? with
  | none => if m.scanRt.eosIdle then m else (m.raise 0x2805 []).modScan (fun x => { x with eosIdle := true })
  | some p => if p.eosDone then m else (m.raise 0x2805 []).modPage p.item (fun p => { p with eosDone := true })

/-- Where the EOS edge is due in the sweep in progress, as a stamp (R177). -/
def Mach.eosDue (m : Mach) : Rat := (m.scanRt.last : Rat) + (m.h K.LS_SOS_EOS_NOM : Rat) * m.pixelPeriod / 16
/-- Whether beam 0 may be lit for EOS (R177). -/
def Mach.eosOn (m : Mach) : Bool :=
  m.h K.LS_EOS_ENABLE == 1 && !m.scanRt.eosSeen && m.scanRt.acquired && !m.diodesOff && (m.scanState == scLocking || m.scanState == scLocked)

/-- A measured scan length, 1/16 pixel, with its check (R177): an edge outside the window is none, the beam being dark. -/
def Mach.eosEdge (m : Mach) (t : Nat) : Mach :=
  let x := m.scanRt
  if m.eosOn = false ∨ (t : Rat) + ((320 * m.h K.LS_SOS_LEAD : Nat) : Rat) < m.eosDue
      ∨ m.eosDue + ((320 * m.h K.LS_SOS_LATE : Nat) : Rat) < (t : Rat) then m
  else
    let v := (roundRat (((t - x.last : Nat) : Rat) * 16 / m.pixelPeriod)).toNat
    let m := m.modScan (fun x => { x with eosSeen := true })
    let m := m.put K.LS_EOS_MEASURED (setFld (m.g K.LS_EOS_MEASURED) (4 * x.facet) 4 v)
    let nom := m.h K.LS_SOS_EOS_NOM
    let off := if v < nom then nom - v else v - nom
    if m.h K.LS_EOS_TOL < off then m.eosBad else m

/-- The EOS window ends without an edge (R177). -/
def Mach.eosMiss (m : Mach) : Mach :=
  if m.eosOn = false ∨ ((stampMicro * m.time : Nat) : Rat) < m.eosDue + ((320 * m.h K.LS_SOS_LATE : Nat) : Rat) then m
  else (m.modScan (fun x => { x with eosSeen := true })).eosBad

/-! ### Interlock and power, R187-R189 -/

/-- Every high-voltage channel to duty 0 (R206, R217); the safety monitor's own cut leaves the same state. -/
def Mach.hvOff (m : Mach) : Mach :=
  let m := m.modSl (fun s => { s with hv := s.hv.map (fun _ => {}) })
  upto 4 m (fun m c => m.puts [(K.HV_DUTY c, 0), (K.HV_STATE c, if m.g (K.HV_STATE c) = 4 then 4 else 0)])

/-- The interlock input opens (R187). -/
def Mach.intlkOpens (m : Mach) : Mach :=
  if m.scanRt.intlkOpen then m
  else
    let m := (m.modScan (fun x => { x with intlkOpen := true })).count K.LS_INTLK_OPENINGS
    if !(m.gb K.LS_INTLK_ENABLE) then m
    else
      let m := ((m.put K.LS_INTLK_STATE 1).hvOff).raise 0x2806 []
      (m.spoilPages 7 .now).refreshSL

/-- The interlock input closes. -/
def Mach.intlkCloses (m : Mach) : Mach :=
  let m := m.modScan (fun x => { x with intlkOpen := false })
  if m.g K.LS_INTLK_STATE = 1 then (m.put K.LS_INTLK_STATE 2).refreshSL else m

end Sys2Proof.Machine
end

