-- ==== Sys2Proof/Machine/ProcessOps.lean ====
section
/-! DEFINITION. The laser station's process and sheet path (R199-R219): modes and warm-up, high voltage, fuser, picks,
release, jams and purging. -/

namespace Sys2Proof.Machine

open Sys2Proof

def prOff : Nat := 0
def prStandby : Nat := 1
def prWarming : Nat := 2
def prReady : Nat := 3
def prStopping : Nat := 4
def prFault : Nat := 5

def Mach.procState (m : Mach) : Nat := m.g K.LS_PROC_STATE
/-- Change the process state: event 0x2811 and the readiness of SL (R201). -/
def Mach.setProc (m : Mach) (s : Nat) : Mach :=
  if m.procState = s then m else ((m.put K.LS_PROC_STATE s).raise 0x2811 [s]).refreshSL

/-- A speed in 0.1 mm/s on an axis, pos/s. -/
def pathSpeed (n v : Nat) : Rat := mmToPos n ((v : Rat) / 10)

/-- The SL items with a place in flight. -/
def Mach.slFlight (m : Mach) : List Item := m.itemsOf 4 Item.inFlight

/-! ### Process start, R199, R200, R202, R215 -/

/-- What a process start reads (R220). -/
def procKeys : List Nat :=
  [K.LS_PROC_SPEED, K.LS_DRUM_AXIS, K.LS_FUSER_AXIS, K.LS_PICK_AXIS, K.LS_REG_AXIS, K.LS_EXIT_AXIS]
    ++ ((List.range 4).flatMap (fun c => [K.HV_V_AIN c, K.HV_V_SCALE c, K.HV_V_OFFSET c, K.HV_I_AIN c, K.HV_I_SCALE c, K.HV_I_OFFSET c, K.HV_POLARITY c]))
    ++ [K.LS_FUS_AIN 0, K.LS_FUS_AIN 1, K.LS_FUS_AIN 2, K.LS_FUS_THM_POL]
    ++ ((List.range 7).map (fun i => K.LS_SI i)) ++ ((List.range 7).map (fun i => K.LS_POS i))
    ++ [K.LS_POS_PICK_NIP, K.LS_POS_TRANSFER, K.LS_POS_FUSER, K.LS_DRUM_ET, K.LS_BUCKLE, K.LS_PICK_SPEED, K.LS_PATH_ACCEL,
        K.LS_REG_TRIM, K.LS_SI_TRAY]

/-- LS_REG_OFFSET in µs (R215), from the values a process start reads. -/
def Mach.regOffset (m : Mach) : Int :=
  let b := m.g K.LS_BEAMS
  let v : Rat := ((max 1 (m.g K.LS_PROC_SPEED) : Nat) : Rat) / 10
  let rpm := polyRpm (m.g K.LS_PROC_SPEED) (m.g K.LS_DPI) b (m.g K.LS_FACETS)
  let tf : Rat := if rpm * m.g K.LS_FACETS = 0 then 0 else 60000000 / ((rpm * m.g K.LS_FACETS : Nat) : Rat)
  let dt : Rat := ((m.g K.LS_DRUM_ET : Int) - m.gi 32 K.LS_POS_TRANSFER : Int) / (10 : Rat)
  let acc : Rat := ((max 1 (m.g K.LS_PATH_ACCEL) : Nat) : Rat)
  roundRat (((leadLines b / max 1 b : Nat) : Rat) * tf + (dt / v - v / (2 * acc)) * 1000000) + m.gi 32 K.LS_REG_TRIM

/-- Whether a mode of a high-voltage channel drives it: 0 is off and 3 as 0 (R204). -/
def isOn (mode : Nat) : Bool := mode % 4 == 1 || mode % 4 == 2

/-- Whether what the process needs is configured (R200, cause 3). -/
def Mach.procConfigured (m : Mach) : Bool :=
  [K.LS_DRUM_AXIS, K.LS_FUSER_AXIS, K.LS_PICK_AXIS, K.LS_REG_AXIS, K.LS_EXIT_AXIS].all (fun k => decide (m.g k < m.nAxes))
    && (List.range 7).all (fun i => decide (m.g (K.LS_SI i) < 24))
    && (List.range 3).all (fun i => decide (m.g (K.LS_FUS_AIN i) < 64))
    && (List.range 4).all (fun c =>
      let used := isOn (m.g (K.HV_GAP_MODE c)) || (List.range 16).any (fun k => isOn (fld (m.g (K.LS_HV_SET k)) (4 * c + 2) 2))
      !used || (decide (m.g (K.HV_V_AIN c) < 64) && decide (m.g (K.HV_I_AIN c) < 64)))

/-- The targets of the class of a page: main and edge, 1/16 °C. -/
def Mach.fuserSet (m : Mach) (cls : Nat) : Nat := m.g (K.LS_FUSER_SET cls)

/-- Put fuser targets into force; the settling time starts again. -/
def Mach.setTargets (m : Mach) (t : Nat) : Mach :=
  (m.put K.LS_FUS_TARGET t).modSl (fun s => { s with bandSince := none })

/-- Both heaters at the standby target. -/
def Mach.standbyTargets (m : Mach) : Mach := let t := m.g K.LS_FUS_STANDBY; m.setTargets (t + 65536 * t)

/-- Fuser state while no fault holds it. -/
def Mach.setFuser (m : Mach) (v : Nat) : Mach := if 3 ≤ m.g K.LS_FUS_STATE then m else m.put K.LS_FUS_STATE v

/-! ### Jams, R216, R217 -/

/-- A jam stop (R217). -/
def Mach.jamStop (m : Mach) (cause stage item : Nat) : Mach :=
  if m.g K.LS_PATH_STATE = 2 then m
  else
    let m := m.procAxes.foldl (fun m a => m.axHalt a (mmToPos a (m.g K.LS_JAM_DECEL : Rat))) m
    let m := (m.hvOff).setTargets 0
    let m := (m.puts [(K.LS_PATH_STATE, 2), (K.LS_JAM_CAUSE, cause), (K.LS_JAM_STAGE, stage), (K.LS_JAM_ITEM, item)]).count K.LS_JAMS
    let m := m.setProc prFault
    let reason := if cause = 7 then 9 else if cause = 8 then 8 else 12
    let m := m.sl.sheets.foldl (fun m x => m.pageSpoil x.item reason .now) m
    let m := if cause = 6 then m.modItem item (fun it => { it with mediaUsed := false }) else m
    let m := if m.g (K.IT_STATION_HOLD 4) = 0 then m.setHold 4 item else m
    m.raise 0x2818 [cause, stage, item]

/-! ### Start, rest and stop, R200-R203 -/

/-- A stage sensor that is active although no sheet is at it (R216, cause 4). -/
def Mach.residual (m : Mach) : Option Nat :=
  (List.range 7).find? (fun i => m.si (m.h (K.LS_SI i)) && !(m.sl.sheets.any (fun x => x.lead.contains i && !(x.trail.contains i))))

/-- WARMING from its first step on (R202): the targets are those of the first SL item in flight. -/
def Mach.procBegin (m : Mach) : Mach :=
  let cls := match m.slFlight.head? with | some it => it.mediaClass | none => 0
  let m := (m.setTargets (m.fuserSet cls)).setFuser 1
  let m := m.modSl (fun s => { s with
    warm := 1, warmAt := m.time, stop := 0, idleAt := none, hv := List.replicate 4 {}, wins := [], lastRelease := none
    speed := if s.speed = 0 then m.h K.LS_PROC_SPEED else s.speed })
  m.setProc prWarming

/-- The process starts: refused with event 0x281B (R199, R200), else WARMING at step 1 (R202); a sheet left in the path jams it
(R216). -/
def Mach.procStart (m : Mach) : Mach :=
  let s := m.scanState
  if s ≠ scStopped ∧ s ≠ scFault ∧ m.h K.LS_PROC_SPEED ≠ m.g K.LS_PROC_SPEED then m.raise 0x281B [1]
  else if m.regOffset < -(m.g K.LS_IMG_DELAY : Int) then m.raise 0x281B [2]
  else if !m.procConfigured then m.raise 0x281B [3]
  else
    let m := (m.sample procKeys).puti 32 K.LS_REG_OFFSET m.regOffset
    let m := m.procAxes.foldl (fun m a => m.put (K.AX_GROUP a) 0xFF) m
    let m := (m.modSl (fun s => { s with speed := m.h K.LS_PROC_SPEED })).procBegin
    let m := m.partnerIs dscMedia 4 (decide (23 < m.h K.LS_SI_TRAY) || m.si (m.h K.LS_SI_TRAY))
    match m.residual with
    | some i => m.jamStop 4 i 0
    | none => m

/-- Back to WARMING at a step. -/
def Mach.procWarm (m : Mach) (step : Nat) : Mach :=
  (m.modSl (fun s => { s with warm := step, warmAt := m.time, bandSince := none })).setProc prWarming

/-- The process axes decelerate (R203). -/
def Mach.procHalt (m : Mach) : Mach := m.procAxes.foldl (fun m a => m.axRun a 0) m

/-- The process is in STANDBY or OFF by its mode (R200, R203): high voltage off, heaters at LS_FUS_STANDBY or off. STANDBY entered from OFF
reads the thermistor inputs, which its heaters need (DEDUCED, log entry 130). -/
def Mach.procRest (m : Mach) : Mach :=
  let m := m.modSl (fun s => { s with warm := 0, warmAt := m.time, stop := 0, speed := 0, hv := List.replicate 4 {}, wins := [] })
  let m := upto 4 m (fun m c => m.puts [(K.HV_DUTY c, 0), (K.HV_STATE c, 0)])
  if m.g K.LS_PROC_MODE = 0 then ((m.setTargets 0).setFuser 0).setProc prOff
  else
    let m := if m.procState = prOff then m.sample [K.LS_FUS_AIN 0, K.LS_FUS_AIN 1, K.LS_FUS_AIN 2, K.LS_FUS_THM_POL] else m
    ((m.standbyTargets).setFuser 1).setProc prStandby

/-- The channels of a stopping process have ramped to 0: its axes decelerate (R203, steps 2 and 3). -/
def Mach.procRamped (m : Mach) : Mach :=
  if m.procState = prStopping ∧ m.sl.stop = 2 ∧ m.sl.hv.all (fun x => !x.active) then (m.modSl (fun s => { s with stop := 3 })).procHalt else m

/-- The process stops (R203): transfer and bias ramp down at once. -/
def Mach.procStop (m : Mach) : Mach := (m.modSl (fun s => { s with stop := 1, stopAt := m.time })).setProc prStopping

/-! ### High voltage, R204-R206 -/

/-- Set-point and mode a channel holds now (R204): those of the latest page window that has begun while it lasts, else the gap values. -/
def Mach.hvTarget (m : Mach) (c : Nat) : Nat × Nat :=
  let t : Int := m.time
  let w := (m.sl.wins.filter (fun w => decide (w.chan = c ∧ w.on_ ≤ t))).getLast?
  let p : Nat × Nat := match w.filter (fun w => decide (t < w.off)) with
    | some w => (fld w.record (4 * c) 2, fld w.record (4 * c + 2) 2 % 4)
    | none => (m.g (K.HV_GAP_SET c), m.g (K.HV_GAP_MODE c))
  (p.1, if p.2 = 3 then 0 else p.2)

/-- Which channels ramp up at a warm-up step, and which stay on while a stop runs (R202, R203): 0 charge, 1 developer bias,
2 transfer, 3 discharge; the safety monitor's forces keep all of them off (R20). -/
def Mach.hvWanted (m : Mach) (c : Nat) : Bool :=
  if m.g K.LS_INTLK_STATE = 1 ∨ m.g K.LS_INTLK_STATE = 2 ∨ m.g K.DEV_SHUTDOWN ≠ 0 then false else
  match m.procState with
  | 2 => if c = 0 ∨ c = 3 then decide (4 ≤ m.sl.warm) else decide (5 ≤ m.sl.warm)
  | 3 => true
  | 4 => (c = 0 ∨ c = 3) && m.sl.stop == 1
  | _ => false

/-- The process faults for a cause that lets sheets run out (R206, R209, R210): pages released are spoiled with reason 7. -/
def Mach.procFault (m : Mach) : Mach := (m.setProc prFault).spoilPages 7 .next

/-- A channel faults (R206). -/
def Mach.hvFault (m : Mach) (c cause : Nat) : Mach :=
  let m := (m.hvOff).put (K.HV_STATE c) 4
  (m.raise 0x2812 [c, cause]).procFault

/-- A REAL32 in use. -/
def Mach.hf (m : Mach) (k : Nat) : R32 := R32.ofBits (m.h k)

/-- A measurement of a channel: its accumulator's result scaled, with the over-range flag. -/
def Mach.hvMeasure (m : Mach) (ain : Nat) (scale ofs : Nat) : Rat × Bool :=
  match m.ainResult ain with
  | some (code, flag, _) => ((code : Rat) * (m.hf scale).val + (m.hf ofs).val, flag)
  | none => ((m.hf ofs).val, false)

/-- A measurement into its INTEGER16; one that does not fit is a value the spec leaves open (log entry 131). -/
def Mach.putFit16 (m : Mach) (k : Nat) (v : Int) : Mach :=
  if -32768 ≤ v ∧ v < 32768 then m.puti 16 k v else let (n, m) := m.freeBelow 65536; m.put k n

/-- One update of a channel (R205). -/
def Mach.hvStep (m : Mach) (c : Nat) : Mach :=
  let x := m.sl.hv.getD c {}
  let modHv (f : HvRt → HvRt) (m : Mach) : Mach := m.modSl (fun s => { s with hv := s.hv.modify c f })
  let (set, mode) := m.hvTarget c
  let want := m.hvWanted c && mode != 0
  let stopping := m.procState == prStopping && x.active
  if m.g (K.HV_STATE c) = 4 then m
  else if !want && !stopping then
    (modHv (fun _ => {}) m).puts [(K.HV_DUTY c, 0), (K.HV_STATE c, 0)]
  else
    let p : Rat := if m.h (K.HV_POLARITY c) = 1 then -1 else 1
    let (vm, fv) := m.hvMeasure (m.h (K.HV_V_AIN c)) (K.HV_V_SCALE c) (K.HV_V_OFFSET c)
    let (im, fi) := m.hvMeasure (m.h (K.HV_I_AIN c)) (K.HV_I_SCALE c) (K.HV_I_OFFSET c)
    let m := (m.putFit16 (K.HV_V_MEAS c) (roundRat vm)).putFit16 (K.HV_I_MEAS c) (roundRat im)
    if fv || fi then m.hvFault c 3
    else
      let target : Rat := if want then (set : Rat) else 0
      let ramp : Rat := (m.g (K.HV_RAMP c) : Rat) / 10
      let d := target - x.r
      let r := x.r + (if d < -ramp then -ramp else if ramp < d then ramp else d)
      let cv := mode == 1
      let y := p * (if cv then vm else im)
      let z := p * (if cv then im else vm)
      let kp (v : Bool) : Rat := (m.gf (if v then K.HV_KP_V c else K.HV_KP_I c)).val
      let ki (v : Bool) : Rat := (m.gf (if v then K.HV_KI_V c else K.HV_KI_I c)).val
      let lim : Rat := (m.g (if cv then K.HV_I_LIMIT c else K.HV_V_LIMIT c) : Rat)
      let a := kp cv * (r - y) + x.accA
      let b := kp (!cv) * (lim - z) + x.accB
      let lo := if a < b then a else b
      let top : Rat := (m.g (K.HV_DUTY_MAX c) : Rat) / 4096
      let duty := if lo < 0 then 0 else if top < lo then top else lo
      let aWins := decide (a ≤ b)
      let accA := if aWins then (if duty = lo then x.accA + ki cv * (r - y) / 10000 else x.accA) else duty - kp cv * (r - y)
      let accB := if aWins then duty - kp (!cv) * (lim - z) else (if duty = lo then x.accB + ki (!cv) * (lim - z) / 10000 else x.accB)
      let off := if r < y then y - r else r - y
      let tol : Rat := m.g (K.HV_TOL c)
      let st := if r ≠ target then 1 else if b < a then 3 else if off ≤ tol then 2 else 1
      let out := r == target && decide (tol < off)
      let since (cond : Bool) (old : Option Nat) : Option Nat := if cond then some (old.getD m.time) else none
      let old := m.g (K.HV_STATE c)
      let m := modHv (fun x => { r, accA, accB, active := true, badSince := since out x.badSince, limSince := since (decide (st = 3)) x.limSince }) m
      let m := m.puts [(K.HV_DUTY c, (roundRat (duty * 4096)).toNat), (K.HV_STATE c, st)]
      let m := m.raiseIf (decide (st = 3 ∧ old ≠ 3)) 0x2813 [c]
      if stopping && !want && r == 0 then (modHv (fun _ => {}) m).puts [(K.HV_DUTY c, 0), (K.HV_STATE c, 0)] else m

/-- Whether a channel has been at fault for HV_FAULT_TIME, and the cause (R206). -/
def Mach.hvFaultDue (m : Mach) (c : Nat) : Option Nat :=
  let x := m.sl.hv.getD c {}
  let late (t : Option Nat) : Bool := match t with | some t => decide (t + 1000 * m.g (K.HV_FAULT_TIME c) ≤ m.time) | none => false
  if late x.limSince then some 2 else if late x.badSince then some 1 else none

/-! ### Fuser, R207-R210 -/

/-- A temperature by LS_FUS_CURVE, 1/16 °C. -/
def Mach.fuserCurve (m : Mach) (code : Nat) : Rat :=
  let c := m.g K.LS_FUS_CURVE
  let i := min 31 (code / 128)
  let a : Rat := sfld c (2 * i) 2
  let b : Rat := sfld c (2 * (i + 1)) 2
  a + (b - a) * ((code : Rat) - 128 * (i : Rat)) / 128

/-- Temperature of a fuser thermistor by its accumulator, 1/16 °C. -/
def Mach.fuserTemp (m : Mach) (n : Nat) : Rat :=
  match m.ainResult (m.h (K.LS_FUS_AIN n)) with
  | some (code, _, _) => m.fuserCurve code
  | none => (m.gi 16 (K.LS_FUS_TEMP n) : Rat)

/-- The target of a heater, 1/16 °C. -/
def Mach.heaterTarget (m : Mach) (h : Nat) : Int := sfld (m.g K.LS_FUS_TARGET) (2 * h) 2

/-- Both heaters within a band of their targets. -/
def Mach.heatersIn (m : Mach) (band : Nat) : Bool :=
  (List.range 2).all (fun h =>
    let d := m.fuserTemp h - (m.heaterTarget h : Rat)
    decide (-(band : Rat) ≤ d ∧ d ≤ (band : Rat)))

/-- Whether the heaters are controlled: not off, tripped or at fault. -/
def Mach.heating (m : Mach) : Bool := m.g K.LS_FUS_STATE == 1 || m.g K.LS_FUS_STATE == 2

/-- The fuser stops heating for a fault (R210): 4 HEATER_FAULT, 5 MAINS_FAULT. -/
def Mach.fuserFault (m : Mach) (state code : Nat) (data : List Nat) : Mach :=
  ((m.put K.LS_FUS_STATE state).raise code data).procFault

/-- One heater's demand at a zero crossing (R207): u and its accumulator. -/
def Mach.heaterDemand (m : Mach) (h : Nat) (half : Rat) : HeaterRt :=
  let x := m.sl.heaters.getD h {}
  let temp := m.fuserTemp h
  let e : Rat := ((m.heaterTarget h : Rat) - temp) / 16
  let raw := (m.gf K.LS_FUS_KP).val * e + x.acc
  let top : Rat := (m.g K.LS_FUS_UMAX : Rat) / 100
  let u := if raw < 0 then 0 else if top < raw then top else raw
  let acc := if u = raw then x.acc + (m.gf K.LS_FUS_KI).val * e * half else x.acc
  let rise := if u < 9 / 10 then none
    else match x.rise with
      | some (t, q) => if (m.g K.LS_FUS_RISE_MIN : Rat) ≤ temp - q then some (m.time, temp) else some (t, q)
      | none => some (m.time, temp)
  { acc, sd := x.sd + u, u, rise }

/-- The control of the heaters at a zero crossing (R207, R210): credits, exclusion, gate pulses; below the run band a READY
process warms again. -/
def Mach.heatStep (m : Mach) (t10 : Nat) (half : Rat) : Mach :=
  let x0 := m.heaterDemand 0 half
  let x1 := m.heaterDemand 1 half
  let f0 := decide (1 ≤ x0.sd)
  let f1 := decide (1 ≤ x1.sd) && !(m.gb K.LS_FUS_EXCL && f0)
  let pay (f : Bool) (x : HeaterRt) : HeaterRt := if f then { x with sd := x.sd - 1 } else x
  let m := m.modSl (fun s => { s with heaters := [pay f0 x0, pay f1 x1] })
  let pulse (f : Bool) (h : Nat) (m : Mach) : Mach :=
    if f && m.g K.DEV_SHUTDOWN == 0 then
      let (a, w) := (t10 + 100 * m.g K.LS_ZC_DELAY, 100 * m.g K.LS_GATE_WIDTH)
      (m.modSl (fun s => { s with heaters := s.heaters.modify h (fun x => { x with pulse := (a, w) }) })).emit (.gate h a w)
    else m
  let m := pulse f1 1 (pulse f0 0 m)
  let inBand := m.heatersIn (m.g K.LS_FUS_BAND)
  let m := m.modSl (fun s => { s with bandSince := if inBand then some (s.bandSince.getD m.time) else none })
  let m := m.put K.LS_FUS_STATE (if inBand then 2 else 1)
  let low := (List.range 2).any (fun h => decide (m.fuserTemp h < (m.heaterTarget h : Rat) - (m.g K.LS_FUS_RUN_BAND : Rat)))
  if m.procState = prReady && low then (m.procWarm 5).raise 0x281D [] else m

/-- A zero crossing at a moment in 10 ns (R207, R210). -/
def Mach.zeroCross (m : Mach) (t10 : Nat) : Mach :=
  let m := upto 3 m (fun m n => m.put (K.LS_FUS_TEMP n) (ofInt 16 (roundRat (m.fuserTemp n))))
  let last := m.sl.zc
  let m := m.modSl (fun s => { s with zc := some t10 })
  match last with
  | none => m
  | some t =>
    let d := t10 - t
    let m := m.put K.LS_MAINS_HALF (min 65535 (roundDiv d 100))
    if !m.heating then m
    else if d < 769000 ∨ 1111000 < d then m.fuserFault 5 0x2816 []
    else m.heatStep t10 ((d : Rat) / 100000000)

/-- Whether a thermistor code lies on the hot side of a level (R209). -/
def hotter (pol : Bool) (code level : Nat) : Bool := if pol then decide (code < level) else decide (level < code)

/-- A conversion of a fuser thermistor (R209): the safety monitor's trip. -/
def Mach.fuserConv (m : Mach) (n code : Nat) (flag : Bool) : Mach :=
  let pol := m.h K.LS_FUS_THM_POL == 1
  let m := m.modSl (fun s => { s with fusCodes := s.fusCodes.set n (if flag then (if pol then 0 else 4095) else code) })
  if flag ∨ code = 0 ∨ code = 4095 ∨ hotter pol code (m.g (K.LS_FUS_TRIP n)) then
    let old := m.g K.LS_FUS_TRIPPED
    if bit old n then m
    else
      let mask := withBit old n true
      let m := (m.puts [(K.LS_FUS_TRIPPED, mask), (K.LS_FUS_STATE, 3)]).raise 0x2814 [mask]
      m.procFault
  else m

/-- Deliver a conversion to the fuser's thermistors once the process has read its inputs. -/
def Mach.fuserDeliver (m : Mach) (ain code : Nat) (flag : Bool) : Mach :=
  if !m.hasSL then m
  else upto 3 m (fun m n => if m.h (K.LS_FUS_AIN n) = ain then m.fuserConv n code flag else m)

/-- A fuser trip is cleared when every thermistor is cool (R209); codes 0 and 4,095 count as hot. -/
def Mach.tripClear (m : Mach) : WriteResult :=
  let pol := m.h K.LS_FUS_THM_POL == 1
  let cool := (List.range 3).all (fun n =>
    let c := m.sl.fusCodes.getD n 0
    c != 0 && c != 4095 && (if pol then decide (m.g (K.LS_FUS_RESET n) < c) else decide (c < m.g (K.LS_FUS_RESET n))))
  if !cool then refuseState m
  else
    let m := if m.g K.LS_FUS_STATE = 3 then m.put K.LS_FUS_STATE 0 else m
    ((m.put K.LS_FUS_TRIPPED 0).raise 0x2817 [], .ok)

/-! ### Warm-up, R202 -/

/-- Whether an axis runs at a speed as commanded. -/
def Mach.atSpeed (m : Mach) (n : Nat) (v : Rat) : Bool := (m.axis n).mode == .velocity (roundRat v) && roundRat (m.axVel n) == roundRat v

/-- The next step of a process start, where its condition is met (R202). A charge channel whose gap mode is off does not hold step 5
up, and the axes of step 6 are those that step 3 accelerates (DEDUCED, log entry 132). -/
def Mach.procAdvance (m : Mach) : Mach :=
  if m.procState ≠ prWarming then m
  else
    let next (m : Mach) (n : Nat) : Mach := m.modSl (fun s => { s with warm := n })
    let v (a : Nat) : Rat := pathSpeed a m.procV
    let drum := m.h K.LS_DRUM_AXIS
    let fus := m.h K.LS_FUSER_AXIS
    let exit_ := m.h K.LS_EXIT_AXIS
    match m.sl.warm with
    | 1 => if (m.gi 16 K.LS_FUS_ROTATE : Rat) ≤ m.fuserTemp 0 then (next m 2).axRun fus (pathSpeed fus (m.g K.LS_FUS_WARM_SPEED)) else m
    | 2 => if (m.heaterTarget 0 : Rat) - (m.g K.LS_FUS_PRESTART : Rat) ≤ m.fuserTemp 0 then
             (((next m 3).axRun drum (v drum)).axRun fus (v fus)).axRun exit_ (v exit_) else m
    | 3 => if m.atSpeed drum (v drum) then next m 4 else m
    | 4 => if m.g (K.HV_STATE 0) = 2 ∨ isOn (m.g (K.HV_GAP_MODE 0)) = false then next m 5 else m
    | 5 =>
      let hv := (List.range 4).all (fun c => m.g (K.HV_STATE c) == 2 || !(isOn (m.g (K.HV_GAP_MODE c))))
      let settled := match m.sl.bandSince with | some t => decide (t + 1000 * m.g K.LS_FUS_SETTLE ≤ m.time) | none => false
      let axes := m.atSpeed drum (v drum) && m.atSpeed fus (v fus) && m.atSpeed exit_ (v exit_)
      if hv && settled && axes then
        let m := m.modSl (fun s => { s with warm := 6, lastRelease := none, idleAt := if m.slFlight = [] then some m.time else none })
        (m.setProc prReady).raise 0x2810 []
      else m
    | _ => m

/-! ### Sheets, R212-R216 -/

def Mach.modSheet (m : Mach) (id : Nat) (f : SheetRt → SheetRt) : Mach :=
  m.modSl (fun s => { s with sheets := s.sheets.map (fun x => if x.item = id then f x else x) })
/-- Commanded position of a sheet's leading edge, 0.1 mm from the registration nip. -/
def Mach.sheetPos (m : Mach) (x : SheetRt) : Rat := x.plan.origin + posAt x.plan.pieces (((m.now10 - x.plan.start10 : Nat) : Rat) / 100000000)
def Mach.stagePos (m : Mach) (i : Nat) : Rat := (m.hi 32 (K.LS_POS i) : Rat)
/-- Publish the number of sheets and the path state while it is not jammed or purging. -/
def Mach.showSheets (m : Mach) : Mach :=
  let n := m.sl.sheets.length
  let m := m.put K.LS_SHEETS n
  if 2 ≤ m.g K.LS_PATH_STATE then m else m.put K.LS_PATH_STATE (if n = 0 then 0 else 1)

/-- A page's motion along the path comes from an acceleration and speeds in mm, as pieces in 0.1 mm. -/
def pickPieces (acc v dist : Nat) : List Piece := restMove (10 * (acc : Rat)) (10 * (acc : Rat)) 0 (v : Rat) (dist : Rat)

/-- The least time between releases after a page, by its commit snapshot (R213), µs. -/
def Mach.releasePitch (m : Mach) (it : Item) : Nat := m.pageGap it.length (it.s (K.LS_PAPER it.mediaClass))

/-- release_min of the next page (R213). -/
def Mach.releaseMin (m : Mach) : Nat := match m.sl.lastRelease with | some (t, p) => t + p | none => 0

/-- The next page to pick: the first ADMITTED one whose pick has not begun. -/
def Mach.nextPick (m : Mach) : Option Item := (m.itemsOf 4 (fun it => it.state == .admitted && !it.pickBegun)).head?

/-- Whether the trailing edges of all sheets have passed a place (0.1 mm). -/
def Mach.sheetsPast (m : Mach) (pos : Int) : Bool :=
  m.sl.sheets.all (fun x => decide ((pos : Rat) ≤ m.sheetPos x - (x.length : Rat)))

/-- Begin a pick: the sheet's motion, its records, the pick axis (R213, R204). -/
def Mach.pickBegin (m : Mach) (it : Item) (tries : Nat) : Mach :=
  let nip := m.hi 32 K.LS_POS_PICK_NIP
  let dist := ((m.h K.LS_BUCKLE : Int) - nip).toNat
  let ps := pickPieces (m.h K.LS_PATH_ACCEL) (m.h K.LS_PICK_SPEED) dist
  let x : SheetRt := {
    item := it.id, length := fld (it.s (K.LS_PAPER it.mediaClass)) 0 2, plan := { pieces := ps, start10 := m.now10, origin := nip }
    tries, hvSet := m.g (K.LS_HV_SET it.mediaClass)
    hvOn := (List.range 4).map (fun c => m.gi 32 (K.HV_ON c)), hvOff := (List.range 4).map (fun c => m.gi 32 (K.HV_OFF c)) }
  let m := m.modSl (fun s => { s with sheets := s.sheets.filter (fun y => y.item != it.id) ++ [x] })
  let m := m.modItem it.id (fun it => { it with pickBegun := true })
  let a := m.h K.LS_PICK_AXIS
  (m.axGoUnder a (mmToPos a (m.h K.LS_PATH_ACCEL : Rat)) (mmToPos a ((m.h K.LS_PICK_SPEED : Rat) / 10)) (mmToPos a ((dist : Rat) / 10))).showSheets

/-! ### Stages, R216 -/

/-- A sheet leaves the path at the exit: the page reaches DONE (R36). -/
def Mach.sheetOut (m : Mach) (x : SheetRt) : Mach :=
  let m := (m.modSl (fun s => { s with sheets := s.sheets.filter (fun y => y.item != x.item) })).showSheets
  (m.modItem x.item (fun it => { it with feedDone := true, endDone := true })).itemDone x.item

/-- A stage sensor becomes active (R216): the sheet due there, else early or residual; a purge expects sheets at every stage and
counts them at the exit (R218; DEDUCED, log entry 133). -/
def Mach.stageOn (m : Mach) (i : Nat) : Mach :=
  if m.g K.LS_PATH_STATE = 2 then m
  else if m.g K.LS_PATH_STATE = 3 then (if i = 6 then m.count K.LS_PURGED else m)
  else
    let early := m.stagePos i - (m.g K.LS_JAM_EARLY : Rat)
    match m.sl.sheets.find? (fun x => !(x.lead.contains i)) with
    | none => m.jamStop 4 i 0
    | some x =>
      if m.sheetPos x < early then m.jamStop 2 i x.item
      else m.modSheet x.item (fun y => { y with lead := i :: y.lead, edge1 := if i = 1 then m.sheetPos x else y.edge1, missedAt := none })

/-- A stage sensor becomes inactive: the trailing edge of the sheet in it (R216, R36). -/
def Mach.stageOff (m : Mach) (i : Nat) : Mach :=
  if 2 ≤ m.g K.LS_PATH_STATE then m
  else
    match m.sl.sheets.find? (fun x => x.lead.contains i && !(x.trail.contains i)) with
    | none => m
    | some x =>
      let m := m.modSheet x.item (fun y => { y with trail := i :: y.trail })
      let d := m.sheetPos x - x.edge1 - (x.length : Rat)
      let tol : Rat := m.g K.LS_LEN_TOL
      if i = 1 ∧ (d < -tol ∨ tol < d) then m.jamStop 5 i x.item
      else if i = 2 then m.axRun (m.h K.LS_REG_AXIS) 0
      else if i = 6 then m.sheetOut x else m

/-- An accepted edge of a sense input on the path and tray (R212, R216). -/
def Mach.pathEdge (m : Mach) (n : Nat) (active : Bool) : Mach :=
  if !m.hasSL then m
  else
    let m := if m.h K.LS_SI_TRAY = n then m.partnerIs dscMedia 4 active else m
    if !m.procStarted then m
    else upto 7 m (fun m i => if m.h (K.LS_SI i) = n then (if active then m.stageOn i else m.stageOff i) else m)

/-- No leading edge by the end of a stage's window (R216). A missed pick stops and waits. -/
def Mach.jamLate (m : Mach) (i : Nat) : Mach :=
  if 2 ≤ m.g K.LS_PATH_STATE then m
  else match m.sl.sheets.find? (fun x => !(x.lead.contains i) && x.missedAt.isNone
      && decide (m.stagePos i + (m.g K.LS_JAM_LATE : Rat) ≤ m.sheetPos x)) with
    | none => m
    | some x =>
      if i = 0 then
        let a := m.h K.LS_PICK_AXIS
        (m.modSheet x.item (fun y => { y with missedAt := some m.time })).axHalt a ((m.axis a).dStop)
      else m.jamStop 1 i x.item

/-- No trailing edge by its expected place (R216). -/
def Mach.jamStay (m : Mach) (i : Nat) : Mach :=
  if 2 ≤ m.g K.LS_PATH_STATE then m
  else match m.sl.sheets.find? (fun x => x.lead.contains i && !(x.trail.contains i)
      && decide (m.stagePos i + (x.length : Rat) + (m.g K.LS_JAM_LATE : Rat) ≤ m.sheetPos x)) with
    | none => m
    | some x => m.jamStop 3 i x.item

/-- 100 ms after a missed pick it is repeated, or cause 6 is declared (R216). -/
def Mach.pickRetry (m : Mach) : Mach :=
  match m.sl.sheets.find? (fun x => match x.missedAt with | some t => decide (t + 100000 ≤ m.time) | none => false) with
  | none => m
  | some x =>
    if 2 ≤ m.g K.LS_PATH_STATE then m
    else match m.item? x.item with
      | none => m
      | some it => if x.tries < m.g K.LS_PICK_RETRIES then (m.raise 0x281E []).pickBegin it (x.tries + 1) else m.jamStop 6 0 x.item

/-! ### Pick, gate and roller, R208, R213-R215 -/

/-- Whether all but the fuser is ready for a pick (R213). -/
def Mach.pickDue (m : Mach) (it : Item) : Bool :=
  let need := 1000 * (fld (it.s (K.LS_PAPER it.mediaClass)) 0x0C 2 + m.g K.LS_PICK_MARGIN)
  m.procStarted && decide (m.g K.LS_PATH_STATE ≤ 1) && decide (m.sl.sheets.length < 3) && decide (m.releaseMin ≤ m.time + need)
    && m.sl.sheets.all (fun x => x.released.isSome)
    && (match m.sl.sheets.getLast? with
      | none => true
      | some x => decide ((m.hi 32 K.LS_POS_PICK_NIP : Rat) ≤ m.sheetPos x - (x.length : Rat)))

/-- A pick begins, after a fuser switch where one is needed (R208, R213); a sheet left at a stage is a jam (R216). -/
def Mach.pickStart (m : Mach) : Mach :=
  match m.nextPick with
  | none => m
  | some it =>
    if !(m.pickDue it) then m
    else
      let t := m.fuserSet it.mediaClass
      if m.g K.LS_FUS_TARGET ≠ t then
        if m.sheetsPast (m.hi 32 K.LS_POS_FUSER) then ((m.setTargets t).raise 0x281C []).count K.LS_FUSER_SWITCHES else m
      else
        let settled := match m.sl.bandSince with | some t => decide (t + 1000 * m.g K.LS_FUS_SETTLE ≤ m.time) | none => false
        if !settled then m
        else match m.residual with
          | some i => m.jamStop 4 i it.id
          | none => m.pickBegin it 0

/-- The sheet whose pick move has ended with the registration sensor active is at the gate (R213). -/
def Mach.sheetAtGate (m : Mach) : Mach :=
  match m.sl.sheets.find? (fun x => x.gate.isNone && x.released.isNone && x.missedAt.isNone) with
  | none => m
  | some x => if x.plan.end10 ≤ m.now10 && m.si (m.h (K.LS_SI 2)) then m.modSheet x.item (fun y => { y with gate := some m.time }) else m

/-- The sheet at the gate. -/
def Mach.gateSheet (m : Mach) : Option SheetRt := m.sl.sheets.find? (fun x => x.gate.isSome && x.released.isNone)

/-- A page's sweeps (R170) with what is read at its gate release (R185). -/
def Mach.pageRun (m : Mach) (it : Item) : PageRun :=
  let base := (it.span.getD (0, 0)).1
  let b := max 1 m.beams
  { item := it.id, base, length := it.length, sweeps := ceilDiv (it.length + 2 * leadLines b) b
    notBefore := stampMicro * (m.time + m.h K.LS_IMG_DELAY)
    facetT := m.g K.LS_FACET_TABLE, beamO := m.g K.LS_BEAM_OFFSET, bowS := m.g K.LS_BOW_SPACING, bowT := m.g K.LS_BOW_TABLE }

/-- Release the sheet at the gate (R186, R194, R214, R219). A page already spoiled is carried blank. -/
def Mach.gateRelease (mem : Mem) (m : Mach) (x : SheetRt) (spoil : Option Nat) : Mach :=
  match m.item? x.item with
  | none => m.modSheet x.item (fun y => { y with released := some m.time })
  | some it =>
    let m := m.modSheet x.item (fun y => { y with released := some m.time })
    let m := (m.modSl (fun s => { s with lastRelease := some (m.time, m.releasePitch it) })).readPower
    let fresh := it.state == .admitted
    let m := m.modItem it.id (fun it => { it with gateAt := some m.time })
    let m :=
      if fresh then
        let m := m.modItem it.id (fun it => { it with state := .printing, tStart := m.time, mediaUsed := true })
        ((m.itemEvent 0x2302 it.id).inspBegin it).inspSettle mem
      else m
    let m := m.modSl (fun s => { s with pages := s.pages ++ [{ m.pageRun it with blank := if fresh then none else some 0 }] })
    let m := m.raiseIf (m.h K.LS_FACET_SYNC == 0 && m.g K.LS_FACET_TABLE != 0) 0x280C []
    if !fresh then m
    else
      let why := match spoil with
        | some r => some r
        | none => if m.lockSuspended || m.g K.DEV_SHUTDOWN != 0 || m.pathCut || m.scanState != scLocked then some 7 else if m.vmonLow then some 6 else none
      match why with
      | some r => m.pageSpoil it.id r .next
      | none => m

/-- GATE_RELEASE (R214): at once under a hold set by a cause, else when release_min is reached and SL reads READY. -/
def Mach.gateCheck (mem : Mem) (m : Mach) : Mach :=
  match m.gateSheet with
  | none => m
  | some x =>
    if 2 ≤ m.g K.LS_PATH_STATE then m
    else if m.sl.causeHold then m.gateRelease mem x (some 7)
    else if m.releaseMin ≤ m.time ∧ m.ready rdySL = vReady then m.gateRelease mem x none else m

/-- SL has not read READY for LS_GATE_WAIT (R214). -/
def Mach.gateExpired (mem : Mem) (m : Mach) : Mach :=
  match m.gateSheet with
  | none => m
  | some x =>
    let since := max (x.gate.getD m.time) m.releaseMin
    if m.g K.LS_PATH_STATE ≤ 1 ∧ m.ready rdySL ≠ vReady ∧ since + 1000 * m.g K.LS_GATE_WAIT ≤ m.time then
      (m.gateRelease mem x (some 7)).raise 0x281F [x.item]
    else m

/-- t_roll of a released sheet, µs (R215): from sweep 0 once it has begun; a page that has no sweep 0 while the scanner is not LOCKED
is carried from its release (DESIGN CHOICE, log entry 134). -/
def Mach.rollAt (m : Mach) (x : SheetRt) : Option Int :=
  let rel : Int := (x.released.getD m.time : Nat)
  let s0 : Option Nat := (m.page? x.item).bind PageRun.sos0
  match s0 with
  | some s => some (max rel ((stampTime s : Int) + m.gi 32 K.LS_REG_OFFSET))
  | none =>
    if m.scanState = scLocked ∧ (m.page? x.item).isSome then none else some (max rel (rel + m.gi 32 K.LS_REG_OFFSET))

/-- The windows that still count at a moment: not ended, nor taken over by a later one of their channel that has begun (R204). -/
def pruneWins (t : Int) : List HvWin → List HvWin
  | [] => []
  | w :: l =>
    if w.off ≤ t || l.any (fun u => decide (u.chan = w.chan ∧ u.on_ ≤ t)) then pruneWins t l else w :: pruneWins t l

/-- The high-voltage windows of a released sheet, once t_T is known (R204): a window that a later page's has taken over is over. -/
def Mach.hvPlan (m : Mach) : Mach :=
  let v : Rat := m.procV
  let acc : Rat := 10 * (m.h K.LS_PATH_ACCEL : Rat)
  let m := m.sl.sheets.foldl (fun m x =>
    if x.released.isNone || x.windowed then m
    else match m.rollAt x with
      | none => m
      | some t =>
        let rel : Int := (x.released.getD m.time : Nat)
        let tT : Rat := (t : Rat) + ((m.hi 32 K.LS_POS_TRANSFER : Rat) / v + v / (2 * acc)) * 1000000
        let dur : Rat := (x.length : Rat) / v * 1000000
        let wins : List HvWin := (List.range 4).map (fun c => {
          chan := c, record := x.hvSet
          on_ := max rel (roundRat (tT + (x.hvOn.getD c 0 : Rat))), off := roundRat (tT + dur + (x.hvOff.getD c 0 : Rat)) })
        (m.modSheet x.item (fun y => { y with windowed := true })).modSl (fun s => { s with wins := s.wins ++ wins })) m
  m.modSl (fun s => { s with wins := pruneWins m.time s.wins })

/-- The registration roller starts a released sheet at t_roll under LS_PATH_ACCEL (R215). -/
def Mach.rollerStart (m : Mach) : Mach :=
  match m.sl.sheets.find? (fun x => x.released.isSome && !x.rolled) with
  | none => m
  | some x =>
    match m.rollAt x with
    | none => m
    | some t =>
      if (m.time : Int) < t ∨ 2 ≤ m.g K.LS_PATH_STATE then m
      else
        let m := m.hvPlan
        let acc : Rat := 10 * (m.h K.LS_PATH_ACCEL : Rat)
        let v : Rat := m.procV
        let ps := joinPieces [rampPiece acc 0 0 0 0 v] [flatPiece 0 0 1000000 v]
        let m := m.modSheet x.item (fun y => { y with rolled := true, plan := { pieces := ps, start10 := m.now10, origin := 0 } })
        let a := m.h K.LS_REG_AXIS
        m.axRunUnder a (mmToPos a (m.h K.LS_PATH_ACCEL : Rat)) (pathSpeed a m.procV)

/-! ### Clearing and purging, R210, R218 -/

/-- Where the process goes when a fault or jam is cleared (R210, R218): WARMING, or the state its mode gives, with its axes stopped. It
is no process start: nothing is read again and nothing refuses it (R200). Faults of channels and heaters are over; auto mode warms only with
an SL item in flight (DEDUCED, log entry 135). -/
def Mach.procResume (m : Mach) : Mach :=
  let m := upto 4 (m.put K.LS_FUS_STATE 0) (fun m c => if m.g (K.HV_STATE c) = 4 then m.put (K.HV_STATE c) 0 else m)
  let mode := m.g K.LS_PROC_MODE
  if mode = 3 ∨ mode = 1 ∧ m.slFlight ≠ [] then m.procBegin else m.procHalt.procRest

/-- LS_PROC_CLEAR (R210). -/
def Mach.procClear (m : Mach) : WriteResult :=
  if m.procState ≠ prFault ∨ m.g K.LS_FUS_TRIPPED ≠ 0 ∨ m.g K.LS_PATH_STATE = 2 then refuseState m
  else (m.procResume, .ok)

/-- LS_JAM_CLEAR (R218); a process that a fuser trip holds stays in FAULT (R209). -/
def Mach.jamClear (m : Mach) : WriteResult :=
  let quiet := (List.range 7).all (fun i =>
    let n := m.h (K.LS_SI i)
    !(m.si n) && decide (m.motion.siAt.getD n 0 + 1000000 ≤ m.time))
  if m.g K.LS_PATH_STATE ≠ 2 ∨ !quiet then refuseState m
  else
    let m := (m.modSl (fun s => { s with sheets := [], wins := [], pages := s.pages.filter (fun p => p.blank.isNone) })).puts [(K.LS_PATH_STATE, 0), (K.LS_SHEETS, 0)]
    let m := if m.g K.LS_FUS_TRIPPED = 0 then m.procResume else m
    (m.raise 0x2819 [], .ok)

/-- LS_PURGE (R218). -/
def Mach.purge (m : Mach) : WriteResult :=
  if m.g K.LS_PATH_STATE ≠ 0 ∨ m.itemsOf 4 (fun it => it.state == .admitted || it.state == .printing) ≠ [] then refuseState m
  else
    let m := (m.puts [(K.LS_PATH_STATE, 3), (K.LS_PURGED, 0)]).modSl (fun s => { s with purgeAt := m.time })
    ([m.h K.LS_REG_AXIS, m.h K.LS_DRUM_AXIS, m.h K.LS_FUSER_AXIS, m.h K.LS_EXIT_AXIS].foldl (fun m a => m.axRun a (pathSpeed a m.procV)) m, .ok)

/-- The purge distance has been run (R218); a stage still active is a jam (R216). -/
def Mach.purgeDone (m : Mach) : Mach :=
  if m.g K.LS_PATH_STATE ≠ 3 ∨ m.time < m.sl.purgeAt + ceilDiv (m.g K.LS_PURGE_DIST * 1000000) m.procV then m
  else
    let m := m.put K.LS_PATH_STATE 0
    let axes := if m.procState = prReady ∨ m.procState = prWarming then [m.h K.LS_REG_AXIS]
      else [m.h K.LS_REG_AXIS, m.h K.LS_DRUM_AXIS, m.h K.LS_FUSER_AXIS, m.h K.LS_EXIT_AXIS]
    let m := (axes.foldl (fun m a => m.axRun a 0) m).raise 0x281A [m.g K.LS_PURGED]
    match m.residual with
    | some i => m.jamStop 4 i 0
    | none => m

/-! ### What an SL item does when it is defined or leaves, R172, R200, R203 -/

/-- The scanner starts; a process WARMING or READY at another speed faults (R199). -/
def Mach.scanBegin (m : Mach) : Mach :=
  let clash := (m.procState = prWarming || m.procState = prReady) && m.h K.LS_PROC_SPEED != m.g K.LS_PROC_SPEED
  let m := m.scanStartUp
  if clash then (m.raise 0x281B [1]).procFault else m

/-- A start on its own (auto mode): refused with event 0x2804 cause 3 (R172). -/
def Mach.scanAuto (m : Mach) : Mach :=
  if m.scanState ≠ scStopped then m
  else if m.scanRefused then m.raise 0x2804 [3]
  else m.scanBegin

/-- Whether an SL item is ADMITTED or PRINTING. -/
def Mach.slBusy (m : Mach) : Bool := m.itemsOf 4 (fun it => it.state == .admitted || it.state == .printing) != []

/-- An SL item is defined: auto modes start scanner and process. -/
def Mach.slDefined (m : Mach) : Mach :=
  let m := (m.modScan (fun x => { x with idleAt := none })).modSl (fun s => { s with idleAt := none })
  let m := if m.g K.LS_SCAN_MODE = 1 then m.scanAuto else m
  if m.g K.LS_PROC_MODE = 1 ∧ m.procState = prStandby then m.procStart else m

/-- The moments at which the last SL item left flight, for the idle times. -/
def Mach.slIdle (m : Mach) : Mach :=
  if m.itemsOf 4 (fun it => !it.final) ≠ [] then (m.modScan (fun x => { x with idleAt := none })).modSl (fun s => { s with idleAt := none })
  else (m.modScan (fun x => { x with idleAt := some (x.idleAt.getD m.time) })).modSl (fun s => { s with idleAt := some (s.idleAt.getD m.time) })

/-- Fuser, high voltage and diodes off at a thermal shutdown. -/
def Mach.slShutdown (m : Mach) : Mach := ((m.hvOff).setFuser 0).refreshSL

end Sys2Proof.Machine
end

