-- ==== Sys2Proof/Machine/Consequences.lean ====
section
/-! DEFINITION. Who owns an axis (R239) and what the stop of an owned axis does to its owner (R237, R238, R45, R164, R174,
R216). -/

namespace Sys2Proof.Machine

open Sys2Proof

/-- The axes a station names: feed, ribbon, lift, cutter, presenter (R124, R166). -/
def Mach.stationAxes (m : Mach) (st : Nat) : List Nat :=
  [m.h (K.TH_FEED_AXIS st), m.ribSupply st, m.ribTakeup st, m.h (K.TH_RIB_LIFT_AXIS st), m.h (K.TH_CUT_AXIS st),
   m.h (K.TH_PRES_AXIS st)].filter (· ≠ 0xFF)

/-- The owner of an axis: 0 none, 1-4 S0-S3, 5 the laser process, 6 the scanner (R239). -/
def Mach.axOwner (m : Mach) (n : Nat) : Nat :=
  match (List.range m.nStations).find? (fun st => m.configured st && (m.stationAxes st).contains n) with
  | some st => st + 1
  | none =>
    if m.hasSL && m.procStarted && m.procAxes.contains n then 5
    else if m.hasSL && m.scanState != scStopped && m.scanAxis == n then 6 else 0

/-- What the stop of an axis of a station does (R238, R164): its feed is cut with the same cause, a cutter or presenter
fault is reported, and the printing item is spoiled; a feed whose queue is lost before its item prints holds the station. -/
def Mach.stationAxisStop (m : Mach) (st n cause : Nat) : Mach :=
  let reason := if cause = 6 ∨ cause = 7 then 8 else 9
  let m := if m.h (K.TH_CUT_AXIS st) = n then m.raiseTh st 0x1C [2]
    else if m.h (K.TH_PRES_AXIS st) = n then m.raiseTh st 0x1C [3] else m
  let feed := m.feedAxis st == some n
  match m.printingItem st with
  | some it =>
    let m := match m.feedAxis st with
      | some a => if feed then m else m.axCut a cause
      | none => m
    (m.modSta st (fun x => { x with cut := .none, panel := none, learn := none, aligns := [] })).spoil it.id reason
  | none =>
    if feed then
      let m := m.modSta st (fun x => { x with learn := none, aligns := [] })
      match (m.itemsOf st (fun it => it.state == .admitted)).head? with
      | some it => m.setHold st it.id
      | none => m
    else m

/-- An axis is stopped (R237) and acts on its owner (R238). -/
def Mach.axStop (m : Mach) (n cause : Nat) : Mach :=
  if !(m.axEnabled n) then m
  else
    let o := m.axOwner n
    let m := m.axCut n cause
    if o = 0 then m
    else if o ≤ 4 then m.stationAxisStop (o - 1) n cause
    else if o = 5 then m.jamStop (if cause = 6 ∨ cause = 7 then 8 else 7) 0 0
    else m.scanAxisFault

/-- A drive fault (R267): the axis stops with cause 5; event 0x2B04 follows. -/
def Mach.drvFault (m : Mach) (n fault : Nat) : Mach :=
  if !(m.axEnabled n) then m
  else
    let m := (m.axStop n 5).put (K.AX_DRV_FAULT n) fault
    let m := if fault = 7 then m.modAxis n (fun a => { a with drive := { a.drive with bridge := .shorted, shortSince := m.time } })
      else m.modAxis n (fun a => { a with drive := { a.drive with bridge := .highZ } })
    m.raise 0x2B04 [n, fault]

end Sys2Proof.Machine
end

