-- ==== Sys2Proof/Machine/MotionOps.lean ====
section
/-! DEFINITION. The motion planner (R227-R246): what a tick takes into force, position and velocity plans, homing, following,
station feeds with their line boundaries, and start groups. -/

namespace Sys2Proof.Machine

open Sys2Proof

/-! ### Values in force, R226, R231, R232 -/

/-- A commanded limit, 0 or above the entry's maximum selecting the maximum. -/
def inForce (v top : Nat) : Nat := if v = 0 ∨ top < v then top else v
def AxisRt.sNow (a : AxisRt) : Nat := inForce a.s a.vMax
def AxisRt.aNow (a : AxisRt) : Nat := inForce a.a a.aMax
def AxisRt.dNow (a : AxisRt) : Nat := inForce a.d a.dMax
/-- J in force; 0 is unlimited. -/
def AxisRt.jNow (a : AxisRt) : Nat := if a.jMax = 0 then a.j else inForce a.j a.jMax
def AxisRt.softMin (a : AxisRt) : Int := a.fi 0x24 4
def AxisRt.softMax (a : AxisRt) : Int := a.fi 0x28 4
def AxisRt.followMax (a : AxisRt) : Nat := a.f 0x2C 4
def AxisRt.sdRatio_ (a : AxisRt) : Rat := (a.sdRatio : Rat) / 65536
def AxisRt.homeFast (a : AxisRt) : Nat := a.f 0x38 4
def AxisRt.homeSlow (a : AxisRt) : Nat := a.f 0x3C 4
def AxisRt.homeBackoff (a : AxisRt) : Nat := a.f 0x40 4
def AxisRt.homeOffset (a : AxisRt) : Int := a.fi 0x44 4
def AxisRt.homeMax (a : AxisRt) : Nat := a.f 0x48 4
def AxisRt.inPos (a : AxisRt) : Nat := a.f 0x4C 4
/-- The limits apply: configured and position known. -/
def Mach.softApply (m : Mach) (n : Nat) : Bool := (m.axis n).softLimits && !(m.gb (K.AX_POS_LOST n))

/-! ### Position and velocity plans, R232, R233 -/

/-- Plan the remaining move to a target from the present state. -/
def Mach.planMove (m : Mach) (n : Nat) (target : Int) : Mach :=
  let a := m.axis n
  if a.focHeld then m.modAxis n (fun a => { a with mode := .position target, replan := true })
  else
    let t : Int := if m.softApply n then clampI a.softMin a.softMax target else target
    let v := m.axVel n
    let turn := turnPiece v (a.accAt10 m.now10) a.jNow
    let v1 := match turn.getLast? with | some p => p.v1 | none => v
    let dist := wrapPos ((t : Rat) - m.axPos n) - piecesLen turn
    let (ps, over_) := movePieces a.aNow a.dNow a.jNow a.sNow v1 dist
    m.modAxis n (fun a => { a.planFrom m.now10 (joinPieces turn ps) with mode := .position target, replan := false, passing := over_ })

/-- Plan the way to a velocity; a soft limit ahead is a target (R231). -/
def Mach.planVelocity (m : Mach) (n : Nat) (w : Int) : Mach :=
  let a := m.axis n
  if a.focHeld then m.modAxis n (fun a => { a with mode := .velocity w, replan := true })
  else
    let w' : Int := clampI (-(a.vMax : Int)) (a.vMax : Int) w
    let v := m.axVel n
    let turn := turnPiece v (a.accAt10 m.now10) a.jNow
    let v1 := match turn.getLast? with | some p => p.v1 | none => v
    let lim : Option Int := if m.softApply n && decide (w' ≠ 0) then some (if 0 < w' then a.softMax else a.softMin) else none
    let ps := match lim with
      | some l => (movePieces a.aNow a.dNow a.jNow (if w' < 0 then -(w' : Rat) else (w' : Rat)) v1 (wrapPos ((l : Rat) - m.axPos n) - piecesLen turn)).1
      | none => let q := velocityPieces a.aNow a.dNow a.jNow v1 (w' : Rat); if q = [] then [flatPiece 0 0 0 (w' : Rat)] else q
    m.modAxis n (fun a => { a.planFrom m.now10 (joinPieces turn ps) with mode := .velocity w, replan := false, passing := false })

/-! ### Homing, R241, R242 -/

/-- The sign of HOME_DIR. -/
def AxisRt.homeSign (a : AxisRt) : Int := if a.homePositive then 1 else -1

/-- Move towards a velocity under the entry's limits in a homing step. -/
def Mach.homeRun (m : Mach) (n : Nat) (step : HomeStep) (v : Int) (latch : Rat) : Mach :=
  let a := m.axis n
  let q := velocityPieces a.aMax a.dMax a.jMax (m.axVel n) (v : Rat)
  let ps := if q = [] then [flatPiece 0 0 0 (v : Rat)] else q
  m.modAxis n (fun a => { a.planFrom m.now10 ps with mode := .home step (m.axPos n) latch })

/-- Decelerate at D_STOP to rest in a homing step. -/
def Mach.homeSlowDown (m : Mach) (n : Nat) (step : HomeStep) (latch : Rat) : Mach :=
  let a := m.axis n
  let v := m.axVel n
  let turn := turnPiece v (a.accAt10 m.now10) a.jMax
  let v1 := match turn.getLast? with | some p => p.v1 | none => v
  m.modAxis n (fun a => { a.planFrom m.now10 (joinPieces turn [rampPiece a.dStop a.jMax 0 0 v1 0]) with mode := .home step (m.axPos n) latch })

/-- Step 6: the frame is shifted so that the latch point reads HOME_OFFSET. -/
def Mach.homeDone (m : Mach) (n : Nat) (latch : Rat) : Mach :=
  let m := m.modAxis n (fun a =>
    let shift := (a.homeOffset : Rat) - latch
    let a := a.settleAt m.now10
    { a with mode := .rest, vel := 0, acc := 0, pos := wrapPos (a.pos + shift), encRef := a.encRef + shift })
  ((m.put (K.AX_POS_LOST n) 0).setAxState n axIdle).raise 0x2A02 [n]

/-- Step 3: move away until the input reads inactive; inactive already, the back-off follows at once. -/
def Mach.homeAway (m : Mach) (n : Nat) : Mach :=
  let a := m.axis n
  if m.si a.homeSi then m.homeRun n .back (-(a.homeSign) * (a.homeFast : Int)) 0
  else
    let (ps, _) := movePieces a.aMax a.dMax a.jMax a.homeFast (m.axVel n) (-((a.homeSign * (a.homeBackoff : Int) : Int) : Rat))
    m.modAxis n (fun a => { a.planFrom m.now10 ps with mode := .home .backOff (m.axPos n) 0 })

/-- Homing begins (step 1). -/
def Mach.homeStart (m : Mach) (n : Nat) : Mach :=
  let a := m.axis n
  let m := m.setAxState n axHoming
  if a.homeSi = 0xFF then
    if m.axVel n = 0 then m.homeDone n (m.axPos n) else m.homeSlowDown n .finish (m.axPos n)
  else if m.si a.homeSi then (if m.axVel n = 0 then m.homeAway n else m.homeSlowDown n .slowDown 0)
  else m.homeRun n .seek (a.homeSign * (a.homeFast : Int)) 0

/-- A homing fails by its travel: halted at D_STOP. -/
def Mach.homeGiveUp (m : Mach) (n cause : Nat) : Mach := (m.homeFail n cause).axRest n ((m.axis n).dStop)

/-- Encoder count at a moment in 10 ns, from the changes since. -/
def Mach.countAt (m : Mach) (qe t10 : Nat) : Int :=
  match (m.motion.qeHist.filter (fun (e : Nat × Nat × Int) => e.2.1 == qe && decide (t10 < e.1))).getLast? with
  | some e => e.2.2
  | none => m.gi 32 (K.QE_COUNT qe)

/-- The latch point of an edge stamped at a moment: the encoder's position where there is one, else the planned one. -/
def Mach.latchAt (m : Mach) (n t10 : Nat) : Rat :=
  let a := m.axis n
  if a.enc = 0xFF then wrapPos (a.posAt10 t10) else (m.countAt a.enc t10 : Rat) * (a.encRatio : Rat) / 65536 + a.encRef

/-- An accepted edge of HOME_SI during a homing. -/
def Mach.homeEdge (m : Mach) (n : Nat) (active : Bool) (stamp10 : Nat) : Mach :=
  match (m.axis n).mode with
  | .home .seek _ _ => if active then m.homeSlowDown n .slowDown 0 else m
  | .home .back _ _ => if active then m else m.homeAway n
  | .home .approach _ _ => if active then m.homeSlowDown n .finish (m.latchAt n stamp10) else m
  | _ => m

/-- Whether a plan has run by now. -/
def Mach.planOver (m : Mach) (n : Nat) : Bool := match (m.axis n).plan with | some p => decide (p.end10 ≤ m.now10) | none => true

/-- Travel of a homing step since it began. -/
def Mach.homeTravel (m : Mach) (n : Nat) (from_ : Rat) : Rat := let d := wrapPos (m.axPos n - from_); if d < 0 then -d else d

/-- A homing at a tick: steps at rest, and travel limits. -/
def Mach.homeTick (m : Mach) (n : Nat) : Mach :=
  let a := m.axis n
  match a.mode with
  | .home step from_ latch =>
    let d := m.homeTravel n from_
    match step with
    | .seek => if (a.homeMax : Rat) ≤ d then m.homeGiveUp n 1 else m
    | .slowDown => if m.planOver n then m.homeAway n else m
    | .back => if (a.homeMax : Rat) ≤ d then m.homeGiveUp n 5 else m
    | .backOff => if m.planOver n then m.homeRun n .approach (a.homeSign * (a.homeSlow : Int)) 0 else m
    | .approach => if ((2 * a.homeBackoff : Nat) : Rat) ≤ d then m.homeGiveUp n 3 else m
    | .finish => if m.planOver n then m.homeDone n latch else m
  | _ => m

/-! ### Step/direction following, R244 -/

/-- Enter FOLLOWING: the replay starts from the position now. -/
def Mach.followStart (m : Mach) (n : Nat) : Mach :=
  let m := m.modAxis n (fun a =>
    let a := a.settleAt m.now10
    { a with mode := .follow false, vel := 0, acc := 0, plan := some { pieces := [], start10 := m.now10, origin := a.pos }
             followQ := 0, lastStep := none, sdDelay := m.g (K.SD_DELAY a.sd), limitedSeen := false })
  m.setAxState n axFollowing

/-- A piece at constant speed between two positions over a time in 10 ns. -/
def linePiece (q0 q1 : Rat) (t0 dur10 : Nat) : Piece :=
  let d : Rat := (dur10 : Rat) / 100000000
  let v : Rat := if dur10 = 0 then 0 else (q1 - q0) / d
  { x0 := q0, len := q1 - q0, t0 := (t0 : Rat) / 100000000, tj := 0, ta := 0, dur := d, v0 := v, v1 := v }

/-- Least time in 10 ns to cover a distance at V_MAX. -/
def atVMax (d : Rat) (v : Nat) : Nat := if v = 0 then 0 else ((if d < 0 then -d else d) * 100000000 / (v : Rat)).ceil.toNat

/-- Steps of a follower at a moment (10 ns), one but for an open count: their segment joins the plan, at V_MAX where it would be faster, until the replay
is regained. -/
def Mach.followStep (m : Mach) (n : Nat) (steps : Int) (t10 : Nat) : Mach :=
  let a := m.axis n
  match a.plan with
  | none => m
  | some p =>
    let d10 := 100 * a.sdDelay
    let begin10 := match a.lastStep with | some t => max (t + d10) t10 | none => t10
    let s0 := begin10 - p.start10
    let s1 := t10 + d10 - p.start10
    let q0 := a.followQ
    let q1 := q0 + (steps : Rat) * a.sdRatio_
    let (te, qe) := match p.pieces.getLast? with
      | some x => ((roundRat ((x.t0 + x.dur) * 100000000)).toNat, x.x0 + x.len)
      | none => (0, q0)
    let start := max te s0
    let gap := if te < s0 then [linePiece qe qe te (s0 - te)] else []
    let need := atVMax (q1 - qe) a.vMax
    let slow := decide (s1 < start + need)
    let seg := linePiece qe q1 start (if slow then need else s1 - start)
    let rest := linePiece q1 q1 (start + (if slow then need else s1 - start)) 0
    let m := m.modAxis n (fun a => { a with
      plan := some { p with pieces := p.pieces ++ gap ++ [seg, { rest with v0 := 0, v1 := 0 }] }
      followQ := q1, lastStep := some t10, limitedSeen := a.limitedSeen || slow })
    if slow then (m.count (K.SD_LIMITED n)).raiseIf (!a.limitedSeen) 0x2A08 [n] else m

/-! ### Profiles of a station feed, R245, R246 -/

/-- The station a feed axis serves. -/
def Mach.feedStation (m : Mach) (n : Nat) : Option Nat :=
  (List.range m.nStations).find? (fun st => m.configured st && m.feedAxis st == some n)

/-- Put a profile into force at a moment. -/
def Mach.putProfile (m : Mach) (n : Nat) (p : Profile) (t10 : Nat) : Mach :=
  (m.modAxis n (fun a => { a.planFrom t10 p.pieces with mode := .profile p })).setAxState n axProfile

/-- The P_0 a pass latches when its profile begins (R108): the source's position in 1/65,536 of its unit. -/
def Mach.passOrigin (m : Mach) (st n : Nat) : Int :=
  if m.h (K.TH_TRIG_SRC st) = 0 then
    match (m.axis n).plan with
    | some p => (p.origin * 65536).floor
    | none => 0
  else (m.sourcePos st).floor

/-- A profile begins at a moment (R245, R152, R164): an alignment without pieces is placed now; an item's profile waits for a
cutter that is home. -/
def Mach.profileBegins (m : Mach) (st n : Nat) (p : Profile) (t10 : Nat) : Mach :=
  match p.kind with
  | .align id =>
    if p.pieces ≠ [] then m.putProfile n p t10
    else match m.item? id with
      | none => m
      | some it =>
        let (m, ps) := m.alignFrom it (m.linePos st) ((m.axis n).velAt10 t10)
        m.putProfile n (mkProfile p.kind ps) t10
  | .pass id q =>
    if q = 0 ∧ m.cutterOpen st then (m.setHold st id).raiseTh st 0x1C [4]
    else
      let m := m.putProfile n p t10
      let o := m.passOrigin st n
      if q = 0 then
        (m.modAxis n (fun a => { a with begun := some (id, (o : Rat)) })).modAlign st id (fun r => { r with begun := true, move := none, seek := none })
      else match m.item? id with
        | some it => m.passBegin it q o
        | none => m
  | _ => m.putProfile n p t10

/-- The lead-in ramp of a profile that starts moving while the axis is at rest. -/
def Mach.leadIn (m : Mach) (st : Nat) (id : Option Nat) (v : Rat) : Profile :=
  mkProfile (.ramp 1) [rampPiece (m.accelOf st id) (m.jerkOf st id) 0 0 0 v]

/-- The ramp to rest of a feed whose queue gives it nothing to go on with (R245). -/
def Mach.stopRamp (m : Mach) (st : Nat) (id : Option Nat) (v : Rat) : Profile :=
  mkProfile (.ramp 0) [rampPiece (m.stopOf st id) (m.jerkOf st id) 0 0 v 0]

/-- What the feed does from a moment on: the next profile where it may begin, a lead-in ramp before one that starts moving, a stop
ramp where the queue is empty, else rest. Within the tick that ends at to10. -/
def Mach.feedRun (m : Mach) (st n to10 : Nat) : Nat → Mach
  | 0 => m
  | k + 1 =>
    let a := m.axis n
    match a.mode with
    | .profile p =>
      let end10 := (match a.plan with | some pl => pl.start10 | none => m.now10) + p.dur10
      if to10 ≤ end10 then m
      else
        let m := m.modAxis n (fun a => { a with
          pos := match a.plan with | some pl => wrapPos (pl.origin + p.length) | none => a.pos
          vel := p.vEnd, acc := 0, plan := none, mode := .rest })
        let m := m.profileEnds st n p
        let a := m.axis n
        let next (m : Mach) (q : Profile) (rest : List Profile) : Mach :=
          Mach.feedRun ((m.modAxis n (fun a => { a with queue := rest })).profileBegins st n q end10) st n to10 k
        match a.queue with
        | q :: rest =>
          let m := if m.feedMayBegin st then m.panelFirst st q else m
          if m.feedMayBegin st && (q.vStart == p.vEnd || q.pieces == []) then
            let m' := next m q rest
            if (m'.axis n).mode == .rest && decide (p.vEnd ≠ 0) then m'.putProfile n (m.stopRamp st p.kind.item p.vEnd) end10
            else m'
          else if p.vEnd ≠ 0 then m.putProfile n (m.stopRamp st p.kind.item p.vEnd) end10
          else (m.modAxis n (fun a => { a with vel := 0 })).setAxState n axIdle
        | [] =>
          if p.vEnd ≠ 0 then m.putProfile n (m.stopRamp st p.kind.item p.vEnd) end10
          else (m.modAxis n (fun a => { a with vel := 0 })).setAxState n axIdle
    | .rest =>
      match a.queue with
      | [] => m
      | q :: rest =>
        if !(m.axEnabled n) || !(m.feedMayBegin st) then m
        else
        let m := m.panelFirst st q
        if !(m.feedMayBegin st) then m
        else if q.vStart ≠ 0 ∧ a.vel = 0 then (m.axWake n).putProfile n (m.leadIn st q.kind.item q.vStart) m.now10
        else Mach.feedRun (((m.axWake n).modAxis n (fun a => { a with queue := rest })).profileBegins st n q m.now10) st n to10 k
    | _ => m

/-- The line boundaries of a port that its feed's planned position crosses up to a moment become due (R246). -/
def Mach.crossLines (m : Mach) (h : Nat) (it : Item) (pl : Plan) (from10 to10 : Nat) : Nat → Mach
  | 0 => m
  | k + 1 =>
    let x := m.head h
    if it.length ≤ x.nextLine then m
    else
      let b : Rat := (m.boundary h it x.nextLine : Rat) / 65536 - pl.origin
      if b < posAt pl.pieces (((to10 - pl.start10 : Nat) : Rat) / 100000000) then
        let t := max from10 (pl.start10 + timeAt pl.pieces b)
        Mach.crossLines (m.modHead h (fun x => { x with
          due := x.due ++ [(x.pass * it.length + x.nextLine, t)], nextLine := x.nextLine + 1 })) h it pl from10 to10 k
      else m

/-- Boundaries crossed by the profile in force between two moments, for every port of a station that its planned position
triggers (R246); none from a ramp. -/
def Mach.scanLines (m : Mach) (st n from10 to10 : Nat) : Mach :=
  if m.h (K.TH_TRIG_SRC st) ≠ 0 then m
  else match (m.axis n).mode, (m.axis n).plan with
    | .profile p, some pl =>
      match p.kind with
      | .ramp _ => m
      | _ => (m.stationPorts st).foldl (fun m h =>
          match m.item? (m.g (K.HP_ITEM h)) with
          | some it => if (m.head h).armed then m.crossLines h it pl (max from10 pl.start10) to10 (it.length - (m.head h).nextLine) else m
          | none => m) m
    | _, _ => m

/-! ### Commands at their tick, R229, R231 -/

/-- A command takes effect at a tick. -/
def Mach.applyCmd (m : Mach) (n : Nat) (c : AxCmd) : Mach :=
  match c with
  | .speed v => m.modAxis n (fun a => { a with s := v, replan := true })
  | .accel v => m.modAxis n (fun a => { a with a := v, replan := true })
  | .decel v => m.modAxis n (fun a => { a with d := v, replan := true })
  | .jerk v => m.modAxis n (fun a => { a with j := v, replan := true })
  | .refresh _ _ => m
  | .halt =>
    let keep := (m.axis n).waiting
    (m.axHalt n ((m.axis n).dStop)).modAxis n (fun a => { a with waiting := keep })
  | .target x =>
    if !(m.axEnabled n) then m
    else if (m.axis n).kind = 4 then m.axActuate n (x != 0)
    else ((m.axWake n).modAxis n (fun a => { a with mode := .position x, replan := true })).setAxState n axMoving
  | .velocity v =>
    if !(m.axEnabled n) then m
    else ((m.axWake n).modAxis n (fun a => { a with mode := .velocity v, replan := true })).setAxState n axVelocity
  | .current ma => (m.axWake n).axAmps n ma
  | .follow on => if !(m.axEnabled n) then m
    else if on then (m.axWake n).followStart n
    else match (m.axis n).mode with
      | .follow _ => m.modAxis n (fun a => { a with mode := .follow true })
      | _ => m
  | .home => if !(m.axEnabled n) then m else (m.axWake n).homeStart n

/-- Plan again after commands and parameter changes. -/
def Mach.axReplan (m : Mach) (n : Nat) : Mach :=
  let a := m.axis n
  if !a.replan then m
  else match a.mode with
    | .position t => m.planMove n t
    | .velocity v => m.planVelocity n v
    | _ => m.modAxis n (fun a => { a with replan := false })

/-! ### Refreshing an entry, R227, R228 -/

/-- Ports an axis entry names, other than those unused. -/
def entryPorts (e : Nat) : List Nat :=
  let k := match fld e 0 1 with | 1 => 2 | 2 => 3 | 3 => 1 | 4 => 1 | _ => 0
  (List.range k).map (fun i => fld e (4 + i) 1)

/-- Offset of the first field of an entry that fails a check of R227. -/
def Mach.entryBad (m : Mach) (n e : Nat) : Option Nat :=
  let kind := fld e 0 1
  let np := (entryPorts e).length
  let others := ((List.range 40).filter (· ≠ n)).map (fun i => (m.axis i).work)
  let taken := others.flatMap entryPorts
  let kinds2 := (others.filter (fun w => fld w 0 1 == 2)).length
  let orNone (off top : Nat) : Bool := let v := fld e off 1; decide (v < top) || v == 0xFF
  let portOk (i : Nat) : Bool :=
    let p := fld e (4 + i) 1
    if i < np then decide (p < m.nPhasePorts) && !(taken.contains p) && !(((entryPorts e).take i).contains p) && (kind != 2 || decide (p < 24))
    else kind == 0 || p == 0xFF
  let checks : List (Nat × Bool) := [
    (0x00, decide (kind ≤ 4) && (kind != 2 || decide (kinds2 < 8))),
    (0x02, decide (fld e 2 1 ≤ 1)),
    (0x03, kind != 1 || decide (fld e 3 1 ≤ 7)),
    (0x04, portOk 0), (0x05, portOk 1), (0x06, portOk 2), (0x07, portOk 3),
    (0x08, if kind = 3 then decide (fld e 8 1 < 8) else orNone 8 8), (0x09, orNone 9 8),
    (0x0A, orNone 0x0A 24), (0x0B, orNone 0x0B 24), (0x0C, orNone 0x0C 24)]
    ++ (if 1 ≤ kind ∧ kind ≤ 3 then [0x10, 0x14, 0x18, 0x20].map (fun o => (o, fld e o 4 != 0)) else [])
  (checks.find? (fun c => !c.2)).map Prod.fst

/-- Whether a refresh may not be taken now: an enabled axis keeps its fixed fields, an owned axis waits for its owner. -/
def Mach.refreshLocked (m : Mach) (n e : Nat) : Bool :=
  let w := (m.axis n).work
  let fixed := [0x00, 0x02, 0x03, 0x04, 0x05, 0x06, 0x07, 0x08].any (fun o => fld e o 1 != fld w o 1) || bit (fld e 1 1) 0 != bit (fld w 1 1) 0
  let o := m.axOwner n
  let busy (st : Nat) : Bool := m.itemsOf st (fun it => it.state == .admitted || it.state == .printing) != []
  (m.axState n != axDisabled && fixed) || (1 ≤ o && o ≤ 4 && busy (o - 1)) || (o == 5 && busy 4) || (o == 6 && (busy 4 || m.scanState != scStopped))

/-- Answer an access that waited for its tick. -/
def Mach.answerTo (m : Mach) (d : ReplyTo) (st : Status) : Mach :=
  match d with
  | .local => m.reply st (leBytes 4 0)
  | .hywex slot tc op seq =>
    let o := Out.hywex (slot + 1) (((m.session slot).map Session.number).getD 0) op seq st (leBytes 4 0) false
    let m := { m with net := { m.net with
      sessions := m.net.sessions.modify slot (fun (s : Option Session) => s.map (fun (x : Session) => { x with last := x.last.set tc (some (seq, op, some o)) })) } }
    if (m.session slot).isNone then m else m.emit o
  | .sdo port => m.emit (.sdo port st.abort (leBytes 4 0))
  | .quiet => m

/-- Resume a port's offset loop where it is frozen; another goes on as it is (R25, R257). -/
def Mach.offsetResume (m : Mach) (p : Nat) : Mach :=
  if m.g (K.PP_OFS_STATUS p) = 3 then (m.modPort p (fun x => { x with pinned := 0 })).put (K.PP_OFS_STATUS p) 0 else m

/-- A refresh at its tick (R227, R228): bytes that changed since the write, and a reserved field not 0 (R6),
give a free snapshot. -/
def Mach.applyRefresh (mem : Mem) (m : Mach) (n seen : Nat) (d : ReplyTo) : Mach :=
  let now := mem.read (m.g K.AX_TABLE_BASE + 256 * n) 256
  let snap := if now = seen then now else Config.freeNat m.fresh % 2 ^ 2048
  let m := if now = seen then m else { m with fresh := m.fresh + 1 }
  let p := m.takenRecord (entryReserved (fld snap 0 1)) 256 snap
  let snap := p.1
  let m := p.2
  match m.entryBad n snap with
  | some o => (m.put K.AX_REFRESH_OFFSET o).answerTo d .range
  | none =>
    if m.refreshLocked n snap then m.answerTo d .state
    else
      let old := (m.axis n).work
      let ofs := fld old 0x90 2 != fld snap 0x90 2 || fld old 0x92 2 != fld snap 0x92 2
      let m := m.modAxis n (fun a => { a with work := snap, replan := true })
      let m := if ofs then (entryPorts snap).foldl (fun m p => m.offsetResume (m.phys p)) m else m
      (m.put (K.AX_EDIT_TAG n) (fld snap 0x50 4)).answerTo d .ok

/-- The commands of an axis whose tick this is, in the order they were acknowledged. -/
def Mach.takeCmds (mem : Mem) (m : Mach) (n : Nat) : Mach :=
  let due := (m.axis n).waiting.filter (fun w => decide (w.1 + 2 ≤ m.time))
  let m := m.modAxis n (fun a => { a with waiting := a.waiting.filter (fun w => decide (m.time < w.1 + 2)) })
  due.foldl (fun m w => match w.2 with
    | .refresh seen d => m.applyRefresh mem n seen d
    | c => m.applyCmd n c) m

/-! ### Start groups, R234, R235 -/

/-- Start a group: its armed members begin, stopped and disabled ones are dropped. -/
def Mach.groupStart (m : Mach) (g : Nat) : Mach :=
  let members := (List.range m.nAxes).filter (fun n => m.g (K.AX_GROUP n) == g && (m.axis n).armed.isSome)
  if members = [] then m
  else
    let go := members.filter m.axEnabled
    let drop := members.filter (fun n => !(m.axEnabled n))
    let mask (l : List Nat) : Nat := l.foldl (fun a n => a + 2 ^ n) 0
    let m' := go.foldl (fun m n => match (m.axis n).armed with
      | some c => (m.axDisarm n).applyCmd n c
      | none => m) m
    (drop.foldl (fun m n => m.axDisarm n) m').raise 0x2A05 [g, mask go, mask drop]

/-- Starts whose tick this is. -/
def Mach.takeStarts (m : Mach) : Mach :=
  let due := m.motion.starts.filter (fun s => decide (s.2 + 2 ≤ m.time))
  let m := { m with motion := { m.motion with starts := m.motion.starts.filter (fun s => decide (m.time < s.2 + 2)) } }
  due.foldl (fun m s => m.groupStart s.1) m

/-! ### The tick, R229, R230 -/

/-- Whether a position is passed within the tick, its start included (R232). -/
def Mach.passesTarget (m : Mach) (n : Nat) (t : Int) : Bool :=
  let a := m.axis n
  let e0 := wrapPos ((t : Rat) - a.posAt10 m.now10)
  let e1 := wrapPos ((t : Rat) - a.posAt10 (m.now10 + 2000))
  (decide (0 ≤ e0) && decide (e1 < 0)) || (decide (e0 ≤ 0) && decide (0 < e1))

/-- An axis's own modes at a tick. -/
def Mach.axTick (m : Mach) (n : Nat) : Mach :=
  let m := m.axReplan n
  let a := m.axis n
  match a.mode with
  | .position t =>
    if a.replan then m
    else if m.planOver n then
      let m := m.modAxis n (fun a => { a.settleAt m.now10 with
        pos := if m.softApply n then ((clampI a.softMin a.softMax t : Int) : Rat) else (t : Rat), vel := 0, acc := 0 })
      let off := m.axFollowErr n
      if a.followCheck && a.enc != 0xFF && decide ((a.inPos : Rat) < (if off < 0 then -off else off)) then m
      else (m.modAxis n (fun a => { a with mode := .rest })).setAxState n axIdle
    else if a.passing && m.passesTarget n t then
      ((m.modAxis n (fun a => { a with passing := false })).count (K.AX_OVERSHOOTS n)).raise 0x2A04 [n]
    else m
  | .halt => if m.planOver n then
      (m.modAxis n (fun a => { a.settleAt m.now10 with mode := .rest, vel := 0, acc := 0 })).setAxState n axIdle else m
  | .home _ _ _ => m.homeTick n
  | .follow true => if m.planOver n then
      (m.modAxis n (fun a => { a.settleAt m.now10 with mode := .rest, vel := 0, acc := 0 })).setAxState n axIdle else m
  | _ => m

/-- A following error above FOLLOW_MAX stops an axis at a tick while its ports are driven or hold; one that stands off or short is
judged at its first tick in motion (R237, R258). -/
def Mach.followTick (m : Mach) (n : Nat) : Mach :=
  let a := m.axis n
  let e := m.axFollowErr n
  if a.followCheck && a.enc != 0xFF && (m.bridge n == .driven || m.bridge n == .standstill) && m.axEnabled n && decide ((a.followMax : Rat) < (if e < 0 then -e else e)) then
    m.axStop n 3
  else m

/-- A sensorless axis at a tick: its alignment ends; below OBS_MIN_RPM on its way to rest its current goes to 0 and it takes its
standstill action (R264). -/
def Mach.focTick (m : Mach) (n : Nat) : Mach :=
  let a := m.axis n
  let v := m.axVel n
  let rpm := a.toRpm (if v < 0 then -v else v)
  if a.drive.foc = .align ∧ a.drive.focSince + 1000 * a.f 0xCA 2 ≤ m.time then
    m.modAxis n (fun a => { a with replan := true, drive := { a.drive with foc := .openLoop, agreeAt := none } })
  else if a.drive.foc = .closed ∧ a.focFb ≠ 2 ∧ rpm < (a.f 0xC6 2 : Rat) ∧ v * (a.accAt10 m.now10) ≤ 0 ∧ a.replan = false then
    m.modAxis n (fun a => { a with drive := { a.drive with foc := .off, level := .none, id := 0, iq := 0
                                                           bridge := if a.f 0x86 1 % 4 = 2 then .shorted else .highZ } })
  else m

/-- Rest is counted from the end of the last tick in which an axis moved or held a profile (R258). -/
def Mach.restTick (m : Mach) (n : Nat) : Mach :=
  let a := m.axis n
  let still := match a.mode with
    | .current _ => false
    | .follow _ => decide (a.velAt10 m.now10 = 0 ∧ a.velAt10 (m.now10 + 1999) = 0)
    | _ => decide (a.velAt10 m.now10 = 0 ∧ a.velAt10 (m.now10 + 1999) = 0)
  if still && a.queue == [] then m else m.modAxis n (fun a => { a with restSince := m.time + 20 })

/-- A station at a tick: TOFs that have passed, ribbon, panel, cut and learning feed (R150, R154, R157-R162). -/
def Mach.stationTick (m : Mach) (st : Nat) : Mach :=
  if !(m.configured st) then m
  else
    let m := ((((((m.passTofs st).alignsEnd st).ribbonState st).ribbonCurrents st).windowBegin st).panelTick st).cutTick st
    match (m.sta st).learn with
    | some (start, _) => if start + 16 * (m.g (K.TH_SEEK_MAX st) : Int) ≤ m.linePos st then m.learnEnd st false else m
    | none => m

/-- One planning tick (R229, R230, R246). -/
def Mach.tick (mem : Mem) (m : Mach) : Mach :=
  let to10 := m.now10 + 2000
  let from10 := max m.motion.horizon (m.now10 - 2000)
  let m := { m with motion := { m.motion with lastTick := some m.time, horizon := to10 } }
  let m := m.put K.AX_TICKS (m.g K.AX_TICKS + 1)
  let m := upto m.nAxes m (fun m n => m.takeCmds mem n)
  let m := m.takeStarts
  let m := upto m.nStations m (fun m st => if m.configured st then m.alignMoves st else m)
  let m := upto m.nAxes m (fun m n =>
    if !(m.axEnabled n) then m
    else
      let m := (m.focTick n).axTick n
      match m.feedStation n with
      | some st => (m.feedRun st n to10 16).scanLines st n from10 to10
      | none => m)
  let m := upto m.nAxes m (fun m n => if m.axEnabled n then (m.followTick n).restTick n else m)
  upto m.nStations m (fun m st => m.stationTick st)

end Sys2Proof.Machine
end

