-- ==== Sys2Proof/Machine/DriveOps.lean ====
section
/-! DEFINITION. The drive block (R249-R271): ports and spares, choppers and their offset loops, standstill, the current and speed
loops, sensorless starts, and the motor supply buses. -/

namespace Sys2Proof.Machine

open Sys2Proof

/-! ### Angles -/

/-- Sum of the first n terms of the sine series. -/
def sinSeries (x2 term : Rat) : Nat → Nat → Rat
  | 0, _ => 0
  | n + 1, k => term + sinSeries x2 (-(term * x2) / (((k + 1) * (k + 2) : Nat) : Rat)) n (k + 2)

/-- A rational kept to 2^-40. -/
def trim40 (q : Rat) : Rat := (roundRat (q * 1099511627776) : Rat) / 1099511627776

/-- Sine of an angle in revolutions, to about 2^-40 (the series to x^27 about 0). -/
def sinRev (t : Rat) : Rat :=
  let f := t - ((t + 1 / 2).floor : Rat)
  let x := trim40 (2 * piRat * f)
  trim40 (sinSeries (trim40 (x * x)) x 14 1)
def cosRev (t : Rat) : Rat := sinRev (t + 1 / 4)

/-- √3. -/
def sqrt3 : Rat := 173205080756887729353 / 100000000000000000000

/-- Square root of a rational, rounded down to 2^-32. -/
def sqrtRat (q : Rat) : Rat := ((Nat.sqrt (q * 18446744073709551616).floor.toNat : Nat) : Rat) / 4294967296

/-! ### Ports, R223, R224, R250, R251 -/

/-- The axis that names a port. -/
def Mach.portAxis (m : Mach) (p : Nat) : Option Nat := (List.range 40).find? (fun n => (entryPorts (m.axis n).work).contains p)

/-- The axis a port works for: the one whose entry names it, for a spare that of the port it serves (R224). -/
def Mach.workAxis (m : Mach) (p : Nat) : Option Nat :=
  m.portAxis (if 96 ≤ p && m.g (K.PP_SERVES p) != 0xFF then m.g (K.PP_SERVES p) else p)

/-- The lowest free spare takes over a failed port (R224). -/
def Mach.takeOver (m : Mach) (p : Nat) : Mach :=
  if !m.hasSpares then m
  else match (List.range 4).find? (fun s => fld (m.g K.AX_SPARE_MAP) s 1 == 0xFF && !((m.port (96 + s)).failed)) with
    | none => m
    | some s =>
      (m.puts [(K.AX_SPARE_MAP, setFld (m.g K.AX_SPARE_MAP) s 1 p), (K.PP_SERVES (96 + s), p)]).raise 0x2A06 [p, 96 + s]

/-- A port fails a test: 1 readback, 2 comparator self-test (R251, R224). A failed spare leaves the port it served without. The readback
of a port that has failed already says nothing new. -/
def Mach.portFail (m : Mach) (p test : Nat) : Mach :=
  if (m.port p).failed && (test == 1 || !(m.portDead p)) then m
  else
    let m := (m.modPort p (fun x => { x with failed := true })).raise 0x2B01 [p, test]
    let served := if 96 ≤ p then fld (m.g K.AX_SPARE_MAP) (p - 96) 1 else p
    if served = 0xFF then m
    else
      let m := if 96 ≤ p then m.puts [(K.AX_SPARE_MAP, setFld (m.g K.AX_SPARE_MAP) (p - 96) 1 0xFF), (K.PP_SERVES p, 0xFF)] else m
      let m := match m.portAxis served with | some n => m.axStop n 8 | none => m
      m.takeOver served

/-! ### The chopper, R256, R257 -/

/-- Whether the ports of an axis drive current: neither in high impedance nor shorted. -/
def Mach.drives (m : Mach) (n : Nat) : Bool := m.axEnabled n && (m.bridge n == .driven || m.bridge n == .standstill)

/-- The axis of a sound port whose windings are chopped: kinds 1, 3 and 4, driven. -/
def Mach.chopAxis (m : Mach) (p : Nat) : Option Nat :=
  if (m.port p).failed then none
  else match m.workAxis p with
    | some n => if (m.axis n).kind ≠ 2 && m.drives n then some n else none
    | none => none

/-- Hysteresis thresholds of a port, mA: i_hi and i_lo. -/
def Mach.thresholds (m : Mach) (n p : Nat) : Rat × Rat :=
  let x := m.port p
  let s := if x.lastSet < 0 then -x.lastSet else x.lastSet
  let h : Rat := (m.axis n).f 0x88 2
  let o : Rat := (m.gi 16 (K.PP_OFFSET p) : Rat) / 16
  let lo := s - h / 2 + o
  (s + h / 2 + o, if lo < 0 then 0 else lo)

/-- A new set-point of a port's winding. -/
def Mach.setWinding (m : Mach) (p : Nat) (i : Rat) : Mach :=
  m.modPort p (fun x => if x.lastSet = i then x else { x with lastSet := i, changed := true })

/-- One update of a port's offset from a cycle (R257). A cycle whose ripple the formula does not give takes a free value. -/
def Mach.offsetUpdate (m : Mach) (n p : Nat) (tOn tOff : Nat) : Mach :=
  let a := m.axis n
  let d : Rat := m.g (K.PP_CMP_DELAY p)
  let h : Rat := a.f 0x88 2
  let den : Rat := if tOn = 0 ∨ tOff = 0 then 0 else 1 - d / (tOn : Rat) - d / (tOff : Rat)
  let target : Rat := if den = 0 then (Config.freeInt m.fresh : Rat) else -(h / den * d / 2) * (1 / (tOn : Rat) - 1 / (tOff : Rat)) * 16
  let m := if den = 0 then { m with fresh := m.fresh + 1 } else m
  let old := m.gi 16 (K.PP_OFFSET p)
  let st := m.g (K.PP_OFS_STATUS p)
  let v := old + roundRat ((target - (old : Rat)) / (((2 ^ (min 8 (a.f 0x96 1)) : Nat)) : Rat))
  let (o, s, k) := loopUpdate (a.fi 0x90 2) (a.fi 0x92 2) (a.f 0x94 2) st (m.port p).pinned old v
  let m := (m.modPort p (fun x => { x with pinned := k })).puts [(K.PP_OFFSET p, ofInt 16 o), (K.PP_OFS_STATUS p, s)]
  let m := m.raiseIf ((s = 1 || s = 2) && s ≠ st) 0x2B02 [p]
  m.raiseIf (s = 3 && st ≠ 3) 0x2B03 [p]

/-- A decay phase ends at a moment in ns, and the next drive phase begins (R256, R257). -/
def Mach.decayEnd (m : Mach) (n p ns : Nat) : Mach :=
  let x := m.port p
  let dt := ns - x.since
  let m := (m.modPort p (fun x => { x with driving := true, since := ns, lowSeen := false })).put (K.PP_T_OFF p) (dt % 2 ^ 32)
  let m := if !x.changed && decide (0 < (m.thresholds n p).2) then m.offsetUpdate n p (m.g (K.PP_T_ON p)) dt else m
  m.modPort p (fun x => { x with changed := false })

/-- A decay phase whose current fell to i_lo early ends when CHOP_TOFF_MIN is over (R256). -/
def Mach.decayDue (m : Mach) (p ns : Nat) : Mach :=
  if !(m.port p).lowSeen then m
  else match m.chopAxis p with
    | none => m
    | some n =>
      let end_ := (m.port p).since + 10 * (m.axis n).f 0x8A 2
      if end_ ≤ ns then m.decayEnd n p end_ else m

/-- The decay phases whose shortest time is over by now. -/
def Mach.chopTick (m : Mach) : Mach := upto m.nPortsAll m (fun m p => m.decayDue p (1000 * m.time))

/-- A comparator crossing at a moment in ns: drive ends at i_hi, decay at i_lo and not before CHOP_TOFF_MIN (R256). -/
def Mach.chopEdge (m : Mach) (p : Nat) (high : Bool) (ns : Nat) : Mach :=
  let m := m.decayDue p ns
  match m.chopAxis p with
  | none => m
  | some n =>
    let x := m.port p
    let dt := ns - x.since
    if high then
      if !x.driving then m else (m.modPort p (fun x => { x with driving := false, since := ns })).put (K.PP_T_ON p) (dt % 2 ^ 32)
    else if x.driving then m
    else if dt < 10 * (m.axis n).f 0x8A 2 then m.modPort p (fun x => { x with lowSeen := true })
    else m.decayEnd n p ns

/-! ### Steppers, R254, R255 -/

/-- Amplitude of a stepper: its current command, else the amplitude in force. -/
def AxisRt.stepAmp (a : AxisRt) : Int :=
  match a.mode with
  | .current ma => min (if ma < 0 then -ma else ma) ((a.f 0x80 2 : Nat) : Int)
  | _ => a.ampSet

/-- Microstep address of a position. -/
def AxisRt.addrOf (a : AxisRt) (pos : Rat) : Int := (pos * (((2 ^ (7 - min 7 a.microsteps) : Nat)) : Rat)).floor % 512

/-- Update an axis's microstep address and, where its ports drive, its winding set-points (R254, R255). -/
def Mach.stepperUpdate (m : Mach) (n : Nat) : Mach :=
  let a := m.axis n
  if a.kind ≠ 1 ∨ !(m.axEnabled n) then m
  else
    let raw := match a.mode with
      | .current ma => (a.addrOf (m.axEnc n) + (if 0 < ma then 128 else if ma < 0 then -128 else 0)) % 512
      | _ => a.addrOf (m.axPos n)
    let ad := ((if a.dirInvert then (512 - raw) % 512 else raw) : Int).toNat
    let tab (i : Nat) : Rat := (sfld a.drive.table (2 * (i % 512)) 2 : Rat)
    let amp : Rat := a.stepAmp
    let m := m.put (K.AX_ADDR n) ad
    if !(m.drives n) then m
    else match a.ports with
      | pa :: pb :: _ => (m.setWinding (m.phys pa) (amp * tab (ad + 128) / 32767)).setWinding (m.phys pb) (amp * tab ad / 32767)
      | _ => m

/-! ### Standstill, R258 -/

/-- The standstill action after HOLD_TIME at rest. -/
def Mach.standstill (m : Mach) (n : Nat) : Mach :=
  let a := m.axis n
  let still := m.axVel n = 0 && a.queue == [] && (match a.mode with | .current _ => false | _ => true)
  if a.kind = 0 ∨ a.kind = 4 ∨ !(m.axEnabled n) ∨ !still ∨ a.focHeld ∨ m.time < a.restSince + 1000 * a.f 0x84 2 then m
  else
    let act := a.f 0x86 1 % 4
    let act := if a.sensorless && act == 0 then 1 else act
    m.modAxis n (fun a => { a with drive := match act with
      | 0 => { a.drive with bridge := .standstill, level := .hold }
      | 2 => { a.drive with bridge := .shorted, level := .none, foc := .off }
      | _ => { a.drive with bridge := .highZ, level := .none, foc := .off } })

/-! ### Speed and position loops, R259, R260 -/

/-- A REAL32 drive field. -/
def AxisRt.fr (a : AxisRt) (off : Nat) : Rat := (R32.ofBits (a.f off 4)).val

/-- The current reference of the loops, mA, and the integral afterwards: v measured and planned in pos/s, over a time in s, err the
position error. The limit is the amplitude in force: I_RUN in motion and I_HOLD at standstill (R258). -/
def Mach.currentRef (m : Mach) (n : Nat) (v plan err dt : Rat) : Rat × Rat :=
  let a := m.axis n
  let top : Rat := let t : Rat := a.ampSet; if t < 0 then -t else t
  let vref := plan + a.fr 0xC0 * err
  let int' := a.drive.speedInt + (vref - v) * dt
  let raw := match a.mode with
    | .current ma => (ma : Rat)
    | _ => a.fr 0xB8 * (vref - v) + a.fr 0xBC * int'
  let lim : Rat := if raw * v < 0 then (let r : Rat := (a.f 0xCE 2 : Nat); if r < top then r else top) else top
  let out := if raw < -lim then -lim else if lim < raw then lim else raw
  (out, if out = raw then int' else a.drive.speedInt)

/-- A brushed DC axis's loops (R259), 10 µs apart. v is the encoder's speed. -/
def Mach.dcUpdate (m : Mach) (n : Nat) (v : Int) : Mach :=
  let a := m.axis n
  if a.kind ≠ 3 ∨ !(m.drives n) then m
  else
    let (i, s) := m.currentRef n (v : Rat) (m.axVel n) (m.axFollowErr n) (1 / 100000)
    let m := m.modAxis n (fun a => { a with drive := { a.drive with iq := i, speedInt := s } })
    match a.ports with
    | p :: _ => m.setWinding (m.phys p) (if a.dirInvert then -i else i)
    | _ => m

/-! ### Field-oriented control, R260-R264 -/

/-- Volts of an axis's bus from BUS_VOLTAGE: the accumulator of BUS_AIN through the divider, 10 mV (R268, R306). -/
def Mach.busVoltage (m : Mach) (b : Nat) : Nat :=
  match m.ainResult (m.g (K.BUS_AIN b)) with
  | none => 0
  | some (code, _, _) =>
    let g := 2 ^ bits (m.g (K.AN_CH_CFG (m.g (K.BUS_AIN b)))) 2 1
    min 65535 (roundRat ((code : Rat) * 180 * (m.gf (K.BUS_DIV b)).val / ((4096 * g : Nat) : Rat))).toNat

/-- PWM period in s. -/
def AxisRt.pwmT (a : AxisRt) : Rat := let f := fld a.drive.enabled 0xA0 2; if f = 0 then 0 else 1 / ((1000 * f : Nat) : Rat)
/-- Low-side on-time of a phase at a duty, s (R261). -/
def AxisRt.lowTime (a : AxisRt) (duty : Rat) : Rat := (1 - duty) * a.pwmT - 2 * (fld a.drive.enabled 0xA2 2 : Rat) / 100000000

/-- Phase duties of a vector (volts) at an electrical angle under centre-aligned space-vector modulation. -/
def svDuty (vd vq ang vbus : Rat) : List Rat :=
  let al := vd * cosRev ang - vq * sinRev ang
  let be := vd * sinRev ang + vq * cosRev ang
  let a := al
  let b := -(al / 2) + sqrt3 / 2 * be
  let c := -(al / 2) - sqrt3 / 2 * be
  let hi := if a < b then (if b < c then c else b) else (if a < c then c else a)
  let lo := if a < b then (if a < c then a else c) else (if b < c then b else c)
  let z := -((hi + lo) / 2)
  if vbus = 0 then [0, 0, 0] else [a, b, c].map (fun x => 1 / 2 + (x + z) / vbus)

/-- Currents in d and q, mA, of two phase currents at an angle. -/
def dqOf (iu iv ang : Rat) : Rat × Rat :=
  let al := iu
  let be := (iu + 2 * iv) / sqrt3
  (al * cosRev ang + be * sinRev ang, be * cosRev ang - al * sinRev ang)

/-- The phase advance at a speed in rpm, electrical revolutions (R263). -/
def AxisRt.advance (a : AxisRt) (rpm : Rat) : Rat :=
  let st := a.f 0xD8 2
  let adv (k : Nat) : Rat := (a.fi (0xE0 + min 31 k) 1 : Rat) / 256
  if st = 0 then adv 0
  else
    let q := (if rpm < 0 then -rpm else rpm) / (st : Rat)
    let k := q.floor.toNat
    if 31 ≤ k then adv 31 else adv k + (adv (k + 1) - adv k) * (q - (k : Rat))

/-- Currents of a period that is predicted (R262), mA. -/
def AxisRt.predict (a : AxisRt) : Rat × Rat :=
  let d := a.drive
  let t := a.pwmT
  let ld := a.fr 0xAC / 1000000
  let lq := a.fr 0xB0 / 1000000
  let r := a.fr 0xA8
  let psi := a.fr 0xB4 / 1000
  let i := d.id / 1000
  let q := d.iq / 1000
  (1000 * (i + t / ld * (d.vd - r * i + d.omega * lq * q)), 1000 * (q + t / lq * (d.vq - r * q - d.omega * ld * i - d.omega * psi)))

/-- Whether the parameters of a field-oriented axis give no defined control (R253, R252): an inductance or resistance at or below 0, PSI
at or below 0 on a sensorless axis, or PWM_FREQ, DEADTIME or POLE_PAIRS outside its range. -/
def AxisRt.focUndefined (a : AxisRt) : Bool :=
  let f := fld a.drive.enabled 0xA0 2
  let d := fld a.drive.enabled 0xA2 2
  let p := fld a.drive.enabled 0xA4 1
  decide (a.fr 0xAC ≤ 0 ∨ a.fr 0xB0 ≤ 0 ∨ a.fr 0xA8 ≤ 0) || (a.sensorless && decide (a.fr 0xB4 ≤ 0))
    || decide (f < 20 ∨ 80 < f ∨ d < 10 ∨ 200 < d ∨ p < 1 ∨ 32 < p)

/-- The sense of an axis's motor: rising pos drives it in its negative sense with DIR_INVERT (R226). -/
def AxisRt.sense (a : AxisRt) : Rat := if a.dirInvert then -1 else 1

/-- The speed a scanner axis takes as its feedback, rpm (R266): by the facet interval just measured once SOS has come, while SOS is
supervised (R190). -/
def Mach.sosRpm (m : Mach) (n : Nat) : Option Rat :=
  if (m.axis n).focFb = 2 ∧ m.scanAxis = n ∧ m.scanRt.acquired = true ∧ m.vmonLow = false ∧ m.lockSuspended = false then
    m.scanRt.measured.bind (fun t => if t = 0 then none else some ((60 * 1000000 * stampMicro : Nat) / ((m.facets * t : Nat) : Rat)))
  else none

/-- One PWM period of a field-oriented axis (R260-R264): the sampled phase currents (mA), the electrical angle of the rotor its source
gives (1/65,536 revolution) and the rotor's speed (rpm), both in the motor's sense, the plan evaluated at the middle of the period that
begins now. Undefined parameters leave its results free. -/
def Mach.currentLoops (m : Mach) (n : Nat) (cur : List Int) (angle : Nat) (rpm : Int) : Mach × Rat × Rat :=
  let a := m.axis n
  let d := a.drive
  let pp : Nat := max 1 (fld d.enabled 0xA4 1)
  let sg := a.sense
  let mid := m.now10 + (roundRat (a.pwmT * 50000000)).toNat
  let planPos := wrapPos (a.posAt10 mid)
  let planVel := a.velAt10 mid
  let src : Rat := (angle : Rat) / 65536
  let open_ : Rat := sg * planPos / 4096
  let ang := match d.foc with | .align => (0 : Rat) | .openLoop => open_ | _ => src
  let undef := a.focUndefined
  let free (k : Nat) : Rat := (Config.freeInt (m.fresh + k) : Rat)
  let skipped := (List.range 3).filter (fun x => decide (a.lowTime (d.duty.getD x 0) < 1 / 1000000))
  let m := skipped.foldl (fun m x => m.count (K.PP_SKIPPED (m.phys (a.ports.getD x 0)))) m
  let i (x : Nat) : Rat := (cur.getD x 0 : Rat)
  let (iu, iv) := match skipped with
    | [0] => (-(i 1) - i 2, i 1)
    | [1] => (i 0, -(i 0) - i 2)
    | _ => (i 0, i 1)
  let predicted := decide (2 ≤ skipped.length)
  let (id, iq) : Rat × Rat := if undef then (free 0, free 1) else if predicted then a.predict else dqOf iu iv ang
  let m := if predicted then m.count (K.PP_PREDICTED (m.phys (a.ports.getD 0 0))) else m
  let run := if predicted then d.predicted + 1 else 0
  -- the references
  let speed : Rat := (m.sosRpm n).getD (sg * (rpm : Rat))
  let v : Rat := speed * (a.posPerRev : Rat) / 60
  let err : Rat := if a.enc = 0xFF then 4096 * sg * (open_ - src - ((open_ - src + 1 / 2).floor : Rat)) else wrapPos (planPos - m.axEnc n)
  let (ref, int') := m.currentRef n v planVel err a.pwmT
  let start := d.foc == .align || d.foc == .openLoop
  let ref : Rat := if start then (a.f 0xC8 2 : Nat) else ref
  let al := if start then 0 else a.advance speed
  let mag := if ref < 0 then -ref else ref
  let (rd, rq) : Rat × Rat := if start then (ref, 0) else (-mag * sinRev al, sg * ref * cosRev al)
  -- current loops
  let w := 2 * piRat * (a.f 0xA6 2 : Rat)
  let ld := a.fr 0xAC / 1000000
  let lq := a.fr 0xB0 / 1000000
  let om : Rat := 2 * piRat * (pp : Rat) * (rpm : Rat) / 60
  let ed := (rd - id) / 1000
  let eq := (rq - iq) / 1000
  let accD := d.accD + w * a.fr 0xA8 * ed * a.pwmT
  let accQ := d.accQ + w * a.fr 0xA8 * eq * a.pwmT
  let vd := w * ld * ed + accD - om * lq * iq / 1000
  let vq := w * lq * eq + accQ + om * (ld * id + a.fr 0xB4) / 1000
  let vbus : Rat := (m.busVoltage a.bus : Rat) / 100
  let m2 := vd * vd + vq * vq
  let k := if m2 * 3 ≤ vbus * vbus ∨ m2 = 0 then 1 else sqrtRat (vbus * vbus / (3 * m2))
  let lowPhases (k : Rat) : Nat := ((svDuty (k * vd) (k * vq) ang vbus).filter (fun y => decide (1 / 1000000 ≤ a.lowTime y))).length
  -- after two predicted periods the vector shrinks until two phases can be sampled, by 64ths
  let limited := decide (2 ≤ run) && decide (lowPhases k < 2)
  let k' := if limited then (match (List.range 64).find? (fun j => decide (2 ≤ lowPhases (k * ((63 - j : Nat) : Rat) / 64))) with
    | some j => k * ((63 - j : Nat) : Rat) / 64 | none => 0) else k
  let duty := if undef then [free 2, free 3, free 4] else svDuty (k' * vd) (k' * vq) ang vbus
  let quiet := match d.limitAt with | some t => decide (t + 1000000 ≤ m.time) | none => true
  let rpmPlan := a.toRpm (m.axVel n)
  let near := let e := src - open_ - ((src - open_ + 1 / 2).floor : Rat); decide (-(1 / 16 : Rat) ≤ e ∧ e ≤ 1 / 16)
  let agree := d.foc == .openLoop && near && decide ((a.f 0xC6 2 : Rat) ≤ (if rpmPlan < 0 then -rpmPlan else rpmPlan))
  let since := if agree then some (d.agreeAt.getD m.time) else none
  let handed := match since with | some t => decide (t + 5000 ≤ m.time) | none => false
  let m := m.modAxis n (fun a => { a with drive := { a.drive with
    id, iq, vd := k' * vd, vq := k' * vq, accD := if k' = 1 then accD else d.accD, accQ := if k' = 1 then accQ else d.accQ
    omega := om, speedInt := int', predicted := run, duty, agreeAt := since
    limitAt := if limited then some m.time else d.limitAt
    foc := if handed then .closed else if a.sensorless then d.foc else .closed } })
  let m := if undef then { m with fresh := m.fresh + 5 } else m
  let m := m.raiseIf (limited && quiet) 0x2B06 [n]
  (m, id, iq)

/-- PWM_PERIOD (R260-R264): the current loops of a driven axis of kind 2 that is not being probed (R265), and what the axis reports of
them, its speed in the axis's own sense. -/
def Mach.pwmPeriod (m : Mach) (n : Nat) (cur : List Int) (angle : Nat) (rpm : Int) : Mach :=
  let a := m.axis n
  if a.kind ≠ 2 ∨ !(m.drives n) ∨ a.drive.foc = .probe then m
  else
    let (m, id, iq) := m.currentLoops n cur angle rpm
    ((m.putFit16 (K.AX_I_D n) (roundRat id)).putFit16 (K.AX_I_Q n) (roundRat iq)).puti 32 (K.AX_RPM n)
      (roundRat ((m.sosRpm n).getD (a.sense * (rpm : Rat))))

/-! ### Flying start, R265 -/

/-- The sign of the motion an axis is about to plan. -/
def Mach.commandSign (m : Mach) (n : Nat) : Int :=
  match (m.axis n).mode with
  | .velocity v => if v < 0 then -1 else 1
  | .position t => if wrapPos ((t : Rat) - m.axPos n) < 0 then -1 else 1
  | _ => 1

/-- What a probe found (R265): n in rpm, positive in the axis's positive sense. -/
def Mach.flyProbe (m : Mach) (ax : Nat) (n : Int) : Mach :=
  let a := m.axis ax
  let rated : Rat := a.f 0xC4 2
  let mag : Rat := if n < 0 then -(n : Rat) else n
  let slow := decide (mag < rated / 50)
  let rev := decide (n * m.commandSign ax < 0)
  let set (f : DriveRt → DriveRt) (m : Mach) : Mach := m.modAxis ax (fun a => { a with drive := f a.drive })
  let align := set (fun d => { d with foc := .align, focSince := m.time, flyDue := false })
  if a.drive.foc = .brake then (if slow then align m else m)
  else if a.drive.foc ≠ .probe ∨ m.time < a.drive.focSince + 1000 * a.f 0xD2 2 then m
  else
    let res := if slow then 1 else if rev && decide (rated / 10 < mag) then 4 else if (a.f 0xC6 2 : Rat) ≤ mag then 2 else 3
    let m := match res with
      | 2 => (set (fun d => { d with foc := .closed, flyDue := false }) m).modAxis ax (fun a => { a.settleAt m.now10 with
          vel := (n : Rat) * (a.posPerRev : Rat) / 60, acc := 0, replan := true })
      | 4 => set (fun d => { d with foc := .brake, focSince := m.time, flyDue := false, bridge := .driven }) m
      | _ => align m
    (m.put (K.AX_FLY_RESULT ax) res).raise 0x2B05 [ax, res, ofInt 32 n]

/-! ### Motor supply buses, R268-R271 -/

def Mach.busRt (m : Mach) (b : Nat) : BusRt := m.motion.buses.getD b {}
def Mach.modBus (m : Mach) (b : Nat) (f : BusRt → BusRt) : Mach := { m with motion := { m.motion with buses := m.motion.buses.modify b f } }

/-- BUS_STATE: the highest state that holds (R268). -/
def Mach.showBus (m : Mach) (b : Nat) : Mach :=
  let x := m.busRt b
  m.put (K.BUS_STATE b) (if x.cut then 4 else if x.failed then 3 else if x.braking then 2 else if x.warning then 1 else 0)

/-- Axes of a bus that are enabled. -/
def Mach.busAxes (m : Mach) (b : Nat) : List Nat := (List.range m.nAxes).filter (fun n => m.axEnabled n && (m.axis n).bus == b)

/-- Which way an axis's encoder counted last, within the last 20 ms (DESIGN CHOICE, log entry 142: the sign of its velocity). -/
def Mach.encTrend (m : Mach) (n : Nat) : Rat :=
  let a := m.axis n
  match m.motion.qeHist.find? (fun (e : Nat × Nat × Int) => e.2.1 == a.enc && decide (m.now10 < e.1 + 2000000)) with
  | some e => ((m.gi 32 (K.QE_COUNT a.enc) - e.2.2 : Int) : Rat) * (a.encRatio : Rat)
  | none => 0

/-- Whether an axis regenerates (R270). -/
def Mach.regenerates (m : Mach) (n : Nat) : Bool :=
  let a := m.axis n
  match a.kind with
  | 2 => decide (a.drive.vd * a.drive.id + a.drive.vq * a.drive.iq < 0)
  | 4 => false
  | 0 => false
  | _ => match a.mode with
    | .current ma => decide ((ma : Rat) * m.encTrend n < 0)
    | _ => decide (m.axVel n * (a.accAt10 m.now10) < 0)

/-- Short the regenerating axes of a bus whose chopper has failed, while the bus is at or above BUS_BRK_ON (R270). -/
def Mach.shortRegen (m : Mach) (b : Nat) : Mach :=
  if (m.busRt b).failed && decide (100 * m.g (K.BUS_BRK_ON b) ≤ (m.busRt b).level) then ((m.busAxes b).filter m.regenerates).foldl (fun m n => m.drvFault n 7) m else m

/-- The brake chopper of a bus has failed by a check (R270). -/
def Mach.chopperFail (m : Mach) (b check : Nat) : Mach :=
  if (m.busRt b).failed then m
  else
    let l := (m.busAxes b).filter m.regenerates
    let m := ((m.modBus b (fun x => { x with failed := true })).showBus b).raise 0x2B12 [b, check, l.length]
    l.foldl (fun m n => m.drvFault n 7) m

/-- The over-voltage cut of a bus (R271, R20). -/
def Mach.busCut (m : Mach) (b : Nat) : Mach :=
  if (m.busRt b).cut then m
  else
    let l := m.busAxes b
    let m := ((m.modBus b (fun x => { x with cut := true })).showBus b).count (K.BUS_CUTS b)
    let m := m.raise 0x2B13 [b]
    let m := l.foldl (fun m n => m.axStop n 6) m
    upto m.nAxes m (fun m n => if (m.axis n).bus = b ∧ (m.axis n).kind ≠ 0 then
      m.modAxis n (fun a => { a with drive := { a.drive with bridge := .highZ } }) else m)

/-- The comparators see a bus at a voltage in mV: warning, brake chopper and cut follow (R268, R269, R271). -/
def Mach.busLevel (m : Mach) (b mv : Nat) : Mach :=
  let x := m.busRt b
  let warn := if 100 * m.g (K.BUS_WARN b) ≤ mv then true else if mv + 500 < 100 * m.g (K.BUS_WARN b) then false else x.warning
  let brk := if 100 * m.g (K.BUS_BRK_ON b) ≤ mv then true else if mv < 100 * m.g (K.BUS_BRK_OFF b) then false else x.braking
  let used := match x.onSince with | some t => if brk then x.brakeMicros else x.brakeMicros + (m.time - t) | none => x.brakeMicros
  let m := m.modBus b (fun x => { x with
    level := mv, warning := warn, braking := brk, brakeMicros := used
    onSince := if brk then some (x.onSince.getD m.time) else none
    onVoltage := if brk && !x.braking then m.busVoltage b else x.onVoltage
    checked := if brk && !x.braking then false else x.checked })
  let m := m.showBus b
  let m := m.raiseIf (warn && !x.warning) 0x2B10 [b, m.busVoltage b]
  let m := m.raiseIf (!warn && x.warning) 0x2B11 [b]
  let m := m.shortRegen b
  if 100 * m.g (K.BUS_OV_CUT b) ≤ mv then m.busCut b else m

/-- BUS_BRAKE_TIME (R269): the time the chopper has been on, ms. -/
def Mach.viewBrakeTime (m : Mach) (b : Nat) : Nat :=
  let x := m.busRt b
  ((x.brakeMicros + (match x.onSince with | some t => m.time - t | none => 0)) / 1000) % 2 ^ 32

/-- Below BUS_BRK_OFF by the comparators. -/
def Mach.busLow (m : Mach) (b : Nat) : Bool := decide ((m.busRt b).level < 100 * m.g (K.BUS_BRK_OFF b))

/-- BUS_VOLTAGE and BUS_PEAK at a new result of a channel. -/
def Mach.busDeliver (m : Mach) (ain : Nat) : Mach :=
  upto 2 m (fun m b => if m.g (K.BUS_AIN b) = ain then
    let v := m.busVoltage b
    m.puts [(K.BUS_VOLTAGE b, v), (K.BUS_PEAK b, max v (m.g (K.BUS_PEAK b)))] else m)

end Sys2Proof.Machine
end

