-- ==== Sys2Proof/Machine/Drives.lean ====
section
/-! DEFINITION. The commands of the drive block (R251-R271). -/

namespace Sys2Proof.Machine

open Sys2Proof

/-- STEPPER_ADDRESS_UPDATE (R254, R255): every microsecond, every stepper. -/
def execStepperAddressUpdate (s : State) : Host.Outcome State Fault Refusal :=
  done s fun _ m => upto m.nAxes m (fun m n => m.stepperUpdate n)

/-- CHOPPER_COMPARATOR (R256, R257): the comparator of a port reports a threshold, at a phase in steps of 2 ns. -/
def execChopperComparator (pp : Nat) (high : Bool) (phase : Nat) (s : State) : Host.Outcome State Fault Refusal :=
  done s fun _ m => m.chopEdge pp high (1000 * m.time + 2 * phase)

/-- MAX_ON_EXPIRED (R256, R267). -/
def execMaxOnExpired (pp : Nat) (s : State) : Host.Outcome State Fault Refusal :=
  done s fun _ m =>
    match m.chopAxis pp with
    | some n => if (m.port pp).driving ∧ (m.port pp).since + 1000 * (m.axis n).f 0x8E 2 ≤ 1000 * m.time then m.drvFault n 3 else m
    | none => m

/-- CMP_DELAY_MEASURE (R257): the measured delay of a port in ns, in a decay phase. -/
def execCmpDelayMeasure (pp d : Nat) (s : State) : Host.Outcome State Fault Refusal :=
  done s fun _ m => match m.chopAxis pp with
    | some _ => if (m.port pp).driving then m else m.put (K.PP_CMP_DELAY pp) d
    | none => m

/-- PP_OFS_UNFREEZE (R257). -/
def execPpOfsUnfreeze (pp v : Nat) (s : State) : Host.Outcome State Fault Refusal :=
  done s fun _ m => m.hostWrite (K.PP_OFS_UNFREEZE pp) (leBytes 1 v) (onOne (fun m => m.offsetResume pp))

/-- PHASE_PORT_FAILED (R251, R224): the readback of a port differs from its command. -/
def execPhasePortFailed (pp : Nat) (s : State) : Host.Outcome State Fault Refusal :=
  done s fun _ m => if pp < m.nPortsAll then m.portFail pp 1 else m

/-- STANDSTILL (R258). -/
def execStandstill (ax : Nat) (s : State) : Host.Outcome State Fault Refusal := done s fun _ m => m.standstill ax

/-- DC_LOOP_UPDATE (R259): with the encoder's speed in pos/s. -/
def execDcLoopUpdate (ax : Nat) (speed : Int) (s : State) : Host.Outcome State Fault Refusal := done s fun _ m => m.dcUpdate ax speed

/-- ACTUATOR_PULL_IN_END (R259). -/
def execActuatorPullInEnd (ax : Nat) (s : State) : Host.Outcome State Fault Refusal :=
  done s fun _ m =>
    let a := m.axis ax
    if a.kind = 4 ∧ a.drive.energised ∧ m.axEnabled ax ∧ a.drive.pullSince + 1000 * a.f 0x84 2 ≤ m.time then
      m.modAxis ax (fun a => { a with drive := { a.drive with level := .hold } })
    else m

/-- PWM_PERIOD (R260-R264), at the start of a period: the sampled phase currents in mA, the rotor's electrical angle in 1/65,536
revolution and its speed in rpm, both as the axis's source gives them in the motor's own sense. -/
def execPwmPeriod (ax : Nat) (currents : List Int) (angle : Nat) (rpm : Int) (s : State) : Host.Outcome State Fault Refusal :=
  done s fun _ m => m.pwmPeriod ax currents angle rpm

/-- HANDOVER_TIMEOUT (R264). -/
def execHandoverTimeout (ax : Nat) (s : State) : Host.Outcome State Fault Refusal :=
  done s fun _ m =>
    let a := m.axis ax
    if (a.drive.foc = .align ∨ a.drive.foc = .openLoop) ∧ a.drive.focSince + 1000 * (a.f 0xCA 2 + a.f 0xCC 2 + 100) ≤ m.time then m.drvFault ax 5
    else m

/-- OBSERVER_LOST (R264): back-EMF below half for 5 ms at or above OBS_MIN_RPM. -/
def execObserverLost (ax : Nat) (s : State) : Host.Outcome State Fault Refusal :=
  done s fun _ m =>
    let a := m.axis ax
    let r := a.toRpm (m.axVel ax)
    if a.sensorless ∧ a.drive.foc = .closed ∧ (a.f 0xC6 2 : Rat) ≤ (if r < 0 then -r else r) then m.drvFault ax 4 else m

/-- FLY_PROBE_END (R265): the measured speed in rpm, positive in the axis's positive sense. -/
def execFlyProbeEnd (ax : Nat) (rpm : Int) (s : State) : Host.Outcome State Fault Refusal := done s fun _ m => m.flyProbe ax rpm

/-- FLY_BRAKE_TIMEOUT (R265). -/
def execFlyBrakeTimeout (ax : Nat) (s : State) : Host.Outcome State Fault Refusal :=
  done s fun _ m =>
    let a := m.axis ax
    if a.drive.foc = .brake ∧ a.drive.focSince + 1000 * a.f 0xD6 2 ≤ m.time then m.drvFault ax 6 else m

/-- OVER_CURRENT (R267): the comparator of a port above OC_LIMIT. -/
def execOverCurrent (pp : Nat) (s : State) : Host.Outcome State Fault Refusal :=
  done s fun _ m => match m.workAxis pp with
    | some n => if m.axEnabled n then (m.count (K.PP_OC_TRIPS pp)).drvFault n 1 else m
    | none => m

/-- DRV_FLT_N (R267): a fault input goes low; every axis with a port of its group stops. -/
def execDrvFltN (g : Nat) (s : State) : Host.Outcome State Fault Refusal :=
  done s fun _ m => upto m.nAxes m (fun m n =>
    if (m.axis n).ports.any (fun p => p / 4 == g) && m.axEnabled n then m.drvFault n 2 else m)

/-! ### Buses, R268-R272 -/

/-- BUS_LEVEL_CROSSING (R268, R269): the comparators see the bus at a voltage in mV. -/
def execBusLevelCrossing (bus mv : Nat) (s : State) : Host.Outcome State Fault Refusal := done s fun _ m => m.busLevel bus mv

/-- BUS_OV_CUT (R271): the bus is at its cut level or above. -/
def execBusOvCut (bus : Nat) (s : State) : Host.Outcome State Fault Refusal :=
  done s fun _ m => m.busLevel bus (max (m.busRt bus).level (100 * m.g (K.BUS_OV_CUT bus)))

/-- CHOPPER_FB_TIMEOUT (R270, check 1). -/
def execChopperFbTimeout (bus : Nat) (s : State) : Host.Outcome State Fault Refusal :=
  done s fun _ m => match (m.busRt bus).onSince with
    | some t => if m.gb (K.BUS_FB_ENABLE bus) ∧ t + m.g (K.BUS_FB_TIME bus) ≤ m.time then m.chopperFail bus 1 else m
    | none => m

/-- CHOPPER_RISE_CHECK (R270, check 2): 200 µs after the chopper was switched on. -/
def execChopperRiseCheck (bus : Nat) (s : State) : Host.Outcome State Fault Refusal :=
  done s fun _ m => match (m.busRt bus).onSince with
    | some t =>
      if (m.busRt bus).checked ∨ m.time < t + 200 then m
      else
        let rise := 10 * (m.busVoltage bus - (m.busRt bus).onVoltage)
        let m := m.modBus bus (fun x => { x with checked := true })
        if m.g (K.BUS_RISE_TOL bus) < rise then m.chopperFail bus 2 else m
    | none => m

/-- SHORT_RELEASE (R270): after 100 ms on kinds 1 and 3; on kind 2 when the observer's estimate has fallen. -/
def execShortRelease (ax : Nat) (s : State) : Host.Outcome State Fault Refusal :=
  done s fun _ m =>
    let a := m.axis ax
    if m.axState ax = axStopped ∧ a.drive.bridge = .shorted ∧ (a.kind = 2 ∨ a.drive.shortSince + 100000 ≤ m.time) then
      m.modAxis ax (fun a => { a with drive := { a.drive with bridge := .highZ } })
    else m

/-- BUS_CLEAR (R271): accepted below BUS_BRK_OFF while the cut holds. -/
def wBusClear (b v : Nat) (m : Mach) : WriteResult :=
  if v ≠ 1 then (m, .ok)
  else if !(m.busRt b).cut ∨ !(m.busLow b) then refuseState m
  else (((m.modBus b (fun x => { x with cut := false })).showBus b).raise 0x2B14 [b], .ok)

/-- BUS_CLEAR (R271). -/
def execBusClear (bus v : Nat) (s : State) : Host.Outcome State Fault Refusal :=
  done s fun _ m => m.hostWrite (K.BUS_CLEAR bus) (leBytes 1 v) (wBusClear bus)

/-- BUS_BRK_CLEAR (R270): accepted below BUS_BRK_OFF while the chopper has failed. -/
def wBusBrkClear (b v : Nat) (m : Mach) : WriteResult :=
  if v ≠ 1 then (m, .ok)
  else if !(m.busRt b).failed ∨ !(m.busLow b) then refuseState m
  else (((m.modBus b (fun x => { x with failed := false })).showBus b).raise 0x2B15 [b], .ok)

/-- BUS_BRK_CLEAR (R270). -/
def execBusBrkClear (bus v : Nat) (s : State) : Host.Outcome State Fault Refusal :=
  done s fun _ m => m.hostWrite (K.BUS_BRK_CLEAR bus) (leBytes 1 v) (wBusBrkClear bus)

/-- The keys BUS_LEVEL_WRITE writes: BUS_WARN, BUS_BRK_OFF, BUS_BRK_ON, BUS_OV_CUT, BUS_DIV. -/
def busLevelKey (b which : Nat) : Nat :=
  match which with
  | 0 => K.BUS_WARN b | 1 => K.BUS_BRK_OFF b | 2 => K.BUS_BRK_ON b | 3 => K.BUS_OV_CUT b | _ => K.BUS_DIV b

/-- A level or the divider of a bus (R268): the order of the levels must stand, and BUS_OV_CUT stays at or below its ceiling
(R382). The comparators judge the bus by the new levels at once. -/
def wBusLevel (b which v : Nat) (m : Mach) : WriteResult :=
  let m' := m.put (busLevelKey b which) v
  let ok := decide (m'.g (K.BUS_WARN b) ≤ m'.g (K.BUS_BRK_OFF b)) && decide (m'.g (K.BUS_BRK_OFF b) < m'.g (K.BUS_BRK_ON b))
    && decide (m'.g (K.BUS_BRK_ON b) < m'.g (K.BUS_OV_CUT b)) && decide ((m'.g (K.BUS_OV_CUT b) : Rat) < (m'.gf (K.BUS_DIV b)).val * 18)
  if ok && !(which == 3 && decide (fld m.prot (0x1C + 2 * b) 2 < v)) then
    -- the voltage at VBk_SNS stays: a new divider scales what it stands for
    let old := (m.gf (K.BUS_DIV b)).val
    let lv := (m.busRt b).level
    let mv := if which = 4 ∧ old ≠ 0 then (roundRat ((lv : Rat) * (m'.gf (K.BUS_DIV b)).val / old)).toNat else lv
    (m'.busLevel b mv, .ok)
  else refuseRange m

/-- BUS_LEVEL_WRITE (R268). -/
def execBusLevelWrite (bus which v : Nat) (s : State) : Host.Outcome State Fault Refusal :=
  done s fun _ m => m.hostWrite (busLevelKey bus which) (leBytes (if which = 4 then 4 else 2) v) (wBusLevel bus which)

/-- BUS_PEAK (R272): a read starts the measurement again. -/
def execBusPeak (bus : Nat) (s : State) : Host.Outcome State Fault Refusal :=
  done s fun _ m => m.hostRead (K.BUS_PEAK bus) (fun m => m.g (K.BUS_PEAK bus)) (fun m => m.put (K.BUS_PEAK bus) (m.g (K.BUS_VOLTAGE bus)))

end Sys2Proof.Machine
end

