-- ==== Sys2Proof/Machine/Crypto.lean ====
section
/-! DEFINITION. The algorithms the spec names by their standards: SHA-256, HMAC-SHA-256 and ECDSA P-256 verification (R363,
R387; PRESUMED, log entry 60: the standards' constants and steps), and the CRC-8 of a log record (R389). -/

namespace Sys2Proof.Machine.Crypto

open Sys2Proof.Machine

/-! ### SHA-256 -/

def w32 (x : Nat) : Nat := x % 2 ^ 32
/-- Rotate a 32-bit word right. -/
def rotr (x n : Nat) : Nat := w32 (x / 2 ^ n + x * 2 ^ (32 - n))

/-- The first n 32-bit words of a number, the lowest first. -/
def wordsOf (n x : Nat) : List Nat := (List.range n).map (fun i => fld x (4 * i) 4)

/-- The round constants, as four numbers of sixteen words each. -/
def shaConstants : List Nat := [
  0xc19bf1749bdc06a780deb1fe72be5d74550c7dc3243185be12835b01d807aa98ab1c5ed5923f82a459f111f13956c25be9b5dba5b5c0fbcf71374491428a2f98,
  0x1429296706ca6351d5a79147c6e00bf3bf597fc7b00327c8a831c66d983e515276f988da5cb0a9dc4a7484aa2de92c6f240ca1cc0fc19dc6efbe4786e49b69c1,
  0x106aa070f40e3585d6990624d192e819c76c51a3c24b8b70a81a664ba2bfe8a192722c8581c2c92e766a0abb650a735453380d134d2c6dfc2e1b213827b70a85,
  0xc67178f2bef9a3f7a4506ceb90befffa8cc7020884c8781478a5636f748f82ee682e6ff35b9cca4f4ed8aa4a391c0cb334b0bcb52748774c1e376c0819a4c116]

/-- The constant of each round. -/
def shaK : List Nat := shaConstants.flatMap (wordsOf 16)

/-- The hash value a message begins with. -/
def shaH : List Nat := wordsOf 8 0x5be0cd191f83d9ab9b05688c510e527fa54ff53a3c6ef372bb67ae856a09e667

/-- The message schedule, newest word first. -/
def schedule : Nat → List Nat → List Nat
  | 0, ws => ws
  | n + 1, ws =>
    let w (i : Nat) : Nat := ws.getD (i - 1) 0
    let s0 := (rotr (w 15) 7 ^^^ rotr (w 15) 18) ^^^ (w 15 / 2 ^ 3)
    let s1 := (rotr (w 2) 17 ^^^ rotr (w 2) 19) ^^^ (w 2 / 2 ^ 10)
    schedule n (w32 (w 16 + s0 + w 7 + s1) :: ws)

/-- One round on the eight working words. -/
def shaRound (h : List Nat) (kw : Nat) : List Nat :=
  let v (i : Nat) : Nat := h.getD i 0
  let s1 := (rotr (v 4) 6 ^^^ rotr (v 4) 11) ^^^ rotr (v 4) 25
  let ch := (v 4 &&& v 5) ^^^ ((2 ^ 32 - 1 - v 4) &&& v 6)
  let t1 := v 7 + s1 + ch + kw
  let s0 := (rotr (v 0) 2 ^^^ rotr (v 0) 13) ^^^ rotr (v 0) 22
  let maj := ((v 0 &&& v 1) ^^^ (v 0 &&& v 2)) ^^^ (v 1 &&& v 2)
  [w32 (t1 + s0 + maj), v 0, v 1, v 2, w32 (v 3 + t1), v 4, v 5, v 6]

/-- One 64-byte block. -/
def shaBlock (h : List Nat) (block : List Byte) : List Nat :=
  let ws := (List.range 16).map (fun i => ofBe ((block.drop (4 * i)).take 4))
  let sch := (schedule 48 ws.reverse).reverse
  let r := (List.zipWith (fun k w => w32 (k + w)) shaK sch).foldl shaRound h
  List.zipWith (fun a b => w32 (a + b)) h r

/-- A message padded to whole blocks. -/
def shaPad (bs : List Byte) : List Byte :=
  let n := bs.length
  bs ++ [0x80#8] ++ List.replicate ((119 - n % 64) % 64) 0#8 ++ beBytes 8 (8 * n)

def sha256 (bs : List Byte) : List Byte :=
  let p := shaPad bs
  let h := (List.range (p.length / 64)).foldl (fun h i => shaBlock h ((p.drop (64 * i)).take 64)) shaH
  h.flatMap (beBytes 4)

/-- HMAC-SHA-256 with a key of at most 64 bytes. -/
def hmac (key msg : List Byte) : List Byte :=
  let k := padTo 64 0#8 key
  sha256 (k.map (fun b => b ^^^ 0x5c#8) ++ sha256 (k.map (fun b => b ^^^ 0x36#8) ++ msg))

/-! ### ECDSA P-256 -/

def p256 : Nat := 0xffffffff00000001000000000000000000000000ffffffffffffffffffffffff
def n256 : Nat := 0xffffffff00000000ffffffffffffffffbce6faada7179e84f3b9cac2fc632551
def b256 : Nat := 0x5ac635d8aa3a93e7b3ebbd55769886bc651d06b0cc53b0f63bce3c3e27d2604b
def g256 : Nat × Nat :=
  (0x6b17d1f2e12c4247f8bce6e563a440f277037d812deb33a0f4a13945d898c296,
   0x4fe342e2fe1a7f9b8ee7eb4a7c0f9e162bce33576b315ececbb6406837bf51f5)

/-- Power modulo m over the low n bits of the exponent. -/
def powMod (m b e : Nat) : Nat → Nat
  | 0 => 1 % m
  | n + 1 => let r := powMod m b (e / 2) n; let q := r * r % m; if e % 2 = 1 then q * b % m else q

/-- The inverse modulo a prime. -/
def inv (m x : Nat) : Nat := powMod m (x % m) (m - 2) 256

def subM (m x y : Nat) : Nat := (x + (m - y % m)) % m

/-- A point of the curve, none the point at infinity. -/
abbrev Pt := Option (Nat × Nat)

/-- The sum of two points. -/
def addPt : Pt → Pt → Pt
  | none, q => q
  | p, none => p
  | some (x1, y1), some (x2, y2) =>
    if x1 = x2 ∧ (y1 + y2) % p256 = 0 then none
    else
      let l := if x1 = x2 then (3 * x1 * x1 + (p256 - 3)) * inv p256 (2 * y1) % p256
        else subM p256 y2 y1 * inv p256 (subM p256 x2 x1) % p256
      let x := subM p256 (l * l) (x1 + x2)
      some (x, subM p256 (l * subM p256 x1 x) y1)

/-- A multiple of a point, over the low n bits. -/
def mulPt (q : Pt) (k : Nat) : Nat → Pt
  | 0 => none
  | n + 1 =>
    let h := mulPt q (k / 2) n
    let d := addPt h h
    if k % 2 = 1 then addPt d q else d

/-- Whether a signature (r, s) over a hash verifies under a public key (x, y). -/
def verify (x y r s : Nat) (hash : List Byte) : Bool :=
  let onCurve := decide (x < p256 ∧ y < p256 ∧ y * y % p256 = (x * x * x + (p256 - 3) * x + b256) % p256)
  let inRange := decide (1 ≤ r ∧ r < n256 ∧ 1 ≤ s ∧ s < n256)
  let w := inv n256 s
  let u1 := ofBe hash * w % n256
  let u2 := r * w % n256
  onCurve && inRange && (match addPt (mulPt (some g256) u1 256) (mulPt (some (x, y)) u2 256) with
    | none => false
    | some (vx, _) => vx % n256 == r)

/-! ### CRC-8 of a log record, R389 -/

def crc8Byte (c : Nat) (b : Byte) : Nat :=
  upto 8 (c ^^^ b.toNat) (fun c _ => if 128 ≤ c then ((c * 2) % 256) ^^^ 0x07 else c * 2)

def crc8 (bs : List Byte) : Nat := bs.foldl crc8Byte 0

end Sys2Proof.Machine.Crypto
end

