-- ==== Sys2Proof/Machine/FlashOps.lean ====
section
/-! DEFINITION. The flash controller (R370-R384, R388-R390): blocks, reads with their corrections, programs, erases, failed blocks
and spares, the journal, the calibration region, the event log and what waits for the controller. -/

namespace Sys2Proof.Machine

open Sys2Proof

/-! ### Blocks, R370-R372 -/

/-- The physical block a logical block reads from (R16). -/
def FlashState.physOf (f : FlashState) (b : Nat) : Nat :=
  match f.map.find? (fun p => p.1 = b) with
  | some p => p.2
  | none => b

def Mach.blk (m : Mach) (b : Nat) : FlashBlk := m.flash.blks.getD (m.flash.physOf b) {}

/-- Change the physical block of a logical one. -/
def Mach.modBlk (m : Mach) (b : Nat) (f : FlashBlk → FlashBlk) : Mach :=
  { m with flash := { m.flash with blks := m.flash.blks.modify (m.flash.physOf b) f } }

/-- What an unlisted byte of a block reads as: what manufacture put there, or erased (R370). -/
def FlashBlk.base (x : FlashBlk) (off : Nat) : Byte :=
  match x.factory with
  | some b => Config.factoryFlash (b * 65536 + off)
  | none => 0xFF#8

/-- A byte of a block. -/
def FlashBlk.byte (x : FlashBlk) (off : Nat) : Byte := Store.get x.base off x.cells

/-- n bytes of a block as a little-endian number. -/
def FlashBlk.num (x : FlashBlk) (off : Nat) : Nat → Nat
  | 0 => 0
  | n + 1 => (x.byte off).toNat + 256 * FlashBlk.num x (off + 1) n

/-- Program bytes from an offset. -/
def FlashBlk.program (x : FlashBlk) (off : Nat) (bs : List Byte) : FlashBlk :=
  { x with cells := Store.putAll x.base (bs.mapIdx (fun i b => (off + i, b))) x.cells }

/-- Whether every byte of a range is blank and defined (R373). -/
def FlashBlk.blank (x : FlashBlk) (off n : Nat) : Bool :=
  (List.range n).all (fun i => x.byte (off + i) == 0xFF#8)
    && !(x.undef.any (fun g => decide (g * 32 < off + n ∧ off < g * 32 + 32)))

/-- Whether nothing has been programmed into a block since its last erase. -/
def FlashBlk.clean (x : FlashBlk) : Bool := x.cells.isEmpty && x.undef.isEmpty && x.stamp && x.factory.isNone

/-- A verified erase: blank, stamped, its count one higher (R374). -/
def FlashBlk.erased (x : FlashBlk) : FlashBlk := { erases := x.erases + 1, stamp := true }

/-- n bytes at a flash address 0-0x7FFFFF as a number. -/
def Mach.flashNum (m : Mach) (a n : Nat) : Nat :=
  ofLe ((List.range n).map (fun i => (m.blk ((a + i) / 65536)).byte ((a + i) % 65536)))

/-- The region of a block (R371): 0 boot, 1 protected configuration, 2 journal, 3 bank A, 4 bank B, 5 calibration, 6 log, 7 user. -/
def flashRegion (b : Nat) : Nat :=
  if b < 2 then 0 else if b < 4 then 1 else if b < 6 then 2 else if b < 34 then 3 else if b < 62 then 4
  else if b < 66 then 5 else if b < 70 then 6 else 7

/-- First block and number of blocks of a slot: supervisor A, kernel A, supervisor B, kernel B (R371). -/
def slotBlocks (k : Nat) : Nat × Nat := [(6, 24), (30, 4), (34, 24), (58, 4)].getD k (6, 24)

/-- The slot a block lies in. -/
def slotOf (b : Nat) : Option Nat :=
  (List.range 4).find? (fun k => let s := slotBlocks k; decide (s.1 ≤ b ∧ b < s.1 + s.2))

/-- Whether a block is write protected (R381). -/
def Mach.wp (m : Mach) (b : Nat) : Bool := if b < 64 then bit (m.g K.NV_WP_LO) b else bit (m.g K.NV_WP_HI) (b - 64)

/-- Whether a block reads FAILED. -/
def Mach.blkFailed (m : Mach) (b : Nat) : Bool := m.flash.failed.getD b false

/-- The free spares, lowest first; only the MP-6440 has any (R378). -/
def Mach.freeSpares (m : Mach) : List Nat :=
  (List.range m.nSpareBlocks).map (· + 128) |>.filter (fun s =>
    !(m.flash.map.any (fun p => p.2 == s)) && !(m.flash.aside.contains s))

/-! ### Journal, R384 -/

/-- Program one journal page; a full journal block is followed by the other one, erased first. -/
def Mach.journalPage (m : Mach) : Mach :=
  let m := if m.flash.jPage < 256 then m else
    let other := 9 - m.flash.jHead
    let m := m.modBlk other FlashBlk.erased
    { m with flash := { m.flash with jHead := other, jPage := 0 } }
  { m with flash := { m.flash with jPage := m.flash.jPage + 1 } }

/-! ### What waits for the controller, R375 -/

/-- Place in the order of R375: log 1, calibration 4, banks 5, user operations and protected configuration 6. -/
def FlashJob.cls : FlashJob → Nat
  | .logErase _ => 1 | .calErase _ => 4 | .bank _ _ _ => 5 | .userErase _ => 6 | .userProg _ _ _ => 6
  | .protErase _ _ => 6 | .protProg _ _ => 6

def FlashJob.isErase : FlashJob → Bool
  | .logErase _ => true | .calErase _ => true | .userErase _ => true | .protErase _ _ => true
  | .bank _ _ _ => false | .userProg _ _ _ => false | .protProg _ _ => false

def FlashJob.isBank : FlashJob → Bool
  | .bank _ _ _ => true
  | .logErase _ => false | .calErase _ => false | .userErase _ => false | .protErase _ _ => false
  | .userProg _ _ _ => false | .protProg _ _ => false

/-- The block an erase job erases. -/
def FlashJob.eraseBlock : FlashJob → Option Nat
  | .logErase b => some b | .calErase b => some b | .userErase b => some b | .protErase b _ => some b
  | .bank _ _ _ => none | .userProg _ _ _ => none | .protProg _ _ => none

/-- Whether the log can take a record now: its head block is usable and has a blank segment, and a clear has erased it. -/
def Mach.logWritable (m : Mach) : Bool :=
  let h := m.flash.logHead
  !(m.blkFailed (66 + h)) && decide ((m.flash.log.getD h []).length < 2048) && !(m.flash.logClear.contains h)

/-- Whether a program of a higher order than a job of class c waits: log records, migrations, a calibration record. -/
def Mach.programWaits (m : Mach) (c : Nat) : Bool :=
  (decide (1 ≤ c) && m.ev.logQueue != [] && m.logWritable) || (decide (2 < c) && m.flash.migr != [])
    || (decide (4 < c) && m.calStoring != [])

/-- Start the first job unless a program of higher order waits; bank programming gives way to every request before it. -/
def Mach.flashStart (m : Mach) : Mach :=
  match m.flash.jobs with
  | [] => { m with flash := { m.flash with begun := false } }
  | j :: _ =>
    if m.flash.begun ∨ j.isBank = true ∨ m.programWaits j.cls = true then m
    else { m with flash := { m.flash with begun := true, suspRead := false } }

/-- Put a job in its place: after those of its class and before those of a lower order, but never before the one in progress. -/
def insertJob (j : FlashJob) : List FlashJob → List FlashJob
  | [] => [j]
  | a :: l => if a.cls ≤ j.cls then a :: insertJob j l else j :: a :: l

def Mach.flashAdd (m : Mach) (j : FlashJob) : Mach :=
  let f := m.flash
  let jobs := match f.begun, f.jobs with
    | true, a :: l => a :: insertJob j l
    | _, l => insertJob j l
  { m with flash := { f with jobs } }.flashStart

/-- The first job has ended. -/
def Mach.flashPop (m : Mach) : Mach :=
  { m with flash := { m.flash with jobs := m.flash.jobs.drop 1, begun := false, suspRead := false } }

/-! ### The event log, R388-R390 -/

/-- The 32 bytes of an event record (R335). The DATA bytes of an item event are those of R54; of every other event the
layout is the device's own (log entry 3). -/
def Mach.eventBytes (m : Mach) (r : EvRec) (logged : Bool) : Nat :=
  let flags := b2n r.tc1 + 2 * b2n r.promoted + 4 * b2n r.logged
  let data := if r.code / 256 = 0x23 then
      packLe 2 (r.data.take 1) + packLe 1 ((r.data.drop 1).take 2) * 256 ^ 2 + (r.data.getD 3 0 % 2 ^ 32) * 256 ^ 4
    else Config.eventPack r.code r.data % 2 ^ 128
  let data := if logged && r.code = 0x2001 then setFld data 12 4 m.flash.bootCount else data
  r.seq + r.code * 256 ^ 4 + flags * 256 ^ 6 + (r.time % 2 ^ 64) * 256 ^ 8 + data * 256 ^ 16

/-- A record as the log holds it: byte 7 is a CRC-8 over the other 31 (R389). -/
def Mach.logBytes (m : Mach) (r : EvRec) : Nat :=
  let x := m.eventBytes r true
  let bs := leBytes 32 x
  setFld x 7 1 (Crypto.crc8 (bs.take 7 ++ bs.drop 8))

/-- Log blocks in use, from the one after the head on. -/
def Mach.logOthers (m : Mach) : List Nat :=
  ((List.range 3).map (fun i => (m.flash.logHead + 1 + i) % 4)).filter (fun b => !(m.blkFailed (66 + b)))

/-- A full or failed head: it moves to an erased block, and the oldest block is erased in the background. -/
def Mach.logMove (m : Mach) : Mach :=
  match m.logOthers.find? (fun b => (m.flash.log.getD b []) == []) with
  | none =>
    match m.logOthers with
    | b :: _ => if m.flash.jobs.any (fun j => j.eraseBlock == some (66 + b)) then m else m.flashAdd (.logErase (66 + b))
    | [] =>
      if m.blkFailed (66 + m.flash.logHead) || m.flash.jobs.any (fun j => j.eraseBlock == some (66 + m.flash.logHead)) then m
      else m.flashAdd (.logErase (66 + m.flash.logHead))
  | some b =>
    let m := { m with flash := { m.flash with logHead := b } }
    match m.logOthers with
    | o :: _ => if (m.flash.log.getD o []) == [] then m else m.flashAdd (.logErase (66 + o))
    | [] => m

/-- Append a segment to the head block of the log. -/
def Mach.logAppend (m : Mach) (seg : Option Nat) : Mach :=
  let h := m.flash.logHead
  let m := { m with flash := { m.flash with log := m.flash.log.modify h (fun l => l ++ [seg]) } }
  if (m.flash.log.getD h []).length < 2048 then m else m.logMove

/-- The records the log holds, newest first (R390); none while a clear runs. -/
def Mach.logRecords (m : Mach) : List Nat :=
  if m.flash.logClear ≠ [] then []
  else
    let blocks := (List.range 4).map (fun i => (m.flash.logHead + 4 - i) % 4)
    (blocks.flatMap (fun b => if m.blkFailed (66 + b) then [] else (m.flash.log.getD b []).reverse.filterMap id)).take 4096

/-! ### Failed blocks and spares, R378, R379 -/

/-- End of a user operation (R380): 0 DONE, else FAILED with its cause. -/
def Mach.opEnd (m : Mach) (fail : Nat) : Mach :=
  let st := if fail = 0 then 2 else 3
  (m.puts [(K.NV_OP_STATE, st), (K.NV_OP_FAIL, fail)]).raise 0x3005 [st, fail]

/-- End of a protected-configuration store (R383). -/
def Mach.protEnd (m : Mach) (ok : Bool) : Mach :=
  let st := if ok then 2 else 3
  (m.put K.NV_PROT_STATE st).raise 0x3007 [st]

/-- A slot whose content no longer passes reads as named, and its bank INCOMPLETE (R364, R379). -/
def Mach.slotBad (m : Mach) (k : Nat) : Mach := { m with flash := { m.flash with slots := m.flash.slots.set k 3 } }

/-- A block without a spare reads FAILED until the next reset (R379): its bank reads INCOMPLETE, the log skips it. -/
def Mach.blkOut (m : Mach) (b : Nat) : Mach :=
  let m := { m with flash := { m.flash with failed := m.flash.failed.set b true } }
  match slotOf b with
  | some k => m.slotBad k
  | none =>
    if flashRegion b = 6 then
      let m := { m with flash := { m.flash with logClear := m.flash.logClear.filter (fun x => x ≠ b - 66) } }
      if m.flash.logHead = b - 66 then m.logMove else m
    else m

/-- A failed block (R378): event 0x3002, then its replacement, or FAILED where no spare is free. The answer tells whether a spare
takes its place. -/
def Mach.blkFail (m : Mach) (b cause : Nat) (more : List Nat) (g : Migr) : Mach × Bool :=
  let m := m.raise 0x3002 ([b, cause] ++ more)
  if m.freeSpares = [] then (m.blkOut b, false)
  else ({ m with flash := { m.flash with migr := m.flash.migr.filter (fun x => x.block ≠ b) ++ [g] } }, true)

/-- A read of a segment that needed c corrections, more than 4 being uncorrectable (R372). -/
def Mach.segmentRead (m : Mach) (b seg c : Nat) : Mach :=
  if c = 0 then m
  else if c ≤ 4 then
    let m := { m with flash := { m.flash with corrMax := m.flash.corrMax.modify b (fun x => max x c) } }
    if c < m.g K.NV_ECC_WARN ∨ m.flash.weak.getD b false = true then m
    else
      let m := { m with flash := { m.flash with weak := m.flash.weak.set b true } }.raise 0x3001 [b, seg / 8, c]
      if m.freeSpares = [] ∨ m.flash.migr.any (fun g => g.block == b) then m
      else { m with flash := { m.flash with migr := m.flash.migr ++ [{ block := b }] } }
  else
    let m := m.modBlk b (fun x => if x.undef.contains seg then x else { x with undef := x.undef ++ [seg] })
    if m.blkFailed b || m.flash.migr.any (fun g => g.block == b) then m
    else (m.blkFail b 3 [seg / 8, seg % 8] { block := b }).1

/-! ### Ends of programs and erases -/

/-- The rest of a user program: the next page, or DONE. -/
def Mach.userProgNext (m : Mach) (b page : Nat) (rest : List Byte) : Mach :=
  if rest = [] then m.opEnd 0 else m.flashAdd (.userProg b page rest)

/-- What an erase leads to once its block is blank. -/
def Mach.erasedThen (m : Mach) (j : FlashJob) : Mach :=
  match j with
  | .logErase b =>
    let k := b - 66
    let clearing := m.flash.logClear.contains k
    let first := clearing && decide (m.flash.logClear.length = ((List.range 4).filter (fun i => !(m.blkFailed (66 + i)))).length)
    let m := { m with flash := { m.flash with
      log := m.flash.log.set k [], logClear := m.flash.logClear.filter (fun x => x ≠ k)
      logHead := if first then k else m.flash.logHead } }
    if clearing then
      match m.flash.logClear with
      | x :: _ => m.flashAdd (.logErase (66 + x))
      | [] => m
    else if m.logWritable then m
    else { m with flash := { m.flash with logHead := k } }
  | .calErase _ => m
  | .userErase _ => m.opEnd 0
  | .protErase b r => m.flashAdd (.protProg b r)
  | .bank _ _ _ => m
  | .userProg _ _ _ => m
  | .protProg _ _ => m

/-- What the end of an operation on a block that failed without a spare leads to (R379, R380). -/
def Mach.jobFailed (m : Mach) (j : FlashJob) (cause : Nat) : Mach :=
  match j with
  | .logErase b =>
    match m.flash.logClear with
    | x :: _ => if m.flash.jobs.any (fun j => j.eraseBlock == some (66 + x)) ∨ b = 66 + x then m else m.flashAdd (.logErase (66 + x))
    | [] => m
  | .calErase _ => m
  | .userErase _ => m.opEnd cause
  | .userProg _ _ _ => m.opEnd cause
  | .protErase _ _ => m.protEnd false
  | .protProg _ _ => m.protEnd false
  | .bank _ _ _ => m

/-- A verified erase of a block (R374). -/
def Mach.eraseBlk (m : Mach) (b : Nat) : Mach :=
  let m := m.modBlk b FlashBlk.erased
  if (m.blk b).erases = 100000 then m.raise 0x3009 [b] else m

/-- A failed erase (R374): the content of the block is not stated (cause 2); the stamp is not there (cause 4: blank). -/
def Mach.eraseBad (m : Mach) (b cause : Nat) : Mach :=
  m.modBlk b (fun x => if cause = 4 then { erases := x.erases, stamp := false } else { x with undef := [2048], stamp := false })

/-- FLASH_ERASE_DONE (R374): the erase in progress has ended, verified and stamped, or failed with cause 2 or 4. -/
def Mach.flashErased (m : Mach) (fail : Option Nat) : Mach :=
  match m.flash.jobs with
  | [] => m
  | j :: _ =>
    match j.eraseBlock, m.flash.begun with
    | some b, true =>
      let m := m.flashPop
      let m := match fail with
        | none => (m.eraseBlk b).erasedThen j
        | some c =>
          let cause := if c = 4 then 4 else 2
          let (m, spare) := (m.eraseBad b cause).blkFail b cause [] { block := b, blank := true, job := some j }
          if spare then m else m.jobFailed j cause
      m.flashStart
    | _, _ => m

/-- One log record programmed, or its segment failed (R378, R389): with a spare the record moves there, without one the head
block is skipped and the record waits for the next. -/
def Mach.logProgrammed (m : Mach) (seg : Option Nat) : Mach :=
  match m.ev.logQueue with
  | [] => m
  | r :: rest =>
    let h := m.flash.logHead
    let data := m.logBytes r
    let off := 32 * (m.flash.log.getD h []).length
    match seg with
    | none => ({ m with ev := { m.ev with logQueue := rest } }).logAppend (some data)
    | some _ =>
      let (m, spare) := m.blkFail (66 + h) 1 [] { block := 66 + h, patch := some (off, leBytes 32 data) }
      if spare then ({ m with ev := { m.ev with logQueue := rest } }).logAppend (some data) else m

/-- One page of a user program ended (R373, R380). -/
def Mach.userPage (m : Mach) (b page : Nat) (data : List Byte) (seg : Option Nat) : Mach :=
  let x := m.blk b
  if m.blkFailed b then m.opEnd 4
  else if !x.stamp then m.opEnd 6
  else if !(x.blank (256 * page) data.length) then m.opEnd 5
  else
    let now := data.take 256
    let rest := data.drop 256
    match seg with
    | none => (m.modBlk b (fun x => x.program (256 * page) now)).userProgNext b (page + 1) rest
    | some g =>
      let o := 32 * (g % 8)
      let m := m.modBlk b (fun x => { x.program (256 * page) now with undef := x.undef ++ [8 * page + g % 8] })
      let (m, spare) := m.blkFail b 1 [] { block := b, patch := some (256 * page + o, (now.drop o).take 32),
                                           job := some (.userProg b (page + 1) rest) }
      if spare then m else m.opEnd 1

/-- The record of the protected configuration programmed (R383). -/
def Mach.protPage (m : Mach) (b r : Nat) (seg : Option Nat) : Mach :=
  let bs := leBytes 256 r
  match seg with
  | none => (m.modBlk b (fun x => x.program 0 bs)).protEnd true
  | some g =>
    let o := 32 * (g % 8)
    let m := m.modBlk b (fun x => { x.program 0 bs with undef := x.undef ++ [g % 8] })
    let (m, spare) := m.blkFail b 1 [] { block := b, patch := some (o, (bs.drop o).take 32), job := some (.protProg b r) }
    if spare then m else m.protEnd false

/-- FLASH_PROGRAM_DONE (R373, R375): the program in progress has ended: a started page, else a log record, else the first page
that waits. -/
def Mach.flashProgrammed (m : Mach) (seg : Option Nat) : Mach :=
  let page (m : Mach) : Mach :=
    match m.flash.jobs with
    | .userProg b p d :: _ => (m.flashPop.userPage b p d seg).flashStart
    | .protProg b r :: _ => (m.flashPop.protPage b r seg).flashStart
    | _ => m
  let isPage := match m.flash.jobs with
    | .userProg _ _ _ :: _ => true
    | .protProg _ _ :: _ => true
    | _ => false
  if isPage && m.flash.begun then page m
  else if m.ev.logQueue != [] && m.logWritable then (m.logProgrammed seg).flashStart
  else page m

/-! ### Replacement, R378 -/

/-- What an operation leads to once its failed block has been replaced: an erase is complete, a program goes on. A segment that
could not be read ends a user operation with cause 3 (R380). -/
def Mach.migrThen (m : Mach) (j : FlashJob) (lost : Bool) : Mach :=
  match j with
  | .userProg b p rest => if lost then m.opEnd 3 else m.userProgNext b p rest
  | .protProg _ _ => m.protEnd true
  | .userErase _ => if lost then m.opEnd 3 else m.erasedThen j
  | .logErase _ => m.erasedThen j
  | .calErase _ => m.erasedThen j
  | .protErase _ _ => m.erasedThen j
  | .bank _ _ _ => m

/-- The first block that waits is copied to the lowest free spare, its uncorrectable segments left blank, and a journal page
records the mapping; or the spare itself fails and is set aside (R378). -/
def Mach.replaceBlk (m : Mach) (spareFails : Bool) (bad : List Nat) : Mach :=
  match m.flash.migr, m.freeSpares with
  | [], _ => m
  | g :: rest, [] =>
    let m := ({ m with flash := { m.flash with migr := rest } }).blkOut g.block
    ((match g.job with | some j => m.jobFailed j 4 | none => m)).flashStart
  | g :: rest, s :: more =>
    if spareFails then
      let m := { m with flash := { m.flash with aside := m.flash.aside ++ [s] } }
      if more ≠ [] then m
      else
        let m := ({ m with flash := { m.flash with migr := rest } }).blkOut g.block
        ((match g.job with | some j => m.jobFailed j 4 | none => m)).flashStart
    else
      let old := m.blk g.block
      let spare := m.flash.blks.getD s {}
      let bad := (old.undef ++ bad.filter (fun x => x < 2048)).filter (fun x => some (32 * x) ≠ g.patch.map Prod.fst)
      let gaps := if bad.contains 2048 then [] else bad
      let copy : FlashBlk :=
        if g.blank || bad.contains 2048 then { erases := spare.erases }
        else
          let x : FlashBlk := { old with undef := [], stamp := true, erases := spare.erases }
          let x := gaps.foldl (fun x s => x.program (32 * s) (List.replicate 32 0xFF#8)) x
          match g.patch with
          | some (o, d) => x.program o d
          | none => x
      let f := m.flash
      let m := { m with flash := { f with
        blks := f.blks.set s copy, map := f.map.filter (fun (p : Nat × Nat) => p.1 ≠ g.block) ++ [(g.block, s)], migr := rest
        weak := f.weak.set g.block false } }
      let m := m.journalPage.raise 0x3003 [g.block, s]
      let lost := !g.blank && decide (bad ≠ [])
      ((match g.job with | some j => m.migrThen j lost | none => m)).flashStart

/-! ### Calibration region, R142, R384 -/

/-- The block that follows another in the calibration region. -/
def calNext (b : Nat) : Nat := 62 + (b - 62 + 1) % 4

/-- Whether a STORE cannot be done: it needs a protected or failed block for its record or for the rotation it starts. -/
def Mach.calBlocked (m : Mach) : Bool :=
  let h := m.flash.calHead
  let need := if m.flash.calPage < 255 then [h] else [h, calNext h, calNext (calNext h)]
  need.any (fun b => m.wp b || m.blkFailed b)

/-- Program one page in the head block. -/
def Mach.calPageWrite (m : Mach) (set x : Nat) : Mach :=
  let h := m.flash.calHead
  let m := m.modBlk h (fun b => b.program (256 * m.flash.calPage) (leBytes 256 x))
  { m with flash := { m.flash with calPage := m.flash.calPage + 1, calLoc := m.flash.calLoc.set set (some h) } }

/-- A record stored; a full head starts the rotation: the head moves, the newest records of the oldest block are copied, and that
block is erased. -/
def Mach.calStored (m : Mach) (set x : Nat) : Mach :=
  let m := m.calPageWrite set x
  if m.flash.calPage < 256 then m
  else
    let head := calNext m.flash.calHead
    let oldest := calNext head
    let m := { m with flash := { m.flash with calHead := head, calPage := 0 } }
    let m := upto 16 m (fun m i => if m.flash.calLoc.getD i none = some oldest then m.calPageWrite i (m.calFlash.getD i 0) else m)
    if (m.blk oldest).clean then m
    else m.flashAdd (.calErase oldest)

/-! ### Views, R391 -/

/-- NV_BUSY: 0 idle, 1 program, 2 erase, 3 an erase suspended for a program. -/
def Mach.nvBusy (m : Mach) : Nat :=
  match m.flash.jobs with
  | [] => if m.programWaits 6 then 1 else 0
  | j :: _ =>
    if m.flash.begun && j.isErase then (if m.programWaits j.cls then 3 else 2)
    else if m.flash.begun then 1
    else if m.programWaits j.cls then 1
    else if j.isBank then 1 + Config.freeNat m.fresh % 2
    else if j.isErase then 2 else 1

/-- NV_BLK_STATE: 0 GOOD, 1 WEAK, 2 INTERRUPTED, 3 FAILED, 4 REPLACED. -/
def Mach.blkState (m : Mach) (b : Nat) : Nat :=
  if m.blkFailed b then 3
  else if !(m.blk b).stamp && !(m.flash.migr.any (fun g => g.block == b)) then 2
  else if m.flash.weak.getD b false then 1
  else if m.flash.physOf b ≠ b then 4
  else 0

end Sys2Proof.Machine
end

