-- ==== Sys2Proof/Machine/RenderCmds.lean ====
section
/-! DEFINITION. The commands of rendering: injection, stealing, faults, cluster control and planning rounds (R60-R73,
R89-R92). -/

namespace Sys2Proof.Machine

open Sys2Proof

/-! ### Planning rounds, R89, R91 -/

/-- One update of the speed-planning loop of a head, and HP_PLAN_STATUS (R91): pinned when a segment was set to the floor. An item
that is planned with lowered segments, and not one that is refused, raises event base + 0x43. -/
def Mach.planStatus (m : Mach) (it : Item) (p : HeadPlan) (rounds : Nat) (planned : Bool) : Mach :=
  let h := p.head
  let old := m.g (K.HP_PLAN_LOOP h)
  let lowered := ((List.range p.speeds.length).filter (fun i => decide (p.speeds.getD i 0 < it.plan.initial.getD i 0))).length
  let pinned := (List.range p.speeds.length).any (fun i =>
    p.speeds.getD i 0 == it.plan.floor && decide (p.speeds.getD i 0 < it.plan.initial.getD i 0))
  let m := m.puts [(K.HP_PLAN_ITEM h, it.id), (K.HP_PLAN_ROUNDS h, rounds), (K.HP_PLAN_LOWERED h, lowered),
    (K.HP_PLAN_PEAK h, ofInt 16 p.peak), (K.HP_PLAN_PEAK_BLOCK h, p.peakBlock), (K.HP_PLAN_ADDR h, p.addr)]
  let m := m.raiseIf (planned && decide (0 < lowered)) (0x2500 + 0x80 * h + 0x43) [it.id, p.speeds.foldl min 65535]
  if old = 3 then m
  else if !pinned then (m.put (K.HP_PLAN_LOOP h) 0).modHead h (fun x => { x with planPinned := 0 })
  else
    let n := (m.head h).planPinned + 1
    let fr := m.g (K.HP_PLAN_FREEZE_COUNT h)
    let st := if fr ≠ 0 ∧ fr ≤ n then 3 else 1
    let m := (m.put (K.HP_PLAN_LOOP h) st).modHead h (fun x => { x with planPinned := n })
    let m := if old = 0 then m.raiseHp h 0x44 [it.id] else m
    if st = 3 then m.raiseHp h 0x45 [it.id] else m

/-- Resume a head's frozen speed planner; another goes on as it is (R25, R91). -/
def Mach.planResume (m : Mach) (h : Nat) : Mach :=
  if m.g (K.HP_PLAN_LOOP h) = 3 then (m.put (K.HP_PLAN_LOOP h) 0).modHead h (fun x => { x with planPinned := 0 }) else m

/-- A plan band reported refusal: the item is cancelled (R88). -/
def Mach.planRefused (m : Mach) (it : Item) : Mach :=
  ((it.plan.heads.filter HeadPlan.reported).foldl (fun m p => m.planStatus it p (it.plan.round + 1) false) m).cancel it.id 2

/-- The end of a planning round in which every head's plan band has reported (R89). -/
def Mach.roundEnd (m : Mach) (it : Item) : Mach :=
  let ps := it.plan.heads
  let rounds := it.plan.round + 1
  if ps.any HeadPlan.refused then m.planRefused it
  else
    let merged := ps.foldl (fun a p => lowest a p.speeds) it.plan.speeds
    let staleOf (p : HeadPlan) : List Nat :=
      let now := m.headPeriods it p.head merged
      (List.range (it.length * it.passes)).filter (fun r =>
        let a := now.getD r 0
        let b := p.rendered.getD r 0
        decide (b < 64 * (if a < b then b - a else a - b)))
    let stale := (ps.flatMap staleOf).map it.segOf
    let rows := (List.range (segCount it.length)).filter (fun s => stale.contains s)
    let lowered := ps.any (fun p => p.speeds != it.plan.speeds)
    let marks := (List.range (segCount it.length)).map (fun i => decide (merged.getD i 0 < it.plan.initial.getD i 0))
    if rows = [] ∧ lowered = false then
      let m := m.modItem it.id (fun x => { x with plan := { x.plan with complete := true, round := rounds, lowered := marks } })
      let m := ps.foldl (fun m p => m.planStatus it p rounds true) m
      let a := (ps.foldl (fun a p => max a (p.addr + it.length * it.passes * lineRecordBytes p.dots + 1024)) 0)
      (m.storeNum a (2 * merged.length) (packLe 2 merged)).modItem it.id (fun x => { x with plan := { x.plan with profileAddr := a } })
    else if 4 ≤ rounds then (ps.foldl (fun m p => m.planStatus it p rounds false) m).cancel it.id 2
    else
      let recs := (List.range (it.length * it.passes)).filter (fun r => rows.contains (it.segOf r))
      let m := m.modItem it.id (fun x => { x with plan := { x.plan with
        round := rounds, speeds := merged, lowered := marks
        rerendered := x.plan.rerendered ++ recs.filter (fun r => !(x.plan.rerendered.contains r))
        heads := x.plan.heads.map (fun p =>
          let now := m.headPeriods it p.head merged
          { p with
            issued := false, reported := false, refused := false
            rendered := p.rendered.mapIdx (fun r b => if rows.contains (it.segOf r) then now.getD r b else b) }) } })
      let it' := (m.item? it.id).getD it
      (it'.heads.foldl (fun m h => m.issue (m.energyBands it' h rows)) m).pump

/-- PLANNING_ROUND_END (R89): every plan band of the round has reported. -/
def execPlanningRoundEnd (id : Nat) (s : State) : Host.Outcome State Fault Refusal :=
  done s fun _ m =>
    match m.item? id with
    | none => m
    | some it =>
      if it.state == .rendering && !it.isSL && !it.plan.complete && it.plan.heads ≠ [] && it.plan.heads.all HeadPlan.reported
      then m.roundEnd it else m

/-! ### Inputs of rendering and planning, R92 -/

/-- Whether a key is a rendering or planning input of R92. -/
def renderInput (k : Nat) : Bool :=
  let i := k / 256
  let o := (i - 0x2500) % 0x80
  let t := (i - 0x2700) % 0x20
  (0x2500 ≤ i && i ≤ 0x26FF && [0x40, 0x41, 0x42, 0x43, 0x10, 0x11].contains o)
    || (0x2700 ≤ i && i ≤ 0x277F && [0x01, 0x02, 0x03, 0x04].contains t)

/-- The station a rendering input belongs to. -/
def Mach.inputStation (m : Mach) (k : Nat) : Option Nat :=
  let i := k / 256
  if i < 0x2700 then m.stationOf ((i - 0x2500) / 0x80) else some ((i - 0x2700) / 0x20)

/-- Effect of a write of a rendering or planning input: stored; a write of TH_MIN_SPEED or HP_TEMP_LIMIT resumes the
planner (R91); items of the station still RENDERING restart (R92). -/
def wRenderInput (k v : Nat) (m : Mach) : WriteResult :=
  let m := m.put k v
  let i := k / 256
  let m := if i < 0x2700 then (if (i - 0x2500) % 0x80 = 0x43 then m.planResume ((i - 0x2500) / 0x80) else m)
    else if (i - 0x2700) % 0x20 = 0x01 then (m.stationPorts ((i - 0x2700) / 0x20)).foldl Mach.planResume m else m
  match m.inputStation k with
  | some st => (m.restartStation st, .ok)
  | none => (m, .ok)

/-- Effect of a write of a halftone screen or a paper profile: stored; the pages still RENDERING that render with it start again from
their first band, so that a write acknowledged while a page reads RENDERING governs all of it (R18; DESIGN CHOICE, log entry 35). -/
def wPageInput (uses : Item → Bool) (k v : Nat) (m : Mach) : WriteResult :=
  let m := m.put k v
  (((m.itemsOf 4 (fun it => it.state == .rendering && uses it)).foldl Mach.restartWrite m).pump, .ok)

/-- HP_PLAN_UNFREEZE (R91). -/
def execHpPlanUnfreeze (hp v : Nat) (s : State) : Host.Outcome State Fault Refusal :=
  done s fun _ m => m.hostWrite (K.HP_PLAN_UNFREEZE hp) (leBytes 1 v) (onOne (fun m => m.planResume hp))

/-! ### Bands and cloves -/

/-- BAND_INJECTION (R60): ready plan bands are issued and waiting descriptors injected as room appears. -/
def execBandInjection (s : State) : Host.Outcome State Fault Refusal :=
  done s fun _ m => m.pump

/-- REMOTE_STEAL_ATTEMPT (R62): an idle clove, at least 2 µs after its last remote attempt, tries the other cluster of
its generation with the greatest backlog. -/
def execRemoteStealAttempt (cl cv : Nat) (s : State) : Host.Outcome State Fault Refusal :=
  done s fun _ m =>
    let m := m.runCluster cl
    let c := m.cluster cl
    let v := c.cloves.getD cv { state := .off }
    let spaced := match v.lastRemote with | none => true | some t => decide (t + 2 ≤ m.time)
    if !v.serving || v.cur.isSome || v.deque ≠ [] || c.reloading || !(m.clusterUp cl) || !spaced then m
    else
      let m := m.modCluster cl (fun c => { c with cloves := c.cloves.modify cv (fun x => { x with lastRemote := some m.time }) })
      let ks := (List.range m.nClusters).filter (fun k => k != cl && m.clusterUp k && (m.cluster k).gen == c.gen)
      match ks.foldl (fun acc k => match acc with
          | none => some k
          | some j => if (m.cluster j).backlog < (m.cluster k).backlog then some k else acc) none with
      | none => m
      | some k =>
        if (m.cluster k).backlog = 0 then m
        else match (m.cluster k).deepest with
          | none => m
          | some j =>
            let (m', ok) := m.steal k j cl cv
            if ok then ((m'.count K.RD_STEAL_REMOTE).cloveTake cl cv).runCluster k else m

/-- CLOVE_HANG (R66, R67): no progress mark for 200 µs. -/
def execCloveHang (cl cv : Nat) (s : State) : Host.Outcome State Fault Refusal :=
  done s fun _ m =>
    if cl < m.nClusters ∧ ((m.cluster cl).cloves.getD cv { state := .off }).lastMark + 200 ≤ m.time
    then m.fence cl cv .fencedHang 0x2401 else m

/-- CLOVE_PARITY_ERROR (R66, R67). -/
def execCloveParityError (cl cv : Nat) (s : State) : Host.Outcome State Fault Refusal :=
  done s fun _ m => if cl < m.nClusters then m.fence cl cv .fencedParity 0x2402 else m

/-- SPARE_CLOVE_IN_SERVICE (R67): the spare has loaded its kernel; event 0x2403. -/
def execSpareCloveInService (cl : Nat) (s : State) : Host.Outcome State Fault Refusal :=
  done s fun _ m =>
    let v := (m.cluster cl).cloves.getD 16 { state := .off }
    if v.state == .inService && v.loading then
      let m := m.modCluster cl (fun c => { c with cloves := c.cloves.modify 16 (fun x => { x with loading := false, lastMark := m.time }) })
      (m.raise 0x2403 [17 * cl + 16, (m.cluster cl).spareOf]).runCluster cl
    else m

/-! ### Cluster SRAM, R69 -/

/-- Re-issue the bands in progress on the cloves of a cluster. -/
def Mach.reissueRunning (m : Mach) (k : Nat) : Mach := upto 17 m (fun m n => m.reissueCur k n)

/-- First granule of staging (R59). -/
def stagingGranule : Nat := 0x510

/-- The region a granule works for: the one it lies in, or that of the granule it replaces (R69). -/
def Cluster.serves (c : Cluster) (gr : Nat) : Nat := ((c.replaced.find? (fun p => p.1 == gr)).map Prod.snd).getD gr

/-- The granule at the top of staging that is neither retired nor a replacement. -/
def Cluster.topOfStaging (c : Cluster) : Option Nat :=
  ((List.range (0x1000 - stagingGranule)).map (fun i => 0xFFF - i)).find? (fun g =>
    !(c.retired.contains g) && !(c.replaced.any (fun p => p.1 == g)))

/-- Retire a granule: one that serves the kernel image, the deques, their headers or the work queue is replaced (R69). -/
def Cluster.retire (c : Cluster) (gr : Nat) : Cluster :=
  let home := c.serves gr
  let c := { c with retired := gr :: c.retired, replaced := c.replaced.filter (fun p => p.1 != gr) }
  if stagingGranule ≤ home ∨ (0x489 ≤ home ∧ home < 0x490) then c
  else match c.topOfStaging with
    | none => c
    | some g => { c with replaced := (g, home) :: c.replaced }

/-- An uncorrectable cluster SRAM word (R69): its granule is retired once; a kernel-image word stops the cluster's cloves and
re-issues their bands; a staging word re-issues the bands staged there, and which of the bands in progress have data in the granule
is open (log entry 66); descriptors of deques, headers and queue are the same afterwards. The offset is that of the damaged
granule itself, so that a word of a replacement is handled by the region it serves (DEDUCED, log entry 67). -/
def Mach.sramFault (m : Mach) (k off : Nat) : Mach :=
  let gr := off / 256
  if (m.cluster k).retired.contains gr then m
  else
    let home := (m.cluster k).serves gr
    let m := m.modCluster k (fun c => c.retire gr)
    let m := m.put (K.RD_CL_SRAM_RETIRED k) (min 255 (m.g (K.RD_CL_SRAM_RETIRED k) + 1))
    let m := m.raise 0x2404 [k, off / 256 * 256]
    let m :=
      if home < 0x400 then (m.modCluster k (fun c => { c with reloading := true })).reissueRunning k
      else if stagingGranule ≤ home then
        upto 17 m (fun m n =>
          if ((m.cluster k).cloves.getD n { state := .off }).cur.isNone then m
          else match m.freeBelow 2 with
            | (0, m) => m
            | (_, m) => m.reissueCur k n)
      else m
    (((m.clusterHealth k).pump).runCluster k)

/-- SRAM_WORD_UNCORRECTABLE (R69): the word's byte offset in the cluster's SRAM. -/
def execSramWordUncorrectable (cl off : Nat) (s : State) : Host.Outcome State Fault Refusal :=
  done s fun _ m => if cl < m.nClusters ∧ off < 0x100000 then m.sramFault cl off else m

/-- KERNEL_IMAGE_RELOADED (R69): the cloves take bands again. -/
def execKernelImageReloaded (cl : Nat) (s : State) : Host.Outcome State Fault Refusal :=
  done s fun _ m =>
    if (m.cluster cl).reloading then
      (m.modCluster cl (fun c => { c with reloading := false
                                          cloves := c.cloves.map (fun v => { v with lastMark := m.time }) })).runCluster cl
    else m

/-! ### Headroom, R65 -/

/-- Line rate in lines/s of a printing thermal item, to the nearest: the speed its feed plans now; of a station without a feed axis
the planned speed of the segment its lead head has reached (R65; DESIGN CHOICE, log entry 69). -/
def Mach.lineRate (m : Mach) (it : Item) : Nat :=
  match m.feedAxis it.station with
  | none =>
    let x := m.head (it.heads.headD 0)
    roundDiv (it.plan.speeds.getD (x.nextLine / 64) 0 * 100000) (max 1 (m.h (K.TH_LINE_NM it.station)))
  | some a =>
    let p := m.posPerLine it.station
    if p = 0 then 0 else (roundRat ((m.axis a).vel / p)).toNat

/-- Render demand in MAC/s (R65). rates are the pixel rates the pipelines run at, in pixels per second. Of several pages PRINTING the
first counts, as SL is one station (DESIGN CHOICE, log entry 69). -/
def Mach.renderDemand (m : Mach) (rates : List Nat) : Nat :=
  let th := (m.items.filter (fun it => it.state == .printing && !it.isSL)).foldl (fun a it =>
    a + it.heads.foldl (fun b h => b + m.headDots h * m.lineRate it
      * (32 + 10 * fld (Store.get objDefault (K.HP_MODEL_CLASS h it.mediaClass) it.snap) 0 1)) 0) 0
  let sl := match m.printingItem 4 with
    | some it => it.width * roundDiv (m.h K.LS_PROC_SPEED * m.h K.LS_DPI) 254 * m.beams * 8
    | none => 0
  let ins := (List.range m.nPipes).foldl (fun a p =>
    if m.isUp (rdyPipe p) then a + rates.getD p 0 * 16 else a) 0
  th + sl + ins

/-- HEADROOM_RECOMPUTE (R65). -/
def execHeadroomRecompute (rates : List Nat) (s : State) : Host.Outcome State Fault Refusal :=
  done s fun _ m =>
    let d := m.renderDemand rates
    let cap := m.clovesInService * m.cloveRate * 1000000
    let v := if d = 0 then 0xFFFF else let r := cap * 100 / d; if 65534 ≤ r then 0xFFFE else r
    let old := m.g K.RD_HEADROOM
    let w := m.g K.RD_HEADROOM_WARN
    (m.put K.RD_HEADROOM v).raiseIf (w ≤ old && decide (v < w)) 0x2407 [v]

/-! ### Cluster control, R71 -/

/-- When a draining cluster holds nothing any more it reads OFF (R71). -/
def Mach.drained (m : Mach) (k : Nat) : Bool :=
  let c := m.cluster k
  c.phase == .draining && c.queue == [] && c.cloves.all (fun v => v.cur.isNone && v.deque == [])

/-- DRAIN: no injections, no steals; entries go back for the other clusters (R71). -/
def Mach.clusterDrain (m : Mach) (k : Nat) : WriteResult :=
  if m.ready (rdyCluster k) ≠ vReady ∧ m.ready (rdyCluster k) ≠ vDegraded then refuseState m
  else
    let m := (m.modCluster k (fun c => { c with phase := .draining })).setCluster k vUpdating
    (((m.returnEntries k).regenerate).pump, .ok)

/-- LOAD (R71): from OFF or FAULT; RD_CL_IMAGE_SEL is read now (R75). -/
def Mach.clusterLoad (m : Mach) (k : Nat) : WriteResult :=
  if m.ready (rdyCluster k) ≠ vOff ∧ m.ready (rdyCluster k) ≠ vFault then refuseState m
  else ((m.modCluster k (fun c => { c with phase := .copying, loadSel := m.g (K.RD_CL_IMAGE_SEL k) })).setCluster k vUpdating, .ok)

/-- RESUME (R71): from OFF with a verified kernel. -/
def Mach.clusterResume (m : Mach) (k : Nat) : WriteResult :=
  if m.ready (rdyCluster k) ≠ vOff ∨ (m.cluster k).verified = false then refuseState m
  else
    let n := ((m.cluster k).cloves.filter (fun v => v.state == .inService)).length
    let m := m.modCluster k (fun c => { c with phase := .idle, cloves := c.cloves.map (fun v => { v with lastMark := m.time }) })
    let m := m.setCluster k (if n = 0 then vFault else if n < 16 ∨ 32 ≤ (m.cluster k).retired.length then vDegraded else vReady)
    (m.regenerate.pump, .ok)

/-- Effect of a write of RD_CL_CTRL (R71). -/
def wClusterCtrl (k v : Nat) (m : Mach) : WriteResult :=
  match v with
  | 1 => m.clusterDrain k
  | 2 => m.clusterLoad k
  | 3 => m.clusterResume k
  | _ => refuseState m

/-- CLUSTER_DRAIN (R71): RD_CL_CTRL 1. -/
def execClusterDrain (cl : Nat) (s : State) : Host.Outcome State Fault Refusal :=
  done s fun _ m => m.hostWrite (K.RD_CL_CTRL cl) (leBytes 1 1) (fun _ m => m.clusterDrain cl)

/-- CLUSTER_DRAINED (R71): the cluster is empty and reads OFF. -/
def execClusterDrained (cl : Nat) (s : State) : Host.Outcome State Fault Refusal :=
  done s fun _ m => if m.drained cl then (m.modCluster cl (fun c => { c with phase := .idle })).setCluster cl vOff else m

/-- CLUSTER_LOAD (R71): RD_CL_CTRL 2. -/
def execClusterLoad (cl : Nat) (s : State) : Host.Outcome State Fault Refusal :=
  done s fun _ m => m.hostWrite (K.RD_CL_CTRL cl) (leBytes 1 2) (fun _ m => m.clusterLoad cl)

/-- CLUSTER_RESUME (R71): RD_CL_CTRL 3. -/
def execClusterResume (cl : Nat) (s : State) : Host.Outcome State Fault Refusal :=
  done s fun _ m => m.hostWrite (K.RD_CL_CTRL cl) (leBytes 1 3) (fun _ m => m.clusterResume cl)

/-- The cloves after a self-test in which those of the mask fail (R71): fenced cloves that fail stay fenced, others that
fail read OFF; on the MP-6440 a passing spare takes the place it held or that of the lowest clove not in service. RD_CL_SPARE of a
spare that fails without having been fenced shows 0xFF, since 0xFE stands for a fenced one (DESIGN CHOICE, log entry 68). -/
def selfTestCloves (spares : Bool) (spareOf failed now : Nat) (cs : List Clove) : List Clove × Nat :=
  let base := cs.mapIdx (fun n v =>
    let pass := !(bit failed n)
    let st : CloveState := if n = 16 then v.state
      else if pass then .inService else match v.state with
        | .fencedHang => .fencedHang | .fencedParity => .fencedParity | _ => .off
    { v with state := st, cur := none, deque := [], front := 0, lastMark := now, loading := false })
  if !spares then (base, 0xFF)
  else
    let down := (List.range 16).filter (fun n => match base[n]? with | some v => v.state != .inService | none => false)
    let old := (cs.getD 16 { state := .off }).state
    if bit failed 16 then
      (base.modify 16 (fun v => { v with state := if old == .fencedHang || old == .fencedParity then old else .off }),
        if old == .fencedHang || old == .fencedParity then 0xFE else 0xFF)
    else
      match (if down.contains spareOf then some spareOf else down.head?) with
      | none => (base.modify 16 (fun v => { v with state := .standby }), 0xFF)
      | some n => (base.modify 16 (fun v => { v with state := .inService }), n)

/-- CLUSTER_SELF_TEST_DONE (R71). failed is the mask of cloves that did not pass. -/
def execClusterSelfTestDone (cl failed : Nat) (s : State) : Host.Outcome State Fault Refusal :=
  done s fun _ m =>
    let c := m.cluster cl
    if c.phase != .selfTest then m
    else
      let (cs, sp) := selfTestCloves m.hasSpares c.spareOf failed m.time c.cloves
      let m := m.modCluster cl (fun c => { c with
        cloves := cs, spareOf := sp, phase := .idle, retired := [], replaced := [], reloading := false
        verified := true, gen := c.loadGen })
      let m := m.put (K.RD_CL_SRAM_RETIRED cl) 0
      let n := (cs.filter (fun v => v.state == .inService)).length
      (((m.setCluster cl (if n = 0 then vFault else if n < 16 then vDegraded else vReady)).regenerate).pump)

/-- Effect of a write of RD_GEN_SELECT (R72): items whose generation no cluster holds start again under it (R73). -/
def wGenSelect (v : Nat) (m : Mach) : WriteResult :=
  if (List.range m.nClusters).any (fun k => m.isUp (rdyCluster k) && (m.cluster k).gen == v)
  then ((m.put K.RD_GEN_SELECT v).regenerate.pump, .ok) else refuseRange m

/-- RD_GEN_SELECT (R72). -/
def execRdGenSelect (gen : Nat) (s : State) : Host.Outcome State Fault Refusal :=
  done s fun _ m => m.hostWrite K.RD_GEN_SELECT (leBytes 4 gen) wGenSelect

end Sys2Proof.Machine
end

