-- ==== Sys2Proof/Machine/Heads.lean ====
section
/-! DEFINITION. The commands of the head ports: mode, triggers, trim, pepper timer, insertion and removal, tandem restore
(R93-R97, R101, R106, R115-R122), and the resistance scan (R126-R136). -/

namespace Sys2Proof.Machine

open Sys2Proof

/-! ### Trim, R95, R96 -/

/-- A trim bound: refused when the lower would exceed the upper; frozen blocks resume (R95). -/
def wTrimBound (h : Nat) (upper : Bool) (v : Nat) (m : Mach) : WriteResult :=
  let m' := m.put (if upper then K.HP_TRIM_UPPER h else K.HP_TRIM_LOWER h) v
  if m'.gi 16 (K.HP_TRIM_UPPER h) < m'.gi 16 (K.HP_TRIM_LOWER h) then refuseRange m else (m'.resumeTrim h, .ok)

/-- HP_TRIM_BOUNDS (R95). -/
def execHpTrimBounds (hp : Nat) (upper : Bool) (v : Nat) (s : State) : Host.Outcome State Fault Refusal :=
  done s fun _ m => m.hostWrite (if upper then K.HP_TRIM_UPPER hp else K.HP_TRIM_LOWER hp) (leBytes 2 v) (wTrimBound hp upper)

/-- HP_TRIM_UNFREEZE (R95). -/
def execHpTrimUnfreeze (hp v : Nat) (s : State) : Host.Outcome State Fault Refusal :=
  done s fun _ m => m.hostWrite (K.HP_TRIM_UNFREEZE hp) (leBytes 1 v) (onOne (fun m => m.resumeTrim hp))

/-- THERMISTOR_STALE (R96): a thermistor of the item being fired without a valid result for longer than THM_STALE raises
event base + 0x42, once until a valid result has been used. -/
def execThermistorStale (hp thm : Nat) (s : State) : Host.Outcome State Fault Refusal :=
  done s fun _ m =>
    let x := m.head hp
    match x.thmBad.getD thm none, m.item? (m.g (K.HP_ITEM hp)) with
    | some t, some it =>
      if !(x.thmRaised.getD thm false) && decide (t + 1000 * it.s (K.THM_STALE hp) < m.time) && decide (thm < it.s (K.THM_COUNT hp)) then
        (m.modHead hp (fun x => { x with thmRaised := x.thmRaised.set thm true })).raiseHp hp 0x42 [thm]
      else m
    | _, _ => m

/-! ### Mode, R101 -/

/-- The settings read at an enable (R101). -/
def hpConfigKeys (h : Nat) : List Nat :=
  [K.HP_LANES h, K.HP_LANE_MAP h, K.HP_SHIFT_ORDER h, K.HP_CMOS_DIV h, K.HP_LVDS_RATE h, K.HP_DOTS h, K.HP_PITCH h,
   K.HP_POLARITY h, K.HP_LATCH_WIDTH h, K.HP_LATCH_SETUP h, K.HP_STROBE_GAP h]

/-- Enable a port with a mode: HP_CONFIG is read; a seated head runs R120 from step 1. -/
def Mach.portEnable (m : Mach) (h v : Nat) : Mach :=
  let m := (m.put (K.HP_MODE h) v).sample (hpConfigKeys h)
  let m := m.put (K.HP_LOAD_TIME h) (m.loadTime h)
  if (m.head h).presN then m.refreshHead h else m.fitStart h

/-- Disable a port: outputs low, supply off, OFF. -/
def Mach.portDisable (m : Mach) (h : Nat) : Mach :=
  let m := (m.strobesOff h).modHead h (fun x => { x with
    fit := .none, pwrEn := false, pwrFell := if x.pwrEn then some m.time else x.pwrFell
    armed := false, off := none, due := [], firing := none, suspended := false, scan := { classes := x.scan.classes } })
  (m.puts [(K.HP_MODE h, 0), (K.HP_SCAN_NEXT h, 0)]).refreshHead h

/-- HP_MODE (R101). -/
def wHpMode (h v : Nat) (m : Mach) : WriteResult :=
  let old := m.g (K.HP_MODE h)
  if v = old then (m, .ok)
  else if old ≠ 0 ∧ v ≠ 0 then refuseState m
  else if v = 0 then (if m.portBusy h then refuseState m else (m.portDisable h, .ok))
  else if v = 1 ∧ 8 < m.g (K.HP_LANES h) then refuseRange m
  else (m.portEnable h v, .ok)

/-- HP_MODE (R101). -/
def execHpMode (hp v : Nat) (s : State) : Host.Outcome State Fault Refusal :=
  done s fun _ m => m.hostWrite (K.HP_MODE hp) (leBytes 1 v) (wHpMode hp)

/-! ### Pepper timer, R115, R116 -/

/-- PEPPER_ON_TIME_TRIP (R115): an output was on for longer than HP_PEPPER_ON_LIMIT. -/
def execPepperOnTimeTrip (hp group : Nat) (s : State) : Host.Outcome State Fault Refusal :=
  done s fun _ m => if hp < m.nHeads then m.pepperTrip hp 1 group else m

/-- PEPPER_DUTY_TRIP (R115): the duty of an output over 10 ms exceeded the limit; a limit of 100 % never trips. -/
def execPepperDutyTrip (hp group : Nat) (s : State) : Host.Outcome State Fault Refusal :=
  done s fun _ m => if hp < m.nHeads ∧ m.g (K.HP_PEPPER_DUTY_LIMIT hp) < 100 then m.pepperTrip hp 2 group else m

/-- Release the pepper latch (R116). -/
def Mach.pepperClear (m : Mach) (h : Nat) : Mach :=
  if !(m.head h).pepper then m
  else
    let m := (m.modHead h (fun x => { x with pepper := false, strobes := [] })).put (K.HP_PEPPER_STATE h) 0
    (m.refreshHead h).raiseHp h 0x0A []

/-- HP_PEPPER_CLEAR (R116). -/
def execHpPepperClear (hp v : Nat) (s : State) : Host.Outcome State Fault Refusal :=
  done s fun _ m => m.hostWrite (K.HP_PEPPER_CLEAR hp) (leBytes 1 v) (onOne (fun m => m.pepperClear hp))

/-- The highest duty since the last read; the read starts a new measurement (R123). -/
def Mach.dutyRead (m : Mach) (h : Nat) : Mach := m.put (K.HP_PEPPER_DUTY_MAX h) 0

/-- HP_PEPPER_DUTY_MAX (R123): a read. -/
def execHpPepperDutyMax (hp : Nat) (s : State) : Host.Outcome State Fault Refusal :=
  done s fun _ m => m.hostRead (K.HP_PEPPER_DUTY_MAX hp) (fun m => m.g (K.HP_PEPPER_DUTY_MAX hp)) (fun m => m.dutyRead hp)

/-! ### Removal and insertion, R118-R122 -/

/-- HEAD_REMOVED (R118): PRES_N has been high for 2 µs. In steps 1-2 of R120 a head not yet identified only returns the sequence to
waiting for its edge; one identified before the port was last enabled is removed (DEDUCED, log entry 100). -/
def execHeadRemoved (hp : Nat) (s : State) : Host.Outcome State Fault Refusal :=
  done s fun _ m =>
    if m.nHeads ≤ hp then m
    else match (m.head hp).fit with
      | .none => if (m.head hp).presN then m else m.removeHead hp
      | .seen =>
        if (m.head hp).idKnown then m.removeHead hp
        else ((m.modHead hp (fun x => { x with presN := true, fit := .none })).put (K.HP_PRESENT hp) 0).refreshHead hp
      | .powered => m.removeHead hp
      | .reading => m.removeHead hp
      | .waitRetry => m.removeHead hp
      | .scanning => m.removeHead hp
      | .done => m.removeHead hp
      | .failed => m.removeHead hp

/-- HEAD_PRESENT_EDGE (R120): PRES_N goes low. -/
def execHeadPresentEdge (hp : Nat) (s : State) : Host.Outcome State Fault Refusal :=
  done s fun _ m =>
    if m.nHeads ≤ hp then m
    else
      let m := (m.modHead hp (fun x => { x with presN := false, presSince := m.time })).put (K.HP_PRESENT hp) 1
      let f := (m.head hp).fit
      if m.g (K.HP_MODE hp) ≠ 0 ∧ (f = .none ∨ f = .seen) then m.fitStart hp else m

/-- HEAD_POWER_ENABLE (R120 step 2). -/
def execHeadPowerEnable (hp : Nat) (s : State) : Host.Outcome State Fault Refusal :=
  done s fun _ m =>
    let x := m.head hp
    if x.fit = .seen ∧ x.fitEdge + 50000 ≤ m.time then m.modHead hp (fun x => { x with fit := .powered, pwrEn := true }) else m

/-- HEAD_ID_READ_START (R120 step 3). An HP_ID_LEN of 0 skips the read. -/
def execHeadIdReadStart (hp : Nat) (s : State) : Host.Outcome State Fault Refusal :=
  done s fun _ m =>
    let x := m.head hp
    if x.fit = .powered ∧ x.fitEdge + 70000 ≤ m.time then
      if m.h (K.HP_ID_LEN hp) = 0 then m.headFitted hp [] else m.modHead hp (fun x => { x with fit := .reading })
    else m

/-- HEAD_ID_READ_DONE (R120 step 4, R121): the read ends, with HP_ID_LEN bytes or without an acknowledge. -/
def execHeadIdReadDone (hp : Nat) (ack : Bool) (data : List Byte) (s : State) : Host.Outcome State Fault Refusal :=
  done s fun _ m =>
    let x := m.head hp
    if x.fit ≠ .reading then m
    else if ack then (if data.length = m.h (K.HP_ID_LEN hp) then m.headFitted hp data else m)
    else if x.idTries < 3 then
      m.modHead hp (fun x => { x with fit := .waitRetry, idTries := x.idTries + 1, fitNext := m.time + 10000 })
    else
      let m := (m.modHead hp (fun x => { x with
        fit := .failed, idKnown := false, pwrEn := false, pwrFell := some m.time })).raiseHp hp 0x08 []
      (m.refreshHead hp).partnerLost dscHead hp 0 0

/-- HEAD_ID_READ_RETRY (R120): 10 ms after a failed attempt. -/
def execHeadIdReadRetry (hp : Nat) (s : State) : Host.Outcome State Fault Refusal :=
  done s fun _ m =>
    let x := m.head hp
    if x.fit = .waitRetry ∧ x.fitNext ≤ m.time then m.modHead hp (fun x => { x with fit := .reading }) else m

/-- TH_TANDEM_RESTORE (R122). -/
def wTandemRestore (st v : Nat) (m : Mach) : WriteResult :=
  let ports := m.stationPorts st
  if v ≠ 1 then (m, .ok)
  else if m.g (K.TH_ST_MODE st) ≠ 2 ∨ ports.any (fun h => !(m.isUp (rdyHead h))) then refuseState m
  else
    let m := m.puts [(K.TH_ST_MODE st, 1), (K.TH_ST_ACTIVE_PORTS st, m.h (K.TH_PORTS st))]
    let m := ((m.raiseTh st 0x02 []).refreshStations).restartHeads st
    (ports.foldl Mach.refreshHead m, .ok)

/-- TH_TANDEM_RESTORE (R122). -/
def execThTandemRestore (st v : Nat) (s : State) : Host.Outcome State Fault Refusal :=
  done s fun _ m => m.hostWrite (K.TH_TANDEM_RESTORE st) (leBytes 1 v) (wTandemRestore st)

/-! ### Dots, R126-R136 -/

/-- SCAN_STEP_START (R126, R127). -/
def execScanStepStart (hp : Nat) (s : State) : Host.Outcome State Fault Refusal :=
  done s fun _ m => if hp < m.nHeads then m.scanStart hp else m

/-- SCAN_STEP_END (R128-R130). -/
def execScanStepEnd (hp : Nat) (s : State) : Host.Outcome State Fault Refusal :=
  done s fun _ m => if hp < m.nHeads ∧ (m.head hp).scan.stepEnd ≤ m.now10 then m.scanEnd hp else m

/-- Copy HP_DOT_MEASURED to HP_DOT_REF (R129). -/
def Mach.dotRefTake (m : Mach) (h : Nat) : Mach := m.put (K.HP_DOT_REF h) (m.g (K.HP_DOT_MEASURED h))

/-- HP_DOT_REF_TAKE (R129). -/
def execHpDotRefTake (hp v : Nat) (s : State) : Host.Outcome State Fault Refusal :=
  done s fun _ m => m.hostWrite (K.HP_DOT_REF_TAKE hp) (leBytes 1 v) (onOne (fun m => m.dotRefTake hp))

/-- HP_DOT_MAP (R132, R136, R92): an entry of CLASS 6 or 7 is refused; the bytes beyond HP_DOTS (as written while the port is off, as
in use while it is enabled: DEDUCED, log entry 102) are ignored. -/
def wDotMap (h v : Nat) (m : Mach) : WriteResult :=
  if (List.range (if m.g (K.HP_MODE h) = 0 then m.g (K.HP_DOTS h) else m.headDots h)).any (fun d => decide (6 ≤ dotClass v d)) then refuseRange m
  else (((((m.put (K.HP_DOT_MAP h) v).showDrift h).refreshPair h).mapTaken h).dotDataWritten h, .ok)

/-- HP_DOT_MAP (R132). -/
def execHpDotMap (hp : Nat) (data : List Byte) (s : State) : Host.Outcome State Fault Refusal :=
  done s fun _ m => m.hostWrite (K.HP_DOT_MAP hp) data (wDotMap hp)

/-- A hiding limit: 0 HP_HIDE_RUN_MAX, 1 HP_DEAD_LIMIT. -/
def hidingLimitKey (h which : Nat) : Nat := if which = 0 then K.HP_HIDE_RUN_MAX h else K.HP_DEAD_LIMIT h

/-- A write of a hiding limit re-evaluates the port (R136). -/
def wHidingLimit (h which v : Nat) (m : Mach) : WriteResult := ((m.put (hidingLimitKey h which) v).refreshPair h, .ok)

/-- DOT_HIDING_LIMITS_WRITE (R136). -/
def execDotHidingLimitsWrite (hp which v : Nat) (s : State) : Host.Outcome State Fault Refusal :=
  done s fun _ m => m.hostWrite (hidingLimitKey hp which) (leBytes (if which = 0 then 1 else 2) v) (wHidingLimit hp which)

/-- RENDER_INPUT_WRITE (R92): a write of one of the inputs R92 names. A write of another sub-index is not this command:
it is answered as refused. -/
def execRenderInputWrite (index sub : Nat) (data : List Byte) (s : State) : Host.Outcome State Fault Refusal :=
  done s fun _ m =>
    let k := index * 256 + sub
    m.hostWrite k data (if !(renderInput k) then fun _ m => (m, .refused)
      else if index < 0x2700 ∧ (index - 0x2500) % 0x80 = 0x11 then wDotMap ((index - 0x2500) / 0x80) else wRenderInput k)

/-! ### Calibration sets, R138-R145 -/

/-- A set's record completed with its CRC (R141). -/
def calSealed (x : Nat) : Nat := setFld x 0xFC 4 (crc32 (leBytes 0xFC x))

/-- Put a record into force as a working copy: items RENDERING that name the set restart (R143). -/
def Mach.calPut (m : Mach) (set x : Nat) : Mach :=
  let m := { m with calSets := m.calSets.set set (calSealed x) }
  ((m.items.filter (fun it => it.state == .rendering && it.calSet == set)).foldl Mach.restartWrite m).pump

/-- SET (R143): the stage becomes the working copy; SET_SEQ is kept and WRITTEN is now. -/
def Mach.calSet (m : Mach) : Mach :=
  let n := m.g K.TH_CAL_SELECT
  let old := m.calSets.getD n 0
  m.calPut n (setFld (setFld (m.g K.TH_CAL_STAGE) 0 4 (fld old 0 4)) 8 8 m.time)

/-- LOAD (R145): the working copy goes to the stage. -/
def Mach.calLoad (m : Mach) : Mach := m.put K.TH_CAL_STAGE (m.calSets.getD (m.g K.TH_CAL_SELECT) 0)

/-- STORE (R142): programming of the selected set, as it stands now, begins after those stored before it. -/
def Mach.calStore (m : Mach) : Mach :=
  let n := m.g K.TH_CAL_SELECT
  if m.calBlocked then (m.put K.TH_CAL_STORE_STATE 3).raise 0x2782 [n]
  else { m.put K.TH_CAL_STORE_STATE 1 with calStoring := m.calStoring ++ [(n, m.calSets.getD n 0)] }

/-- TH_CAL_CTRL (R145). -/
def wCalCtrl (v : Nat) (m : Mach) : WriteResult :=
  match v with
  | 1 => (m.calLoad, .ok)
  | 2 => (m.calSet, .ok)
  | 3 => (m.calStore, .ok)
  | 4 => (m.calSet.calStore, .ok)
  | _ => refuseRange m

/-- CAL_LOAD (R145): TH_CAL_CTRL 1. -/
def execCalLoad (s : State) : Host.Outcome State Fault Refusal :=
  done s fun _ m => m.hostWrite K.TH_CAL_CTRL (leBytes 1 1) wCalCtrl

/-- CAL_SET (R143): TH_CAL_CTRL 2. -/
def execCalSet (s : State) : Host.Outcome State Fault Refusal :=
  done s fun _ m => m.hostWrite K.TH_CAL_CTRL (leBytes 1 2) wCalCtrl

/-- CAL_STORE (R142): TH_CAL_CTRL 3. -/
def execCalStore (s : State) : Host.Outcome State Fault Refusal :=
  done s fun _ m => m.hostWrite K.TH_CAL_CTRL (leBytes 1 3) wCalCtrl

/-- CAL_SET_THEN_STORE (R145): TH_CAL_CTRL 4. -/
def execCalSetThenStore (s : State) : Host.Outcome State Fault Refusal :=
  done s fun _ m => m.hostWrite K.TH_CAL_CTRL (leBytes 1 4) wCalCtrl

/-- CAL_STORE_DONE (R142): the oldest STORE ends: its record, with SET_SEQ one higher than the set's, is in flash and in force; or it
failed. The working copy takes the new SET_SEQ; a SET since keeps its other fields (DEDUCED, log entry 102). -/
def execCalStoreDone (ok : Bool) (s : State) : Host.Outcome State Fault Refusal :=
  done s fun _ m =>
    match m.calStoring with
    | [] => m
    | (n, x) :: rest =>
      let m := { m with calStoring := rest }
      if ok then
        let w := m.calSets.getD n 0
        let seq := fld w 0 4 + 1
        let x := calSealed (setFld x 0 4 seq)
        let m := { m with calSets := m.calSets.set n (calSealed (setFld w 0 4 seq)), calFlash := m.calFlash.set n x }.calStored n x
        ((m.put K.TH_CAL_STORE_STATE (if rest = [] then 2 else 1)).raise 0x2781 [n]).flashStart
      else (m.put K.TH_CAL_STORE_STATE (if rest = [] then 3 else 1)).raise 0x2782 [n]

/-- TH_CAL_ITEM (R138): arms; a measurement in progress is abandoned. An item already defined whose station has no
optical gate fails it with code 3. -/
def wCalItem (v : Nat) (m : Mach) : WriteResult :=
  let m := m.puts [(K.TH_CAL_ITEM, v), (K.TH_CAL_STATE, 1), (K.TH_CAL_FAIL, 0)]
  match m.item? v with
  | none => (m, .ok)
  | some it => if m.calGate it then (m, .ok) else (m.calFail 3, .ok)

/-- TH_CAL_ITEM (R138). -/
def execThCalItem (v : Nat) (s : State) : Host.Outcome State Fault Refusal :=
  done s fun _ m => m.hostWrite K.TH_CAL_ITEM (leBytes 2 v) wCalItem

/-- Subtract lists of INTEGER16 records. -/
def sub16 (n a b : Nat) : Nat := packLe 2 ((List.range n).map (fun i => ofInt 16 (sfld a (2 * i) 2 - sfld b (2 * i) 2)))

/-- TH_CAL_APPLY (R140): the latest DONE result goes to the station objects or the named set. -/
def wCalApply (v : Nat) (m : Mach) : WriteResult :=
  if m.g K.TH_CAL_STATE ≠ 3 then refuseState m
  else
    let set := m.calSets.getD v 0
    let st := m.calResult.2.2
    match m.calResult.1 with
    | 2 =>
      let off := clampI 0 1048575 ((m.g (K.TH_TANDEM_OFFSET st) : Int) - m.gi 32 K.TH_CAL_TANDEM_ERR)
      ((m.put (K.TH_TANDEM_OFFSET st) off.toNat).restartStation st, .ok)
    | 3 =>
      let h := m.calResult.2.1
      let x := setFld set (0x10 + 2 * h) 2 (ofInt 16 (sfld set (0x10 + 2 * h) 2 + m.gi 16 K.TH_CAL_LAT))
      (m.calPut v (setFld x (0x18 + 2 * h) 2 (ofInt 16 (sfld x (0x18 + 2 * h) 2 + m.gi 16 K.TH_CAL_SKEW))), .ok)
    | 4 =>
      let x := setFld set 0x20 4 (ofInt 32 (sfld set 0x20 4 + m.gi 32 K.TH_CAL_REG_X))
      let x := setFld x 0x24 4 (ofInt 32 (sfld x 0x24 4 + m.gi 32 K.TH_CAL_REG_Y))
      (m.calPut v (setFld x 0x28 1 st), .ok)
    | 5 =>
      let f := sub16 12 (m.g K.LS_FACET_TABLE) (m.g K.TH_CAL_FACET)
      let b := sub16 8 (m.g K.LS_BEAM_OFFSET) (m.g K.TH_CAL_BEAM)
      let m := m.puts [(K.LS_FACET_TABLE, f), (K.LS_BEAM_OFFSET, b)]
      (m.calPut v (setFld (setFld set 0x30 24 f) 0x48 16 b), .ok)
    | _ => (m, .ok)

/-- TH_CAL_APPLY (R140). -/
def execThCalApply (v : Nat) (s : State) : Host.Outcome State Fault Refusal :=
  done s fun _ m => m.hostWrite K.TH_CAL_APPLY (leBytes 1 v) wCalApply

end Sys2Proof.Machine
end

