-- ==== Sys2Proof/Machine/Inspect.lean ====
section
/-! DEFINITION. The commands of the camera ports, pipelines and inspections (R274-R297). -/

namespace Sys2Proof.Machine

open Sys2Proof

/-! ### Trigger positions, R287 -/

/-- The SL sheet a camera's source is measured on: the furthest sheet whose trailing edge has not passed CP_VIEW_DIST (DEDUCED, log entry
184), with its position 16 × (e - CP_VIEW_DIST) / pitch in 1/16 scan line. -/
def Mach.sheetSource (m : Mach) (p : Nat) : Option (Nat × Int) :=
  let v : Rat := (m.hi 32 (K.CP_VIEW_DIST p) : Rat)
  let cands := m.sl.sheets.filter (fun x => decide (m.sheetPos x - (x.length : Rat) < v))
  (cands.foldl (fun (a : Option SheetRt) x => match a with
    | none => some x
    | some y => if m.sheetPos y < m.sheetPos x then some x else a) none).map (fun x =>
      (x.item, (16 * (m.sheetPos x - v) * ((m.h K.LS_DPI : Nat) : Rat) / 254).floor))

/-- The exposure triggers of every port by its source. -/
def Mach.camTriggers (m : Mach) : Mach :=
  let m := upto m.nStations m (fun m st => m.camStation st)
  upto m.nCameras m (fun m p =>
    if m.gb (K.CP_ENABLE p) && m.h (K.CP_TRIG_SRC p) == 5 then
      match m.sheetSource p with
      | some (it, pos) => m.camSource p it pos 0
      | none => m
    else m)

/-- When the boundary of an inspected item's last line reaches the camera view (R289). -/
def Mach.inspBoundary (m : Mach) : Mach :=
  { m with insp := m.insp.map (fun (r : InspRun) =>
      match m.item? r.item with
      | none => r
      | some it =>
        if r.boundaryAt.isSome then r
        else
          let at_ : Bool :=
            if it.isSL then (match m.sl.sheets.find? (fun x => x.item == it.id) with
              | none => true
              | some x => decide (((it.length : Nat) : Rat) * 254 / ((max 1 (m.h K.LS_DPI) : Nat) : Rat) ≤ m.sheetPos x - (m.hi 32 (K.CP_VIEW_DIST r.port) : Rat)))
            else decide (r.line0 + 16 * (it.length : Int) ≤ m.linePos it.station - (if m.h (K.CP_TRIG_SRC r.port) = 0 then 0 else m.hi 32 (K.CP_VIEW_DIST r.port)))
              && (m.head (m.countingHead it)).pass + 1 == it.passes
          if at_ then { r with boundaryAt := some m.time } else r) }

/-- PLANNING_TICK (R229, R230, R246, R287): every 20 µs of device time, once. -/
def execPlanningTick (s : State) : Host.Outcome State Fault Refusal :=
  done s fun mem m =>
    if m.time % 20 ≠ 0 ∨ m.motion.lastTick = some m.time then m
    else ((upto 2 (m.tick mem) (fun m b => m.shortRegen b)).camTriggers).inspBoundary

/-- Place of a quadrature phase, A in bit 0 and B in bit 1, in the forward order 00, A, AB, B (R243). -/
def grayIndex (v : Nat) : Nat := match v with | 0 => 0 | 1 => 1 | 3 => 2 | _ => 3

/-- Phases the inputs of an encoder went on by, of 4: 1 is a count, 3 one in the other direction, 2 an illegal change (R243). -/
def grayMoved (old new : Nat) : Nat := (grayIndex new + 4 - grayIndex old) % 4

/-- ENCODER_COUNT_CHANGE (R243): accepted levels of A and B after a change, at a moment within the microsecond. The count moves by
one with A leading B as up (PRESUMED, log entry 150); a change of both levels is a transition error. -/
def execEncoderCountChange (qe : Nat) (a b : Bool) (phase : Nat) (s : State) : Host.Outcome State Fault Refusal :=
  done s fun _ m =>
    let old := m.motion.qePhase.getD qe 0
    let new := b2n a + 2 * b2n b
    let m := { m with motion := { m.motion with qePhase := m.motion.qePhase.set qe new } }
    if !(m.gb (K.QE_ENABLE qe)) then m
    else
      let t10 := m.now10 + phase
      let d := grayMoved old new
      if d = 0 then m
      else if d = 2 then
        let m := (m.count (K.QE_ERRORS qe)).raise 0x2A07 [qe]
        upto m.nAxes m (fun m n =>
          let x := m.axis n
          if x.enc = qe ∧ (x.followCheck = true ∨ x.kind = 3) then m.axStop n 4 else m)
      else
        let step : Int := if (d = 1) = (m.h (K.QE_INVERT qe) = 0) then 1 else -1
        let c := m.gi 32 (K.QE_COUNT qe)
        let m := { m with motion := { m.motion with
          qeHist := (t10, qe, c) :: m.motion.qeHist.filter (fun (e : Nat × Nat × Int) => decide (t10 < e.1 + 2000000)) } }
        let m := m.puti 32 (K.QE_COUNT qe) (c + step)
        let pos := m.gi 32 (K.QE_COUNT qe) * 65536
        let m := upto m.nStations m (fun m st =>
          if m.configured st && m.h (K.TH_TRIG_SRC st) == qe + 1 then (m.stationPorts st).foldl (fun m h => m.encoderAt h pos t10) m else m)
        (m.camTriggers).inspBoundary

/-! ### Ports, R276-R279 -/

/-- The keys a port reads when it is enabled (R297). -/
def camKeys (p : Nat) : List Nat :=
  [K.CP_LANES p, K.CP_RATE p, K.CP_CLK_MODE p, K.CP_TRIG_SRC p, K.CP_TRIG_PITCH p, K.CP_TRIG_WIDTH p, K.CP_VIEW_DIST p, K.CP_FRAME_NUM_SRC p]

/-- CP_ENABLE (R276, R278): the odd port of a 4-lane pair is refused; 0 turns the port off with its camera's supply. -/
def wCpEnable (p v : Nat) (m : Mach) : WriteResult :=
  if v = 1 then
    if p % 2 = 1 ∧ m.g (K.CP_LANES (p - 1)) = 4 then refuseState m
    else if m.gb (K.CP_ENABLE p) then accept m
    else (((m.sample (camKeys p)).put (K.CP_ENABLE p) 1).modCam p (fun _ => {}), .ok)
  else if !(m.gb (K.CP_ENABLE p)) then accept m
  else
    let m := if (m.cam p).receiving then (m.mark p mkNoFe).frameEnd p else m
    let m := m.modCam p (fun x => { x with step := .off, misses := 0, due := none, stamps := [], receiving := false, dropping := false })
    let m := ((m.puts [(K.CP_ENABLE p, 0), (K.CP_PRESENT p, 0)]).setCam p vOff).partnerLost dscCamera p 0 0
    (m.portRunsFail p, .ok)

/-- CP_ENABLE (R278). -/
def execCpEnable (cp v : Nat) (s : State) : Host.Outcome State Fault Refusal :=
  done s fun mem m => (m.hostWrite (K.CP_ENABLE cp) (leBytes 1 v) (wCpEnable cp)).inspSettle mem

/-- CAMERA_PROBE (R278, R279): the identity read, or none when it is not acknowledged. -/
def execCameraProbe (cp : Nat) (id : Option Nat) (s : State) : Host.Outcome State Fault Refusal :=
  done s fun mem m =>
    let x := m.cam cp
    let due := match x.probeAt with | none => true | some t => decide (t + 1000 * m.g (K.CP_PROBE_PERIOD cp) ≤ m.time)
    if !(m.gb (K.CP_ENABLE cp)) || !due then m
    else
      let m := m.modCam cp (fun x => { x with probeAt := some m.time })
      match id with
      | some v =>
        let m := (m.modCam cp (fun x => { x with misses := 0 })).put (K.CP_PRESENT cp) 1
        if m.g (K.CP_STATE cp) = vOff then m.camFit cp (v % 65536) else m
      | none =>
        let n := x.misses + 1
        let m := m.modCam cp (fun x => { x with misses := n })
        if n < 3 ∨ m.g (K.CP_PRESENT cp) = 0 then m else (m.camRemoved cp).inspSettle mem

/-- CAMERA_RESET_END (R278 step 3): 1 ms of reset and CP_RESET_WAIT have passed. -/
def execCameraResetEnd (cp : Nat) (s : State) : Host.Outcome State Fault Refusal :=
  done s fun _ m =>
    let x := m.cam cp
    if x.step = .reset ∧ x.fitAt + 1000 + 1000 * m.h (K.CP_RESET_WAIT cp) ≤ m.time then m.modCam cp (fun x => { x with step := .replay }) else m

/-- CP_INIT_REPLAY_DONE (R277, R278 step 4): the entry whose third try failed, or none. -/
def execCpInitReplayDone (cp : Nat) (fail : Option Nat) (s : State) : Host.Outcome State Fault Refusal :=
  done s fun _ m =>
    let x := m.cam cp
    let es := m.initEntries cp
    if x.step ≠ .replay then m
    else match fail with
      | some e =>
        if es.length ≤ e ∨ bit (fld (es.getD e 0) 1 1) 2 then m
        else ((m.modCam cp (fun x => { x with step := .failed })).setCam cp vFault).raise 0x2C07 [cp, e]
      | none =>
        if m.time < x.fitAt + 1000 + 1000 * m.h (K.CP_RESET_WAIT cp) + (es.map (fun e => fld e 6 2)).foldl (· + ·) 0 then m
        else m.modCam cp (fun x => { x with step := .armed, armedAt := m.time, startAt := none, noRef := true, high := none, stamps := [], due := none })

/-- Steps 2-5 of the fit sequence once more (R278, R279). -/
def Mach.camRepeat (m : Mach) (p : Nat) : Mach :=
  ((m.sample [K.CP_INIT p, K.CP_RESET_WAIT p]).modCam p (fun x => { x with step := .reset, fitAt := m.time, again := true })).setCam p vStarting

/-- FRAME_TIMEOUT (R278, R279): without an unmarked frame after arming, or without a frame start while frames are due. -/
def execFrameTimeout (cp : Nat) (s : State) : Host.Outcome State Fault Refusal :=
  done s fun mem m =>
    let x := m.cam cp
    let lim := 1000 * m.g (K.CP_FRAME_TIMEOUT cp)
    let since : Option Nat := if m.h (K.CP_TRIG_SRC cp) = 0 then some (max x.armedAt (x.startAt.getD 0)) else x.due
    let late := match since with | some t => decide (t + lim ≤ m.time) | none => false
    match x.step with
    | .armed =>
      if m.time < x.armedAt + lim then m
      else if !x.again then m.camRepeat cp
      else if late || x.startAt.isSome then (m.camFail cp).inspSettle mem else m
    | .ready => if late then m.camRepeat cp else m
    | _ => m

/-- CP_RESTART (R279): the fit sequence from step 1 of an enabled port. -/
def wCpRestart (p : Nat) : Nat → Mach → WriteResult :=
  onOne (fun m => if m.gb (K.CP_ENABLE p) then m.camFit p (m.g (K.CP_ID_READ p)) else m)

/-- CP_RESTART (R279). -/
def execCpRestart (cp v : Nat) (s : State) : Host.Outcome State Fault Refusal :=
  done s fun _ m => m.hostWrite (K.CP_RESTART cp) (leBytes 1 v) (wCpRestart cp)

/-- CP_BUF_PEAK (R297): a read returns the peak since the last read. -/
def rCpBufPeak (p : Nat) (m : Mach) : Mach := m.put (K.CP_BUF_PEAK p) (m.camFill p)

/-- CP_BUF_PEAK (R297). -/
def execCpBufPeak (cp : Nat) (s : State) : Host.Outcome State Fault Refusal :=
  done s fun _ m => m.hostRead (K.CP_BUF_PEAK cp) (fun m => m.g (K.CP_BUF_PEAK cp)) (rCpBufPeak cp)

/-! ### Packets, R275, R282, R284 -/

/-- CSI2_FRAME_START (R282): number, virtual channel and the header's check (0 right, 1 corrected, 2 uncorrectable). -/
def execCsi2FrameStart (cp num vc ecc : Nat) (s : State) : Host.Outcome State Fault Refusal :=
  done s fun mem m =>
    if !(m.camArmed cp) then m
    else
      let (m, used) := m.camHeader cp ecc
      if !used then m
      else
        let m := m.camTriggers
        let m := m.modCam cp (fun x => { x with lastNum := num })
        match m.camRecord cp with
        | some r =>
          if ctxVc r ≠ vc then m
          else if ctxLine r then m.modCam cp (fun x => { x with startAt := some m.time, due := none })
          else
            let m := if (m.cam cp).current.isSome then ((m.mark cp mkNoFe).frameEnd cp).inspSettle mem else m
            m.beginFrame mem cp num
        | none =>
          let m := if (m.cam cp).current.isSome then ((m.mark cp mkNoFe).frameEnd cp).inspSettle mem else m
          m.beginFrame mem cp num

/-- CSI2_LONG_PACKET (R275, R283, R284): a row's pixels, unpacked by its data type. -/
def execCsi2LongPacket (cp vc dt ecc : Nat) (crcBad : Bool) (pixels : List Nat) (s : State) : Host.Outcome State Fault Refusal :=
  done s fun mem m =>
    if !(m.camArmed cp) then m
    else
      let (m, used) := m.camHeader cp ecc
      match m.camRecord cp with
      | none => if used then m.rowPacket cp crcBad pixels else m
      | some r =>
        let m := if ctxLine r && (m.cam cp).current.isNone && !(m.cam cp).dropping && used then m.beginFrame mem cp (m.cam cp).lastNum else m
        if !used then
          (match (m.cam cp).current with
           | some f => if f.rows.length < ctxHeight r then m.addRow cp f none else m
           | none => m)
        else if ctxVc r ≠ vc ∨ dt ≠ 0x2A + ctxFormat r then m
        else (m.rowPacket cp crcBad pixels).inspSettle mem

/-- CSI2_FRAME_END (R284, R278 step 5, R279). -/
def execCsi2FrameEnd (cp vc ecc : Nat) (s : State) : Host.Outcome State Fault Refusal :=
  done s fun mem m =>
    if !(m.camArmed cp) then m
    else
      let (m, used) := m.camHeader cp ecc
      if !used || !(m.cam cp).receiving then m
      else match m.camRecord cp with
        | some r =>
          if ctxVc r ≠ vc ∨ ctxLine r then m
          else
            let short := match (m.cam cp).current with | some f => decide (f.rows.length < ctxHeight f.record) | none => false
            ((if short then m.mark cp mkShort else m).frameEnd cp).inspSettle mem
        | none => m.frameEnd cp

/-! ### Pipelines, R280, R283, R285 -/

/-- The frames that wait for a pipeline: port and frame. -/
def Mach.waitingFrames (m : Mach) (i : Nat) : List (Nat × CamFrame) :=
  (List.range m.nCameras).filterMap (fun p =>
    ((m.cam p).frames.find? (fun f => f.ctx != 255 && f.ctx / 2 == i && !f.taken)).map (fun f => (p, f)))

/-- PIPELINE_FRAME_START (R283): the waiting frame with the earliest start, of the lower port when two are equal. -/
def execPipelineFrameStart (ip : Nat) (s : State) : Host.Outcome State Fault Refusal :=
  done s fun _ m =>
    if (m.pipe ip).cur.isSome then m
    else
      let best := (m.waitingFrames ip).foldl (fun (a : Option (Nat × CamFrame)) x => match a with
        | none => some x
        | some y => if x.2.tFs < y.2.tFs then some x else a) none
      match best with
      | none => m
      | some (p, f) =>
        let m := m.modCam p (fun x => { x with
          backlog := f.rows.length * ctxWidth f.record, backlogAt := m.time
          frames := (x.frames.takeWhile (fun y => y.taken || y != f)) ++ (match x.frames.dropWhile (fun y => y.taken || y != f) with
            | y :: l => { y with taken := true } :: l
            | [] => []) })
        (m.modPipe ip (fun x => { x with cur := some (p, m.time) })).put (K.IP_BUSY_CTX ip) (f.ctx % 2)

/-- PIPELINE_FRAME_DONE (R285, R286, R288): the taken frame has ended and its last row is processed. missing are the rows that
an uncorrectable word of the frame buffer has lost. -/
def execPipelineFrameDone (ip : Nat) (missing : List Nat) (s : State) : Host.Outcome State Fault Refusal :=
  done s fun mem m =>
    match (m.pipe ip).cur with
    | none => m
    | some (p, _) =>
      match (m.cam p).frames.find? (fun f => f.taken) with
      | none => m.pipeFree ip
      | some f =>
        if !f.ended ∨ m.backlog p ≠ 0 then m
        else
          let m := m.modCam p (fun x => { x with frames := x.frames.filter (fun y => !y.taken) })
          m.frameDone mem ip p f missing

/-- Whether an item assigned to a pipeline is PRINTING (R280). -/
def Mach.pipeBusy (m : Mach) (i : Nat) : Bool :=
  m.insp.any (fun r => r.pipe == i && (match m.item? r.item with | some it => it.state == .printing | none => false))

/-- IP_MODE and IP_CTX_ENABLE (R280). -/
def wPipe (i k v : Nat) (m : Mach) : WriteResult :=
  if m.pipeBusy i then refuseState m
  else
    let m' := m.put k v
    if !m'.pipeRules then refuseRange m else (m'.refreshPipes, .ok)

/-- IP_MODE (R280). -/
def execIpMode (ip v : Nat) (s : State) : Host.Outcome State Fault Refusal :=
  done s fun _ m => m.hostWrite (K.IP_MODE ip) (leBytes 1 v) (wPipe ip (K.IP_MODE ip))

/-- IP_CTX_ENABLE (R280). -/
def execIpCtxEnable (ip v : Nat) (s : State) : Host.Outcome State Fault Refusal :=
  done s fun _ m => m.hostWrite (K.IP_CTX_ENABLE ip) (leBytes 1 v) (wPipe ip (K.IP_CTX_ENABLE ip))

/-- IN_CTX_RECORD (R281): a checked record waits for the next frame of its context. -/
def wCtxRecord (c v : Nat) (m : Mach) : WriteResult :=
  if !(m.ctxOk v) then refuseRange m
  else (((m.put (K.IN_CTX_RECORD c) v).modCtx c (fun x => { x with fresh := true })).refreshPipes, .ok)

/-- IN_CTX_RECORD (R281). -/
def execInCtxRecord (ctx : Nat) (data : List Byte) (s : State) : Host.Outcome State Fault Refusal :=
  done s fun _ m => m.hostWrite (K.IN_CTX_RECORD ctx) data (wCtxRecord ctx)

/-! ### Inspection, R289, R295, R296 -/

/-- INSPECTION_TIMEOUT (R289): IN_CLOSE_TIMEOUT after the boundary of the last line reached the camera view. -/
def execInspectionTimeout (id : Nat) (s : State) : Host.Outcome State Fault Refusal :=
  done s fun mem m =>
    match m.insp.find? (fun r => r.item == id) with
    | some r =>
      match r.boundaryAt with
      | some t => if r.closed.isNone ∧ t + 1000 * m.g K.IN_CLOSE_TIMEOUT ≤ m.time then m.inspClose mem id 3 else m
      | none => m
    | none => m

/-- Frozen dots of a head resume (R25, R296). -/
def Mach.gainResume (m : Mach) (h : Nat) : Mach :=
  let x := m.head h
  let st := x.gainStatus
  let m := m.modHead h (fun x => { x with
    gainStatus := st.map (fun v => if v = 3 then 0 else v)
    gainPinned := (enumFrom 0 x.gainPinned).map (fun (p : Nat × Nat) => if st.getD p.1 0 = 3 then 0 else p.2) })
  m.gainStatus h

/-- IN_GAIN_UNFREEZE (R296). -/
def wGainUnfreeze (h : Nat) : Nat → Mach → WriteResult := onOne (fun m => m.gainResume h)

/-- IN_GAIN_UNFREEZE (R296). -/
def execInGainUnfreeze (hp v : Nat) (s : State) : Host.Outcome State Fault Refusal :=
  done s fun _ m => m.hostWrite (K.IN_GAIN_UNFREEZE hp) (leBytes 1 v) (wGainUnfreeze hp)

/-- HP_GAIN_RESET (R295): both copies 4,096 for every dot, every dot FREE. -/
def wGainReset (h : Nat) : Nat → Mach → WriteResult :=
  onOne (fun m =>
    let flat := packLe 2 (List.replicate 4096 4096)
    ((m.puts [(K.HP_GAIN_PUBLISHED h, flat), (K.IN_GAIN_PENDING h, flat)]).modHead h (fun x => { x with gainStatus := [], gainPinned := [] })).gainStatus h)

/-- HP_GAIN_RESET (R295). -/
def execHpGainReset (hp v : Nat) (s : State) : Host.Outcome State Fault Refusal :=
  done s fun _ m => m.hostWrite (K.HP_GAIN_RESET hp) (leBytes 1 v) (wGainReset hp)

/-- HP_GAIN_LOWER and HP_GAIN_UPPER (R25, R296): new bounds resume frozen dots; values move at their next update (R26). -/
def wGainBound (h k v : Nat) (m : Mach) : WriteResult := ((m.put k v).gainResume h, .ok)

/-- GAIN_BOUNDS_WRITE (R296). -/
def execGainBoundsWrite (hp : Nat) (upper : Bool) (v : Nat) (s : State) : Host.Outcome State Fault Refusal :=
  done s fun _ m =>
    let k := if upper then K.HP_GAIN_UPPER hp else K.HP_GAIN_LOWER hp
    m.hostWrite k (leBytes 2 v) (wGainBound hp k)

end Sys2Proof.Machine
end

