-- ==== Sys2Proof/Machine/Laser.lean ====
section
/-! DEFINITION. The commands of the laser station: scanner, SOS and EOS edges, interlock and beam power (R172-R190), process,
high voltage and fuser (R199-R210), and the sheet path (R212-R218). -/

namespace Sys2Proof.Machine

open Sys2Proof

/-! ### Scanner, R172-R177, R266 -/

/-- LS_SCAN_MODE (R172): 0 stops unless an SL item is ADMITTED or PRINTING; 2 starts a stopped scanner, and 1 does so while
an SL item is in the table in flight; a refused start leaves it STOPPED with event 0x2804. -/
def wScanMode (v : Nat) (m : Mach) : WriteResult :=
  if v = 0 then
    if m.slBusy then refuseState m else ((m.put K.LS_SCAN_MODE 0).scanStop, .ok)
  else
    let starts := m.scanState == scStopped && (v == 2 || m.itemsOf 4 (fun it => !it.final) != [])
    if starts && m.scanRefused then (m.raise 0x2804 [3], .range)
    else
      let m := m.put K.LS_SCAN_MODE v
      (if starts then m.scanBegin else m, .ok)

/-- LS_SCAN_MODE (R172). -/
def execLsScanMode (v : Nat) (s : State) : Host.Outcome State Fault Refusal :=
  done s fun _ m => m.hostWrite K.LS_SCAN_MODE (leBytes 1 v) wScanMode

/-- SCANNER_IDLE_STOP (R172): auto mode, LS_SCAN_IDLE after the last SL item left flight. -/
def execScannerIdleStop (s : State) : Host.Outcome State Fault Refusal :=
  done s fun _ m =>
    match m.scanRt.idleAt with
    | some t =>
      if m.g K.LS_SCAN_MODE = 1 ∧ [scSpinup, scLocking, scLocked].contains m.scanState
          ∧ t + 1000000 * m.g K.LS_SCAN_IDLE ≤ m.time then m.scanStop else m
    | none => m

/-- SCANNER_AT_LOCK_SPEED (R173): the estimated speed reaches 95 % of the target. -/
def execScannerAtLockSpeed (s : State) : Host.Outcome State Fault Refusal :=
  done s fun _ m =>
    if m.scanState = scSpinup then
      (m.modScan (fun x => { x with searchAt := m.time, pausedAt := none, acquired := false, found := false, intervals := List.replicate 12 none })).setScan scLocking
    else m

/-- SOS_EDGE (R173-R176, R186) at a moment in steps of 31.25 ps within the microsecond. -/
def execSosEdge (phase : Nat) (badWord : Bool) (s : State) : Host.Outcome State Fault Refusal :=
  done s fun mem m => if m.hasSL then m.sosEdge mem (stampMicro * m.time + phase) badWord else m

/-- SOS_WINDOW_MISS (R175, R190). -/
def execSosWindowMiss (badWord : Bool) (s : State) : Host.Outcome State Fault Refusal :=
  done s fun mem m => if m.hasSL then m.sosMiss mem badWord else m

/-- SOS_SEARCH_TIMEOUT (R173): no SOS edge since the search began or LOCKING was entered at step 3; beam 0 off for 10 ms. -/
def execSosSearchTimeout (s : State) : Host.Outcome State Fault Refusal :=
  done s fun _ m =>
    let x := m.scanRt
    if m.scanState = scLocking ∧ !x.found ∧ x.pausedAt.isNone ∧ x.searchAt + 1000 * m.h K.LS_SOS_SEARCH ≤ m.time then
      m.modScan (fun x => { x with pausedAt := some m.time, acquired := false })
    else m

/-- SOS_SEARCH_RESUME (R173): a new search begins. -/
def execSosSearchResume (s : State) : Host.Outcome State Fault Refusal :=
  done s fun _ m =>
    match m.scanRt.pausedAt with
    | some t => if m.scanState = scLocking ∧ t + 10000 ≤ m.time then m.modScan (fun x => { x with pausedAt := none, searchAt := m.time }) else m
    | none => m

/-- LOCK_TIMEOUT (R173). -/
def execLockTimeout (s : State) : Host.Outcome State Fault Refusal := done s fun _ m => m.lockTimeout

/-- SL_INDEX_PULSE (R174, R176). -/
def execSlIndexPulse (s : State) : Host.Outcome State Fault Refusal := done s fun _ m => m.indexPulse

/-- EOS_EDGE (R177). -/
def execEosEdge (phase : Nat) (s : State) : Host.Outcome State Fault Refusal :=
  done s fun _ m => m.eosEdge (stampMicro * m.time + phase)

/-- EOS_WINDOW_END (R177). -/
def execEosWindowEnd (s : State) : Host.Outcome State Fault Refusal := done s fun _ m => m.eosMiss

/-- SCANNER_STOPPED (R266): run mode, or auto mode with an SL item in flight, starts the stopped scanner again (R172). -/
def execScannerStopped (s : State) : Host.Outcome State Fault Refusal :=
  done s fun _ m =>
    let n := m.scanReleased
    if m.scanState = scStopping ∧ n.scanState = scStopped
        ∧ (n.g K.LS_SCAN_MODE = 2 ∨ n.g K.LS_SCAN_MODE = 1 ∧ n.itemsOf 4 (fun it => !it.final) ≠ []) then n.scanAuto else n

/-! ### Interlock and beam power, R187, R189 -/

/-- INTERLOCK_OPEN (R187). -/
def execInterlockOpen (s : State) : Host.Outcome State Fault Refusal := done s fun _ m => if m.hasSL then m.intlkOpens else m
/-- INTERLOCK_CLOSED (R187). -/
def execInterlockClosed (s : State) : Host.Outcome State Fault Refusal := done s fun _ m => if m.hasSL then m.intlkCloses else m

/-- The diodes may be driven again: the scanner relocks, and a process that was READY brings its high voltage back as a warming
process does from step 4 on (R187, R206). -/
def Mach.intlkResume (m : Mach) : Mach :=
  let m := (m.relock true).refreshSL
  if m.procState = prReady ∨ m.procState = prWarming ∧ 4 ≤ m.sl.warm then m.procWarm 4 else m

/-- LS_INTLK_REENABLE (R187). -/
def wIntlkReenable (v : Nat) (m : Mach) : WriteResult :=
  if v ≠ 1 then (m, .ok)
  else if m.g K.LS_INTLK_STATE ≠ 2 then refuseState m
  else (((m.put K.LS_INTLK_STATE 0).raise 0x2807 []).intlkResume, .ok)

/-- LS_INTLK_REENABLE (R187). -/
def execLsIntlkReenable (v : Nat) (s : State) : Host.Outcome State Fault Refusal :=
  done s fun _ m => m.hostWrite K.LS_INTLK_REENABLE (leBytes 1 v) wIntlkReenable

/-- INTLK_FORCE of the protected configuration (R382). -/
def Mach.intlkForce (m : Mach) : Bool := bit (fld m.prot 0x1B 1) 0

/-- LS_INTLK_ENABLE (R187). -/
def wIntlkEnable (v : Nat) (m : Mach) : WriteResult :=
  if v = 0 ∧ m.intlkForce then refuseRange m
  else if m.scanState ≠ scStopped then refuseState m
  else
    let st := if v = 0 then 3 else if m.scanRt.intlkOpen then 1 else 2
    ((m.puts [(K.LS_INTLK_ENABLE, v), (K.LS_INTLK_STATE, st)]).refreshSL, .ok)

/-- LS_INTLK_ENABLE (R187). -/
def execLsIntlkEnable (v : Nat) (s : State) : Host.Outcome State Fault Refusal :=
  done s fun _ m => m.hostWrite K.LS_INTLK_ENABLE (leBytes 1 v) wIntlkEnable

/-- LS_PWR_CLEAR (R189). -/
def wPwrClear (m : Mach) : Mach :=
  if m.g K.LS_PWR_LATCH = 0xFF then m
  else
    let m := (m.put K.LS_PWR_LATCH 0xFF).modScan (fun x => { x with pmonBad := List.replicate 4 0 })
    ((m.raise 0x2809 []).relock true).refreshSL

/-- LS_PWR_CLEAR (R189). -/
def execLsPwrClear (v : Nat) (s : State) : Host.Outcome State Fault Refusal :=
  done s fun _ m => m.hostWrite K.LS_PWR_CLEAR (leBytes 1 v) (onOne wPwrClear)

/-! ### Process, R199-R203 -/

/-- LS_PROC_MODE (R200, R203). -/
def wProcMode (v : Nat) (m : Mach) : WriteResult :=
  if (v = 0 ∨ v = 2) ∧ m.slBusy then refuseState m
  else
    let p := m.procState
    let m := m.put K.LS_PROC_MODE v
    let rests := p = prOff ∨ p = prStandby
    let waits := v = 3 ∨ v = 1 ∧ m.itemsOf 4 (fun it => !it.final) ≠ []
    if v = 0 ∨ v = 2 then
      if p = prWarming ∨ p = prReady then (m.procStop, .ok)
      else if rests then (m.procRest, .ok) else (m, .ok)
    else if rests then
      let m := if p = prOff ∧ v = 1 then m.procRest else m
      (if waits then m.procStart else m, .ok)
    else (m, .ok)

/-- LS_PROC_MODE (R200, R203). -/
def execLsProcMode (v : Nat) (s : State) : Host.Outcome State Fault Refusal :=
  done s fun _ m => m.hostWrite K.LS_PROC_MODE (leBytes 1 v) wProcMode

/-- PROCESS_IDLE_STOP (R203): auto mode, LS_PROC_IDLE without an SL item in flight. -/
def execProcessIdleStop (s : State) : Host.Outcome State Fault Refusal :=
  done s fun _ m =>
    match m.sl.idleAt with
    | some t => if m.g K.LS_PROC_MODE = 1 ∧ m.procState = prReady ∧ t + 1000000 * m.g K.LS_PROC_IDLE ≤ m.time then m.procStop else m
    | none => m

/-- PROCESS_WARMUP_ADVANCE (R202). -/
def execProcessWarmupAdvance (s : State) : Host.Outcome State Fault Refusal := done s fun _ m => m.procAdvance

/-- DRUM_CLEAN_END (R203): charge and discharge ramp to 0; the process axes decelerate once every channel is at 0. -/
def execDrumCleanEnd (s : State) : Host.Outcome State Fault Refusal :=
  done s fun _ m =>
    if m.procState = prStopping ∧ m.sl.stop = 1 ∧ m.sl.stopAt + 1000 * m.g K.LS_DRUM_CLEAN ≤ m.time then
      (m.modSl (fun s => { s with stop := 2 })).procRamped
    else m

/-- PROCESS_STOP_COMPLETE (R203): the axes are at rest; STANDBY or OFF by the mode, and a new start in run mode or where an SL
item was defined meanwhile in auto mode. -/
def execProcessStopComplete (s : State) : Host.Outcome State Fault Refusal :=
  done s fun _ m =>
    if m.procState = prStopping ∧ m.sl.stop = 3 ∧ m.procAxes.all (fun a => m.axVel a == 0) then
      let m := m.procRest
      let again := m.g K.LS_PROC_MODE = 3 ∨ m.g K.LS_PROC_MODE = 1 ∧ m.itemsOf 4 (fun it => !it.final) ≠ []
      if again then m.procStart else m
    else m

/-! ### High voltage and fuser, R205-R210 -/

/-- HV_UPDATE (R204, R205): every 100 µs; a step of the warm-up or of the stop that waits for a channel may follow. -/
def execHvUpdate (s : State) : Host.Outcome State Fault Refusal :=
  done s fun _ m =>
    if !m.hasSL ∨ m.time < m.sl.hvAt + 100 then m
    else (upto 4 ((m.modSl (fun s => { s with hvAt := m.time })).hvPlan) (fun m c => m.hvStep c)).procRamped.procAdvance

/-- HV_FAULT (R206). -/
def execHvFault (hv : Nat) (s : State) : Host.Outcome State Fault Refusal :=
  done s fun _ m =>
    match m.hvFaultDue hv with
    | some c => if m.hasSL && decide (m.g (K.HV_STATE hv) ≠ 4) then m.hvFault hv c else m
    | none => m

/-- ZERO_CROSS (R207, R210) at a moment in 10 ns within the microsecond. -/
def execZeroCross (phase : Nat) (s : State) : Host.Outcome State Fault Refusal :=
  done s fun _ m => if m.hasSL then (m.zeroCross (m.now10 + phase)).procAdvance else m

/-- LS_FUS_TRIP_CLEAR (R209). -/
def wTripClear (v : Nat) (m : Mach) : WriteResult := if v = 1 then m.tripClear else (m, .ok)

/-- LS_FUS_TRIP_CLEAR (R209). -/
def execLsFusTripClear (v : Nat) (s : State) : Host.Outcome State Fault Refusal :=
  done s fun _ m => m.hostWrite K.LS_FUS_TRIP_CLEAR (leBytes 1 v) wTripClear

/-- HEATER_FAULT (R210): u at least 0.9 for LS_FUS_RISE_TIME with a rise below LS_FUS_RISE_MIN. -/
def execHeaterFault (h : Nat) (s : State) : Host.Outcome State Fault Refusal :=
  done s fun _ m =>
    match (m.sl.heaters.getD h {}).rise with
    | some (t, q) =>
      if m.heating ∧ t + 1000000 * m.g K.LS_FUS_RISE_TIME ≤ m.time ∧ m.fuserTemp h - q < (m.g K.LS_FUS_RISE_MIN : Rat) then m.fuserFault 4 0x2815 [h]
      else m
    | none => m

/-- MAINS_LOST (R210): 25 ms without a zero crossing. -/
def execMainsLost (s : State) : Host.Outcome State Fault Refusal :=
  done s fun _ m =>
    match m.sl.zc with
    | some t => if m.heating ∧ t + 2500000 ≤ m.now10 then m.fuserFault 5 0x2816 [] else m
    | none => if m.heating ∧ m.sl.warmAt + 25000 ≤ m.time then m.fuserFault 5 0x2816 [] else m

/-- LS_PROC_CLEAR (R210). -/
def wProcClear (v : Nat) (m : Mach) : WriteResult := if v = 1 then m.procClear else (m, .ok)

/-- LS_PROC_CLEAR (R210). -/
def execLsProcClear (v : Nat) (s : State) : Host.Outcome State Fault Refusal :=
  done s fun _ m => m.hostWrite K.LS_PROC_CLEAR (leBytes 1 v) wProcClear

/-- LS_FUS_STANDBY (R208): in STANDBY both targets follow it at once. -/
def wFusStandby (v : Nat) (m : Mach) : WriteResult :=
  let m := m.put K.LS_FUS_STANDBY v
  (if m.procState = prStandby then m.standbyTargets else m, .ok)

/-! ### Sheet path, R213-R218 -/

/-- PICK_START (R208, R213). -/
def execPickStart (s : State) : Host.Outcome State Fault Refusal := done s fun _ m => m.pickStart

/-- SHEET_AT_GATE (R213). -/
def execSheetAtGate (s : State) : Host.Outcome State Fault Refusal := done s fun _ m => m.sheetAtGate

/-- GATE_RELEASE (R214). -/
def execGateRelease (s : State) : Host.Outcome State Fault Refusal := done s fun mem m => m.gateCheck mem

/-- GATE_WAIT_EXPIRED (R214). -/
def execGateWaitExpired (s : State) : Host.Outcome State Fault Refusal := done s fun mem m => m.gateExpired mem

/-- ROLLER_START (R215). -/
def execRollerStart (s : State) : Host.Outcome State Fault Refusal := done s fun _ m => m.rollerStart

/-- JAM_LATE (R216). -/
def execJamLate (stage : Nat) (s : State) : Host.Outcome State Fault Refusal := done s fun _ m => m.jamLate stage

/-- JAM_STAY (R216). -/
def execJamStay (stage : Nat) (s : State) : Host.Outcome State Fault Refusal := done s fun _ m => m.jamStay stage

/-- PICK_RETRY (R216). -/
def execPickRetry (s : State) : Host.Outcome State Fault Refusal := done s fun _ m => m.pickRetry

/-- LS_JAM_CLEAR (R218). -/
def wJamClear (v : Nat) (m : Mach) : WriteResult := if v = 1 then m.jamClear else (m, .ok)

/-- LS_JAM_CLEAR (R218). -/
def execLsJamClear (v : Nat) (s : State) : Host.Outcome State Fault Refusal :=
  done s fun _ m => m.hostWrite K.LS_JAM_CLEAR (leBytes 1 v) wJamClear

/-- LS_PURGE (R218). -/
def wPurge (v : Nat) (m : Mach) : WriteResult := if v = 1 then m.purge else (m, .ok)

/-- LS_PURGE (R218). -/
def execLsPurge (v : Nat) (s : State) : Host.Outcome State Fault Refusal :=
  done s fun _ m => m.hostWrite K.LS_PURGE (leBytes 1 v) wPurge

/-- PURGE_DONE (R218). -/
def execPurgeDone (s : State) : Host.Outcome State Fault Refusal := done s fun _ m => m.purgeDone

end Sys2Proof.Machine
end

