-- ==== Sys2Proof/Machine/Media.lean ====
section
/-! DEFINITION. The commands of the lines and of the media path: line triggers (R106, R93, R110, R111, R160), media presence,
seeking, learning, thresholds, ribbon, cutter and presenter (R147-R164). -/

namespace Sys2Proof.Machine

open Sys2Proof

/-- LINE_TRIGGER (R106, R93, R110, R111, R160): the port takes the first trigger its source has generated, when its moment
has come; the lead port's trigger is the line boundary at which ribbon saving acts. -/
def execLineTrigger (hp : Nat) (badWord : Bool) (s : State) : Host.Outcome State Fault Refusal :=
  done s fun mem m =>
    match (m.head hp).due with
    | [] => m
    | (r, t) :: _ =>
      if m.nHeads ≤ hp ∨ m.now10 + 99 < t then m
      else
        let id := m.g (K.HP_ITEM hp)
        let m := match m.item? id with
          | some it => if m.countingHead it = hp then m.saveAction it.station id r else m
          | none => m
        m.trigger mem hp badWord

/-- MEDIA_AT_REST_RETURN (R155): medium level for 100 ms at rest. -/
def execMediaAtRestReturn (st : Nat) (s : State) : Host.Outcome State Fault Refusal :=
  done s fun _ m =>
    match (m.chan st 0).restBack with
    | some t => if (m.chan st 0).out && m.feedAtRest st && m.configured st && decide (t + 100000 ≤ m.time) then m.mediaBack st else m
    | none => m

/-- SEEK_LIMIT (R153). -/
def execSeekLimit (st : Nat) (s : State) : Host.Outcome State Fault Refusal :=
  done s fun _ m => if m.configured st then m.seekLimit st else m

/-- TH_LEARN (R154): refused while an item of the station is ADMITTED or PRINTING or a cut runs; else a learning feed
begins. -/
def wLearn (st v : Nat) (m : Mach) : WriteResult :=
  if v ≠ 1 then (m, .ok)
  else
    let busy := (m.itemsOf st (fun it => it.state == .admitted || it.state == .printing)) != []
    match m.feedAxis st with
    | none => refuseState m
    | some a =>
      if busy || (m.sta st).cut != .none || !(m.configured st) || !(m.axEnabled a) then refuseState m
      else
        let v := m.feedSpeed st (m.g (K.TH_LEARN_SPEED st))
        let ps := joinPieces [rampPiece (m.accelOf st none) (m.jerkOf st none) 0 0 0 v]
          [flatPiece 0 0 (m.linesToPos st seekTravel) v]
        let m := (m.modSta st (fun x => { x with learn := some (m.linePos st, 0) })).modChan st 0 (fun c => { c with
          lo := 4095, hi := 0, learned := false, medium := [] })
        ((m.put (K.TH_LEARN_STATE st) 1).axQueue a (mkProfile .learn ps), .ok)

/-- TH_LEARN (R154). -/
def execThLearn (st v : Nat) (s : State) : Host.Outcome State Fault Refusal :=
  done s fun _ m => m.hostWrite (K.TH_LEARN st) (leBytes 1 v) (wLearn st)

/-- Resume a frozen threshold loop (R25, R149). -/
def Mach.senseResume (m : Mach) (st c : Nat) : Mach :=
  if m.g (K.SNS_LOOP_STATUS st c) = 3 then (m.modChan st c (fun x => { x with pinned := 0 })).put (K.SNS_LOOP_STATUS st c) 0 else m

/-- SNS_UNFREEZE (R149). -/
def execSnsUnfreeze (st ch v : Nat) (s : State) : Host.Outcome State Fault Refusal :=
  done s fun _ m => m.hostWrite (K.SNS_UNFREEZE st ch) (leBytes 1 v) (onOne (fun m => m.senseResume st ch))

/-- A bound of a threshold loop (R166): refused when the lower would exceed the upper; frozen loops resume (R26). -/
def wSenseBound (st c : Nat) (upper : Bool) (v : Nat) (m : Mach) : WriteResult :=
  let m' := m.put (if upper then K.SNS_UPPER st c else K.SNS_LOWER st c) v
  if m'.g (K.SNS_UPPER st c) < m'.g (K.SNS_LOWER st c) then refuseRange m else (m'.senseResume st c, .ok)

/-- RIBBON_WINDOW (R158, R159). -/
def execRibbonWindow (st : Nat) (s : State) : Host.Outcome State Fault Refusal :=
  done s fun _ m => if m.hasRibbon st && m.ribbonThere st && (m.sta st).heldAt.isNone then m.ribbonWindow st else m

/-- CUT_STROKE (R162). -/
def execCutStroke (st : Nat) (s : State) : Host.Outcome State Fault Refusal :=
  done s fun _ m => if m.configured st then m.cutStroke st else m

/-- TH_CUT_TIMEOUT (R164). -/
def execThCutTimeout (st : Nat) (s : State) : Host.Outcome State Fault Refusal :=
  done s fun _ m =>
    let late := decide ((m.sta st).cutDeadline ≤ m.time)
    match (m.sta st).cut with
    | .out _ => if late then m.cutFault st 1 else m
    | .back _ => if late && !(m.si (m.h (K.TH_CUT_HOME_SI st))) then m.cutFault st 1 else m
    | _ => m

/-- PRESENTER_MOVE_DONE (R163). -/
def execPresenterMoveDone (st : Nat) (s : State) : Host.Outcome State Fault Refusal :=
  done s fun _ m => if m.configured st then m.presenterDone st else m

/-- TH_PRES_TIMEOUT (R163): a presented item is moved back into the reject path, by the values its present read (R166). -/
def execThPresTimeout (st : Nat) (s : State) : Host.Outcome State Fault Refusal :=
  done s fun _ m =>
    match m.presenter st with
    | none => m
    | some a =>
      let w := (m.sta st).presTimeout
      if m.g (K.TH_PRES_STATE st) = 2 ∧ w ≠ 0 ∧ (m.sta st).presSince + 1000000 * w ≤ m.time then
        m.presenterMove st a (-(m.sta st).presRetract) 3
      else m

end Sys2Proof.Machine
end

