-- ==== Sys2Proof/Machine/Nodes.lean ====
section
/-! DEFINITION. The partner table's commands, the nodes of CF1 and its NMT manager, and LSS assignment (R355-R362). -/

namespace Sys2Proof.Machine

open Sys2Proof

/-! ### Assignments, R358 -/

/-- Whether CF1 runs as manager: DSC_NMT_MODE as read when CF1 last restarted. -/
def Mach.cfManager (m : Mach) : Bool := m.h K.DSC_NMT_MODE == 1

/-- A node's assignment as read when CF1 last restarted (R358). -/
def Mach.nodeAssign (m : Mach) (n : Nat) : Nat := if 1 ≤ n ∧ n ≤ 127 then m.h (K.DSC_NMT_ASSIGN (n - 1)) else 0

/-- Whether the manager manages a node. -/
def Mach.nodeManaged (m : Mach) (n : Nat) : Bool := m.cfManager && bit (m.nodeAssign n) 0
def Mach.nodeMandatory (m : Mach) (n : Nat) : Bool := m.cfManager && bit (m.nodeAssign n) 1
def Mach.nodeCheck (m : Mach) (n : Nat) : Bool := bit (m.nodeAssign n) 2
def Mach.nodeStart (m : Mach) (n : Nat) : Bool := bit (m.nodeAssign n) 3
def Mach.nodeResetComm (m : Mach) (n : Nat) : Bool := bit (m.nodeAssign n) 4
/-- Heartbeat consumer time in ms; 0 not consumed. -/
def Mach.nodeHbTime (m : Mach) (n : Nat) : Nat := m.nodeAssign n / 65536

def Mach.node (m : Mach) (n : Nat) : NodeRt := m.cf1.nodes.getD n {}
def Mach.modNode (m : Mach) (n : Nat) (f : NodeRt → NodeRt) : Mach :=
  { m with cf1 := { m.cf1 with nodes := m.cf1.nodes.modify n f } }

/-- The entry of a node. -/
def Mach.nodeEntry (m : Mach) (n : Nat) : Option Nat := m.partnerFind dscNode n 0 0

/-- The state of a node's entry, 0 where it has none. -/
def Mach.nodeState (m : Mach) (n : Nat) : Nat :=
  match m.nodeEntry n with
  | some e => partnerState (m.partner e)
  | none => 0

/-- Send an NMT command on CF1 (CiA 301); a port in bus off sends nothing. -/
def Mach.nmtSend (m : Mach) (cmd node : Nat) : Mach :=
  if m.g (K.NET_CAN_STATE 1) = 2 then m else m.emit (.can 1 0 [BitVec.ofNat 8 cmd, BitVec.ofNat 8 node])

/-! ### Readiness of CF1, R362 -/

/-- Every MANDATORY node is PRESENT. -/
def Mach.mandatoryPresent (m : Mach) : Bool :=
  (List.range 127).all (fun i => !(m.nodeMandatory (i + 1)) || m.nodeState (i + 1) == dscPresent)

/-- The readiness CF1 reads. -/
def Mach.cf1Ready (m : Mach) : Nat :=
  if m.g (K.NET_CAN_STATE 1) = 2 then vFault
  else if m.cfManager = false then vReady
  else if m.cf1.bootDone = false then vStarting
  else if m.mandatoryPresent then vReady else vDegraded

/-- Follow CF1's readiness; its boot-up also ends when every MANDATORY node is PRESENT. -/
def Mach.cf1Refresh (m : Mach) : Mach :=
  if m.ready (rdyCan 1) = vOff then m
  else
    let m := if m.cfManager && m.mandatoryPresent then { m with cf1 := { m.cf1 with bootDone := true } } else m
    m.setReady (rdyCan 1) m.cf1Ready

/-! ### Identification, R359, R360 -/

/-- An entry's MANAGED and MANDATORY bits follow the assignment (R355). -/
def Mach.nodeFlags (m : Mach) (e n : Nat) : Mach :=
  m.put (K.DSC_PARTNER e) (setFld (m.partner e) 3 1 (b2n (m.nodeManaged n) + 2 * b2n (m.nodeMandatory n)))

/-- Set the state of a node's entry, made when it is new. -/
def Mach.nodeSet (m : Mach) (n st : Nat) : Mach :=
  match m.partnerEnter dscNode n 0 0 with
  | (m, none) => m
  | (m, some e) => (m.nodeFlags e n).partnerSet e st

/-- Identification of a managed node starts at step 2: any in progress is abandoned. -/
def Mach.nodeAsk (m : Mach) (n : Nat) : Mach :=
  let m := m.nodeSet n dscIdentifying
  let m := if m.nodeResetComm n then m.nmtSend 0x82 n else m
  (m.modNode n (fun x => { x with asked := some m.time, retryAt := none })).cf1Refresh

/-- The start of CF1 (R338, R358, R359): its settings and its role are read; the manager resets its nodes and identifies those it
manages, in ascending node ID. The entries of nodes follow the new assignment, and an LSS assignment goes on (log entry 232). -/
def Mach.cf1Start (m : Mach) : Mach :=
  let m := m.sample ([K.DSC_NMT_MODE, K.DSC_NMT_RESET_ALL, K.DSC_NMT_BOOT_TIME] ++ (List.range 127).map K.DSC_NMT_ASSIGN
    ++ (List.range 127).map K.DSC_NMT_VENDOR ++ (List.range 127).map K.DSC_NMT_PRODUCT)
  let m := { m with cf1 := { bootAt := m.time, lss := m.cf1.lss } }
  let m : Mach := upto 32 m (fun m e => if fld (m.partner e) 0 1 = dscNode then m.nodeFlags e (fld (m.partner e) 2 1) else m)
  if m.cfManager = false then m.setReady (rdyCan 1) m.cf1Ready
  else
    let m := (m.emit (.can 1 (0x700 + m.h (K.NET_CAN_NODE 1)) [0#8])).setReady (rdyCan 1) m.cf1Ready
    let m := if m.h K.DSC_NMT_RESET_ALL ≠ 0 then m.nmtSend 0x82 0 else m
    (upto 127 m (fun m i => if m.nodeManaged (i + 1) then m.nodeAsk (i + 1) else m)).cf1Refresh

/-- A node that is not managed is entered as PRESENT; one whose heartbeat is consumed becomes ABSENT when it lapses. -/
def Mach.nodeSeen (m : Mach) (n : Nat) : Mach := m.nodeSet n dscPresent

/-- NODE_BOOT_UP (R360): a managed node is identified again; any other is entered as PRESENT. -/
def execNodeBootUp (node : Nat) (s : State) : Host.Outcome State Fault Refusal :=
  done s fun _ m =>
    if node = 0 ∨ 127 < node ∨ !m.dictUp then m
    else
      let m := m.modNode node (fun x => { x with hbLast := none })
      if m.nodeManaged node then m.nodeAsk node else m.nodeSeen node

/-- NODE_HEARTBEAT (R360): the consumer's time starts again; a managed node that had lapsed is identified again, and one with START
set that reports Stopped or Pre-operational is started again, at most once per second. -/
def execNodeHeartbeat (node nmt : Nat) (s : State) : Host.Outcome State Fault Refusal :=
  done s fun _ m =>
    if node = 0 ∨ 127 < node ∨ !m.dictUp then m
    else
      let m := m.modNode node (fun x => { x with hbLast := some m.time })
      if !(m.nodeManaged node) then m.nodeSeen node
      else if m.nodeState node = dscAbsent then m.nodeAsk node
      else if m.nodeState node = dscPresent ∧ m.nodeStart node = true ∧ (nmt % 128 = 4 ∨ nmt % 128 = 127) then
        let due := match (m.node node).startSent with
          | none => true
          | some t => decide (t + 1000000 ≤ m.time)
        if due then (m.nmtSend 1 node).modNode node (fun x => { x with startSent := some m.time }) else m
      else m

/-- NODE_IDENTIFY_RESPONSE (R359, R360): the node's identity reads are complete. vendor, product, revision and serial are those of
0x1018, read with CHECK_ID. -/
def execNodeIdentifyResponse (node vendor product revision serial : Nat) (s : State) : Host.Outcome State Fault Refusal :=
  done s fun _ m =>
    if node = 0 ∨ 127 < node ∨ (m.node node).asked.isNone = true ∨ !m.dictUp then m
    else
      let m := m.modNode node (fun x => { x with asked := none, retryAt := none })
      match m.nodeEntry node with
      | none => m
      | some e =>
        let check := m.nodeCheck node
        let x := m.partner e
        let ids := [vendor, product, revision, serial]
        let new := (List.range 4).foldl (fun x i => setFld x (4 + 4 * i) 4 (ids.getD i 0)) x
        let known := (List.range 4).any (fun i => fld x (4 + 4 * i) 4 != 0)
        let m := if check && new != x then
            let m := m.put (K.DSC_PARTNER e) new
            if known then m.raise 0x2205 [e] else m
          else m
        let bad := check && (vendor != m.h (K.DSC_NMT_VENDOR (node - 1)) || product != m.h (K.DSC_NMT_PRODUCT (node - 1)))
        let m := if bad then (m.partnerSet e dscMismatch).raise 0x2204 ([node] ++ ids)
          else
            let m := (m.partnerSet e dscPresent).modNode node (fun x => { x with hbLast := some m.time })
            if m.nodeStart node then (m.nmtSend 1 node).modNode node (fun x => { x with startSent := some m.time }) else m
        m.cf1Refresh

/-- NODE_IDENTIFY_TIMEOUT (R359): a read of 100 ms has timed out; the node is tried again after DSC_NMT_RETRY. -/
def execNodeIdentifyTimeout (node : Nat) (s : State) : Host.Outcome State Fault Refusal :=
  done s fun _ m =>
    if (m.node node).asked.isNone then m
    else m.modNode node (fun x => { x with asked := none, retryAt := some (m.time + 1000 * m.g K.DSC_NMT_RETRY) })

/-- NODE_IDENTIFY_RETRY (R359): a node that timed out is tried again, by its reads alone. -/
def execNodeIdentifyRetry (node : Nat) (s : State) : Host.Outcome State Fault Refusal :=
  done s fun _ m =>
    match (m.node node).retryAt with
    | none => m
    | some t => if m.time < t then m else m.modNode node (fun x => { x with asked := some m.time, retryAt := none })

/-- NMT_BOOT_TIME_EXPIRED (R359): event 0x2206 for each MANDATORY node that is not PRESENT; CF1's boot-up has ended. -/
def execNmtBootTimeExpired (s : State) : Host.Outcome State Fault Refusal :=
  done s fun _ m =>
    if m.cfManager = false ∨ m.time < m.cf1.bootAt + 1000 * m.h K.DSC_NMT_BOOT_TIME then m
    else
      let m := upto 127 m (fun m i =>
        if m.nodeMandatory (i + 1) && m.nodeState (i + 1) != dscPresent then m.raise 0x2206 [i + 1] else m)
      { m with cf1 := { m.cf1 with bootDone := true } }.cf1Refresh

/-- NODE_HEARTBEAT_LAPSE (R360): no heartbeat within HB_TIME: ABSENT, and DSC_NMT_LOSS_ACTION for a node the manager manages. -/
def execNodeHeartbeatLapse (node : Nat) (s : State) : Host.Outcome State Fault Refusal :=
  done s fun _ m =>
    match (m.node node).hbLast, m.nodeEntry node with
    | some t, some e =>
      let hb := m.nodeHbTime node
      if hb = 0 ∨ m.time ≤ t + 1000 * hb ∨ partnerState (m.partner e) ≠ dscPresent then m
      else
        let m := (m.partnerSet e dscAbsent).modNode node (fun x => { x with hbLast := none })
        let m := if m.nodeManaged node then
            match m.g K.DSC_NMT_LOSS_ACTION with
            | 1 => m.nmtSend 0x82 node
            | 2 => m.nmtSend 0x81 node
            | _ => m
          else m
        m.cf1Refresh
    | _, _ => m

/-! ### Writes of the DSC_ objects -/

/-- DSC_CLEAR (R356): only an ABSENT or MISMATCH entry is emptied. -/
def wDscClear (v : Nat) (m : Mach) : WriteResult :=
  let st := partnerState (m.partner v)
  if st ≠ dscAbsent ∧ st ≠ dscMismatch then refuseState m
  else
    let m := m.put (K.DSC_PARTNER v) 0
    (m.put K.DSC_USED m.partnersUsed, .ok)

/-- DSC_CLEAR (R356). -/
def execDscClear (v : Nat) (s : State) : Host.Outcome State Fault Refusal :=
  done s fun _ m => m.hostWrite K.DSC_CLEAR (leBytes 1 v) wDscClear

/-- DSC_NMT_ASSIGN (R358): at most 32 entries consume heartbeats. -/
def wNmtAssign (node v : Nat) (m : Mach) : WriteResult :=
  let m' := m.put (K.DSC_NMT_ASSIGN (node - 1)) v
  if 32 < ((List.range 127).filter (fun i => m'.g (K.DSC_NMT_ASSIGN i) / 65536 != 0)).length then refuseRange m else (m', .ok)

/-- DSC_NMT_ASSIGN (R358). -/
def execDscNmtAssign (node v : Nat) (s : State) : Host.Outcome State Fault Refusal :=
  done s fun _ m => m.hostWrite (0x221100 + node) (leBytes 4 v) (wNmtAssign node)

/-- DSC_LSS_ASSIGN (R361): refused in observer mode, while a scan runs, or for a node ID already PRESENT. -/
def wLssAssign (v : Nat) (m : Mach) : WriteResult :=
  if m.cfManager = false ∨ m.cf1.lss.isSome = true ∨ m.nodeState v = dscPresent then refuseState m
  else ({ m.put K.DSC_LSS_STATE 1 with cf1 := { m.cf1 with lss := some v } }, .ok)

/-- DSC_LSS_ASSIGN (R361). -/
def execDscLssAssign (v : Nat) (s : State) : Host.Outcome State Fault Refusal :=
  done s fun _ m => m.hostWrite K.DSC_LSS_ASSIGN (leBytes 1 v) wLssAssign

/-- LSS_ASSIGNMENT_END (R361): 2 done, 3 no unconfigured node found, 4 failed. -/
def execLssAssignmentEnd (result : Nat) (s : State) : Host.Outcome State Fault Refusal :=
  done s fun _ m =>
    if m.cf1.lss.isNone ∨ !m.dictUp then m
    else
      let r := if result = 2 ∨ result = 3 then result else 4
      ({ m with cf1 := { m.cf1 with lss := none } }.put K.DSC_LSS_STATE r).raise 0x2207 [r]

/-- EMCY_RECEIVED (R337): an EMCY of a CF1 node is consumed; the spec gives it no further effect. -/
def execEmcyReceived (_node : Nat) (_data : List Byte) (s : State) : Host.Outcome State Fault Refusal :=
  done s fun _ m => m

end Sys2Proof.Machine
end

