-- ==== Sys2Proof/Machine/CanOps.lean ====
section
/-! DEFINITION. Starting the communication of the CAN ports (R336-R339, R358). -/

namespace Sys2Proof.Machine

open Sys2Proof

/-- Subs 01-06 of a port, read when it restarts (R338). -/
def canKeys (p : Nat) : List Nat :=
  [K.NET_CAN_MODE p, K.NET_CAN_NODE p, K.NET_CAN_NOMINAL p, K.NET_CAN_DATA p, K.NET_CAN_SP_NOM p, K.NET_CAN_SP_DATA p]

/-- Bus off FAULT, else READY. -/
def Mach.cf0Refresh (m : Mach) : Mach :=
  if m.ready (rdyCan 0) = vOff then m
  else m.setReady (rdyCan 0) (if m.g (K.NET_CAN_STATE 0) = 2 then vFault else vReady)

/-- The CAN identifiers of a port in bus off are not sent. -/
def Mach.canSend (m : Mach) (p id : Nat) (data : List Byte) : Mach :=
  if m.g (K.NET_CAN_STATE p) = 2 then m else m.emit (.can p id data)

/-- A restart of CF0 (R338, R339): settings read, communication objects at their defaults, pre-operational, boot-up message. -/
def Mach.cf0Start (m : Mach) : Mach :=
  let m := m.sample (canKeys 0)
  let m := { m with dict := m.dict.filter (fun (x : Nat × Nat) => !(decide (0x100000 ≤ x.1 ∧ x.1 < 0x200000))) }
  let node := m.h (K.NET_CAN_NODE 0)
  let m := m.put K.CIA_EMCY_COB (0x80 + node)
  let m := { m with net := { m.net with
    nmt := .preOperational, rpdoHeld := List.replicate 8 none, syncCount := List.replicate 8 0, tpdoLast := List.replicate 8 0
    tpdoSent := List.replicate 8 none, hbLast := none, hbLapsed := false, emcyUntil := 0, canHbLast := m.time } }
  m.canSend 0 (0x700 + node) [0#8]

/-- A restart of CF1 (R338, R358). -/
def Mach.cf1Restart (m : Mach) : Mach := (m.sample (canKeys 1)).cf1Start

end Sys2Proof.Machine
end

