-- ==== Sys2Proof/Machine/Motion.lean ====
section
/-! DEFINITION. The commands of the motion planner: the axis table, axis commands, start groups, sense inputs and
step/direction inputs (R225-R244). -/

namespace Sys2Proof.Machine

open Sys2Proof

/-! ### The axis table, R225, R227 -/

/-- AX_TABLE_BASE (R225). -/
def wAxTableBase (v : Nat) (m : Mach) : WriteResult :=
  if (List.range m.nAxes).any (fun n => m.axState n != axDisabled) then refuseState m
  else if v % 256 ≠ 0 ∨ !(inHostArea v 10240) then refuseRange m
  else (m.put K.AX_TABLE_BASE v, .ok)

/-- AX_TABLE_BASE (R225). -/
def execAxTableBase (v : Nat) (s : State) : Host.Outcome State Fault Refusal :=
  done s fun _ m => m.hostWrite K.AX_TABLE_BASE (leBytes 8 v) wAxTableBase

/-- A refresh waits for its tick with the entry's bytes as they stand (R227, R228). -/
def Mach.refreshAsk (mem : Mem) (m : Mach) (n : Nat) (d : ReplyTo) : Mach :=
  m.modAxis n (fun a => { a with waiting := a.waiting ++ [(m.time, .refresh (mem.read (m.g K.AX_TABLE_BASE + 256 * n) 256) d)] })

/-- AX_REFRESH (R227): answered at its tick; a write that is refused is answered at once. -/
def execAxRefresh (n : Nat) (s : State) : Host.Outcome State Fault Refusal :=
  done s fun mem m =>
    let (m', st) := m.judgeWrite K.AX_REFRESH (leBytes 1 n) (fun v m => if m.nAxes ≤ v then refuseRange m else (m.refreshAsk mem v .local, .ok))
    if m.reach false = .silent ∨ st = .ok then m' else m'.reply st (leBytes 4 0)

/-! ### Axis commands, R231-R239 -/

/-- An axis takes motion commands from you: not owned, and in a state that accepts one. -/
def Mach.axFree (m : Mach) (n : Nat) : Bool := m.axOwner n == 0 && [axIdle, axMoving, axVelocity, axCurrent].contains (m.axState n)

/-- A limit input that reads active on the side an axis would move to (R240); seek exempts the input a homing seeks. -/
def Mach.limitAhead (m : Mach) (n : Nat) (dir : Int) (seek : Nat) : Bool :=
  let a := m.axis n
  (decide (dir < 0) && a.limNeg != seek && m.si a.limNeg) || (decide (0 < dir) && a.limPos != seek && m.si a.limPos)

/-- Accept a command: armed by a group member, else waiting for its tick (R229, R234). -/
def Mach.axAccept (m : Mach) (n : Nat) (c : AxCmd) : Mach :=
  if m.g (K.AX_GROUP n) ≤ 3 then ((m.modAxis n (fun a => { a with armed := some c })).put (K.AX_ARMED n) 1).commanded n
  else (m.modAxis n (fun a => { a with waiting := a.waiting ++ [(m.time, c)] })).commanded n

/-- AX_TARGET (R222, R231, R232, R240). -/
def wAxTarget (n v : Nat) (m : Mach) : WriteResult :=
  let a := m.axis n
  let x := sext 32 v
  if a.kind = 4 then
    if v ≠ 0 ∧ v ≠ 1 then refuseRange m
    else if m.axOwner n ≠ 0 ∨ !(m.axEnabled n) then refuseState m
    else ((m.put (K.AX_TARGET n) v).axAccept n (.target x), .ok)
  else if !(m.axFree n) ∨ (a.homeRequired ∧ m.gb (K.AX_POS_LOST n)) then refuseState m
  else if m.softApply n ∧ (x < a.softMin ∨ a.softMax < x) then refuseRange m
  else
    let d := wrapPos ((x : Rat) - m.axPos n)
    if m.limitAhead n (if d < 0 then -1 else if 0 < d then 1 else 0) 0xFF then refuseState m
    else ((m.put (K.AX_TARGET n) v).axAccept n (.target x), .ok)

/-- AX_TARGET (R232). -/
def execAxTarget (ax v : Nat) (s : State) : Host.Outcome State Fault Refusal :=
  done s fun _ m => m.hostWrite (K.AX_TARGET ax) (leBytes 4 v) (wAxTarget ax)

/-- AX_SPEED, AX_ACCEL, AX_DECEL, AX_JERK (R231): 0 or up to the entry's maximum. A J_MAX of 0 is no limit. -/
def wAxLimit (n which v : Nat) (m : Mach) : WriteResult :=
  let a := m.axis n
  let top := match which with | 0 => a.vMax | 1 => a.aMax | 2 => a.dMax | _ => a.jMax
  let unlimited := which = 3 ∧ a.jMax = 0
  if ¬unlimited ∧ top < v then refuseRange m
  else if m.axOwner n ≠ 0 ∨ a.kind = 4 then refuseState m
  else
    let (k, c) : Nat × AxCmd := match which with
      | 0 => (K.AX_SPEED n, .speed v) | 1 => (K.AX_ACCEL n, .accel v) | 2 => (K.AX_DECEL n, .decel v) | _ => (K.AX_JERK n, .jerk v)
    ((m.put k v).modAxis n (fun a => { a with waiting := a.waiting ++ [(m.time, c)] }), .ok)

/-- AX_SPEED (R231). -/
def execAxSpeed (ax v : Nat) (s : State) : Host.Outcome State Fault Refusal :=
  done s fun _ m => m.hostWrite (K.AX_SPEED ax) (leBytes 4 v) (wAxLimit ax 0)
/-- AX_ACCEL (R231). -/
def execAxAccel (ax v : Nat) (s : State) : Host.Outcome State Fault Refusal :=
  done s fun _ m => m.hostWrite (K.AX_ACCEL ax) (leBytes 4 v) (wAxLimit ax 1)
/-- AX_DECEL (R231). -/
def execAxDecel (ax v : Nat) (s : State) : Host.Outcome State Fault Refusal :=
  done s fun _ m => m.hostWrite (K.AX_DECEL ax) (leBytes 4 v) (wAxLimit ax 2)
/-- AX_JERK (R231). -/
def execAxJerk (ax v : Nat) (s : State) : Host.Outcome State Fault Refusal :=
  done s fun _ m => m.hostWrite (K.AX_JERK ax) (leBytes 4 v) (wAxLimit ax 3)

/-- AX_VELOCITY (R231, R233, R240). -/
def wAxVelocity (n v : Nat) (m : Mach) : WriteResult :=
  let a := m.axis n
  let x := sext 32 v
  if a.kind = 4 ∨ !(m.axFree n) ∨ (a.homeRequired ∧ m.gb (K.AX_POS_LOST n)) ∨ m.limitAhead n x 0xFF then refuseState m
  else ((m.put (K.AX_VELOCITY n) v).axAccept n (.velocity x), .ok)

/-- AX_VELOCITY (R233). -/
def execAxVelocity (ax v : Nat) (s : State) : Host.Outcome State Fault Refusal :=
  done s fun _ m => m.hostWrite (K.AX_VELOCITY ax) (leBytes 4 v) (wAxVelocity ax)

/-- AX_CURRENT (R231, R255): a stepper needs its encoder. -/
def wAxCurrent (n v : Nat) (m : Mach) : WriteResult :=
  let a := m.axis n
  let x := sext 16 v
  if a.kind = 4 ∨ !(m.axFree n) ∨ (a.kind = 1 ∧ a.enc = 0xFF) ∨ m.limitAhead n x 0xFF then refuseState m
  else ((m.put (K.AX_CURRENT n) v).axAccept n (.current x), .ok)

/-- AX_CURRENT (R231). -/
def execAxCurrent (ax v : Nat) (s : State) : Host.Outcome State Fault Refusal :=
  done s fun _ m => m.hostWrite (K.AX_CURRENT ax) (leBytes 2 v) (wAxCurrent ax)

/-- AX_FOLLOW (R244): entering needs a step/direction input; leaving lets pending segments finish. -/
def wAxFollow (n v : Nat) (m : Mach) : WriteResult :=
  let a := m.axis n
  if v = 1 then
    if a.kind = 4 ∨ a.sd = 0xFF ∨ !(m.axFree n) then refuseState m
    else ((m.put (K.AX_FOLLOW n) 1).axAccept n (.follow true), .ok)
  else if m.axOwner n ≠ 0 then refuseState m
  else ((m.put (K.AX_FOLLOW n) 0).axAccept n (.follow false), .ok)

/-- AX_FOLLOW (R244). -/
def execAxFollow (ax v : Nat) (s : State) : Host.Outcome State Fault Refusal :=
  done s fun _ m => m.hostWrite (K.AX_FOLLOW ax) (leBytes 1 v) (wAxFollow ax)

/-- AX_HOME (R241). -/
def wAxHome (n v : Nat) (m : Mach) : WriteResult :=
  let a := m.axis n
  let dir : Int := if a.homeSi = 0xFF then 0 else if m.si a.homeSi then -(a.homeSign) else a.homeSign
  if v ≠ 1 then (m, .ok)
  else if a.kind = 4 ∨ !(m.axFree n) ∨ m.limitAhead n dir a.homeSi then refuseState m
  else (m.axAccept n .home, .ok)

/-- AX_HOME (R241). -/
def execAxHome (ax v : Nat) (s : State) : Host.Outcome State Fault Refusal :=
  done s fun _ m => m.hostWrite (K.AX_HOME ax) (leBytes 1 v) (wAxHome ax)

/-- AX_HALT (R236): never armed; the armed command is discarded. -/
def wAxHalt (n v : Nat) (m : Mach) : WriteResult :=
  if v ≠ 1 then (m, .ok)
  else if m.axOwner n ≠ 0 ∨ !(m.axEnabled n) ∨ (m.axis n).kind = 4 then refuseState m
  else (((m.axDisarm n).modAxis n (fun a => { a with waiting := a.waiting ++ [(m.time, .halt)] })).commanded n, .ok)

/-- AX_HALT (R236). -/
def execAxHalt (ax v : Nat) (s : State) : Host.Outcome State Fault Refusal :=
  done s fun _ m => m.hostWrite (K.AX_HALT ax) (leBytes 1 v) (wAxHalt ax)

/-- AX_STOP (R237, R239): at once, owned axes included. -/
def wAxStop (n v : Nat) (m : Mach) : WriteResult := onOne (fun m => m.axStop n 1) v m

/-- AX_STOP (R237). -/
def execAxStop (ax v : Nat) (s : State) : Host.Outcome State Fault Refusal :=
  done s fun _ m => m.hostWrite (K.AX_STOP ax) (leBytes 1 v) (wAxStop ax)

/-- Whether the cause of a stop persists (R238), or a failed port of the axis has no spare (R224). -/
def Mach.causePersists (m : Mach) (n : Nat) : Bool :=
  (m.axis n).ports.any m.portDead
    || match m.g (K.AX_STOP_CAUSE n) with
      | 6 => (m.busRt (m.axis n).bus).cut
      | 7 => m.g K.DEV_SHUTDOWN != 0
      | _ => false

/-- AX_CLEAR (R238). -/
def wAxClear (n v : Nat) (m : Mach) : WriteResult :=
  if v ≠ 1 then (m, .ok)
  else if m.axState n ≠ axStopped ∨ m.causePersists n then refuseState m
  else (m.axDisableCore n, .ok)

/-- AX_CLEAR (R238). -/
def execAxClear (ax v : Nat) (s : State) : Host.Outcome State Fault Refusal :=
  done s fun _ m => m.hostWrite (K.AX_CLEAR ax) (leBytes 1 v) (wAxClear ax)

/-- AX_ENABLE (R247, R251, R257): an enable needs a KIND and self-tests the ports, which measures their comparator delays (ns, in
port order); fail names the first port in the entry whose test fails. An axis with a failed port that no spare serves stops at once (R224;
DEDUCED, log entry 141). A disable is refused while the axis moves. -/
def wAxEnable (n : Nat) (fail : Option Nat) (delays : List Nat) (v : Nat) (m : Mach) : WriteResult :=
  let a := m.axis n
  if v = 1 then
    if m.axState n = axStopped ∨ a.kind = 0 then refuseState m
    else if m.axState n ≠ axDisabled then (m, .ok)
    else
      let m := (m.axEnableCore n).commanded n
      let m := (List.range a.ports.length).foldl (fun m i => m.put (K.PP_CMP_DELAY (m.phys (a.ports.getD i 0))) (delays.getD i 0 % 2 ^ 16)) m
      let m := match fail with
        | some i => if i < a.ports.length then m.portFail (m.phys (a.ports.getD i 0)) 2 else m
        | none => m
      ((if a.ports.any m.portDead then m.axStop n 8 else m), .ok)
  else if m.axState n = axDisabled then (m, .ok)
  else if m.axState n = axStopped ∨ m.axVel n ≠ 0 then refuseState m
  else (m.axDisableCore n, .ok)

/-- AX_ENABLE (R247). -/
def execAxEnable (ax v : Nat) (fail : Option Nat) (delays : List Nat) (s : State) : Host.Outcome State Fault Refusal :=
  done s fun _ m => m.hostWrite (K.AX_ENABLE ax) (leBytes 1 v) (wAxEnable ax fail delays)

/-- AX_GROUP (R234). -/
def wAxGroup (n v : Nat) (m : Mach) : WriteResult :=
  if m.axOwner n ≠ 0 then refuseState m else ((m.axDisarm n).put (K.AX_GROUP n) v, .ok)

/-- AX_GROUP (R234). -/
def execAxGroup (ax v : Nat) (s : State) : Host.Outcome State Fault Refusal :=
  done s fun _ m => m.hostWrite (K.AX_GROUP ax) (leBytes 1 v) (wAxGroup ax)

/-- A start of a group is asked for at a moment in µs. -/
def Mach.askStart (m : Mach) (g at_ : Nat) : Mach := { m with motion := { m.motion with starts := m.motion.starts ++ [(g, at_)] } }

/-- SG_START (R235). -/
def execSgStart (g v : Nat) (s : State) : Host.Outcome State Fault Refusal :=
  done s fun _ m => m.hostWrite (K.SG_START g) (leBytes 1 v) (onOne (fun m => m.askStart g m.time))

/-! ### Sense inputs, R240, R241 -/

/-- Sampling period of a sense input in 10 ns; the reserved rates are free. -/
def Mach.siPeriod (m : Mach) (n : Nat) : Nat :=
  match bits (m.g (K.SI_CFG n)) 7 5 with
  | 0 => 100000 | 1 => 10000 | 2 => 1000 | _ => Config.freeNat m.fresh

/-- The stamp of an edge accepted now: the first of the samples that show it. -/
def Mach.siStamp (m : Mach) (n phase : Nat) : Nat := m.now10 + phase - bits (m.g (K.SI_CFG n)) 4 1 * m.siPeriod n

/-- An accepted edge on the axes: limits of moving axes, and the input a homing seeks. -/
def Mach.axisEdge (m : Mach) (n : Nat) (active : Bool) (stamp10 : Nat) : Mach :=
  upto m.nAxes m (fun m x =>
    let a := m.axis x
    if !(m.axEnabled x) ∨ a.kind = 0 then m
    else
      let homing := match a.mode with | .home _ _ _ => a.homeSi == n | _ => false
      if homing then m.homeEdge x active stamp10
      else if active ∧ (a.limNeg = n ∨ a.limPos = n) ∧ m.axVel x ≠ 0 then m.axStop x 2 else m)

/-- The station line position at a moment in 10 ns, where the feed's planned position gives it. -/
def Mach.linePosAt (m : Mach) (st t10 : Nat) : Int :=
  if m.h (K.TH_TRIG_SRC st) = 0 then
    match m.feedAxis st with
    | some a => m.toLine st (wrapPos ((m.axis a).posAt10 t10) * 65536)
    | none => 0
  else m.toLine st ((m.countAt (m.h (K.TH_TRIG_SRC st) - 1) t10 : Rat) * 65536)

/-- The moment of an input's last change. -/
def Mach.sampleSi (m : Mach) (n : Nat) : Mach := { m with motion := { m.motion with siAt := m.motion.siAt.set n m.time } }

/-- SENSE_INPUT_EDGE (R240): a new level of an input, accepted now at a phase in 10 ns, and what its users do: stations, the
sheet path, axes, start groups. -/
def execSenseInputEdge (si : Nat) (high : Bool) (phase : Nat) (s : State) : Host.Outcome State Fault Refusal :=
  done s fun _ m =>
    let active := high != bit (m.g (K.SI_CFG si)) 0
    if m.si si = active then m
    else
      let stamp := m.siStamp si phase
      let m := m.put K.SI_STATE (withBit (m.g K.SI_STATE) si active)
      let m := (m.count (K.SI_EDGES si)).sampleSi si
      let m := upto m.nStations m (fun m st => m.mediaEdge st si active (m.linePosAt st stamp))
      let m := m.pathEdge si active
      let m := m.axisEdge si active stamp
      if active then upto 4 m (fun m g => if m.g (K.SG_TRIG_SI g) = si then m.askStart g (ceilDiv stamp 100) else m) else m

/-! ### Encoder index and step/direction inputs, R243, R244 -/

/-- QE_INDEX (R243): the index edge latches the count. -/
def execQeIndex (qe : Nat) (s : State) : Host.Outcome State Fault Refusal :=
  done s fun _ m => if m.gb (K.QE_ENABLE qe) then m.put (K.QE_INDEX_LATCH qe) (m.g (K.QE_COUNT qe)) else m

/-- Whether a step edge comes closer to the one before than the least high and low times together, 200 ns (R244). -/
def Mach.sdClose (m : Mach) (sd t : Nat) : Bool := (m.motion.sdLast.getD sd none).any (fun t' => decide (t < t' + 20))

/-- SD_STEP (R244): an active edge of a step input with the level of its direction input, at a phase in 10 ns.
Edges closer than the least high and low times together leave open how many steps are counted. -/
def execSdStep (sd : Nat) (dir : Bool) (phase : Nat) (s : State) : Host.Outcome State Fault Refusal :=
  done s fun _ m =>
    if !(m.gb (K.SD_ENABLE sd)) then m
    else
      let up := dir != (m.h (K.SD_DIR_INVERT sd) == 1)
      let t := m.now10 + phase
      let close := m.sdClose sd t
      let steps : Int := if close then Config.freeInt m.fresh else if up then 1 else -1
      let m := { m with fresh := if close then m.fresh + 1 else m.fresh, motion := { m.motion with sdLast := m.motion.sdLast.set sd (some t) } }
      let m := m.puti 32 (K.SD_COUNT sd) (m.gi 32 (K.SD_COUNT sd) + steps)
      upto m.nAxes m (fun m n => match (m.axis n).mode with
        | .follow false => if (m.axis n).sd = sd then m.followStep n steps t else m
        | _ => m)

end Sys2Proof.Machine
end

