-- ==== Sys2Proof/Machine/Items.lean ====
section
/-! DEFINITION. The commands of print items (R29-R54): definition, entry into RENDERING, commit, admission, entry into
PRINTING, completion, cancelling, release, retirement and station holds; and the end of a band (R58, R68). -/

namespace Sys2Proof.Machine

open Sys2Proof

/-! ### Definition, R29-R31 -/

/-- Bytes of RESULT_BUF an inspected item needs (R290). -/
def Mach.resultBytes (m : Mach) (it : Item) : Nat := (m.sectionOffsets (m.sections it)).2.2.2 + 512

/-- The first failed check of R31 in the order of the codes: code and offset of the offending field. Code 2 names no field and shows
ITEM_ID (0x00), code 6 LENGTH (0x0C); the window list and RESULT_BUF are checked where the item uses them (DESIGN CHOICE, log entries
31, 32). -/
def Mach.defineRefusal (m : Mach) (it : Item) : Option (Nat × Nat) :=
  if it.id = 0 ∨ (m.item? it.id).isSome then some (1, 0x00)
  else if 64 ≤ m.items.length then some (2, 0x00)
  else if !(m.stationDefined it.station) then some (3, 0x02)
  else if 2 < it.imageFormat then some (4, 0x06)
  else if !it.isSL && (it.passes == 0 || decide (4 < it.passes)) then some (4, 0x07)
  else if 16 < it.vwinCount then some (4, 0x25)
  else if !(inHostArea it.imageBase (it.stride * (it.length - 1) + it.lineBytes)) then some (5, 0x10)
  else if it.vwinCount ≠ 0 ∧ inHostArea it.vwinList (16 * it.vwinCount) = false then some (5, 0x30)
  else if it.inspect && !(inHostArea it.resultBuf (m.resultBytes it)) then some (5, 0x38)
  else if poolSize < (m.poolNeed it).1 + (m.poolNeed it).2 then some (6, 0x0C)
  else none

/-- A definition (R30, R31): the record is checked and copied, or refused with event 0x2308, which carries state 0 and the refusal code
as its reason, since there is no item (DESIGN CHOICE, log entry 33). A record with a reserved field not 0
is taken as a free one (R6). -/
def Mach.define (m : Mach) (given : Nat) : WriteResult :=
  let p := m.takenRecord (recordReserved (fld given 2 1 == 0x10)) 128 given
  let record := p.1
  let m := p.2
  let it : Item := { id := fld record 0 2, record, order := m.order }
  match m.defineRefusal it with
  | some (code, off) =>
    ((m.puts [(K.IT_REFUSE_CODE, code), (K.IT_REFUSE_OFFSET, off)]).raise 0x2308 [it.id, 0, code, it.hostTag], .refused)
  | none =>
    let m := { m with items := m.items ++ [it], order := m.order + 1 }.calDefined it
    (if it.isSL then m.slDefined else m, .ok)

/-- Effect of a write of a record's address: outside the host area it is refused by range (R52). -/
def wDefineAddr (mem : Mem) (a : Nat) (m : Mach) : WriteResult :=
  if inHostArea a 128 then m.define (mem.read a 128) else (m, .range)

/-- IT_DEFINE_ADDR (R30). -/
def execItDefineAddr (addr : Nat) (s : State) : Host.Outcome State Fault Refusal :=
  done s fun mem m => m.hostWrite K.IT_DEFINE_ADDR (leBytes 8 addr) (wDefineAddr mem)

/-- Effect of a write of a record. -/
def wDefineRecord (v : Nat) (m : Mach) : WriteResult := m.define v

/-- IT_DEFINE_RECORD (R30). -/
def execItDefineRecord (data : List Byte) (s : State) : Host.Outcome State Fault Refusal :=
  done s fun _ m => m.hostWrite K.IT_DEFINE_RECORD data wDefineRecord

/-! ### Cancel, release, retire, hold, select (R32, R43, R44, R52) -/

/-- After items have left the places they held: rendering that waited for memory or for an earlier item goes on. -/
def Mach.itemsMoved (m : Mach) : Mach := ((if m.sup == .ready then m.retryStarved else m).pump).slIdle

/-- Effect of IT_CANCEL by the item's state (R44). -/
def wCancel (id : Nat) (m : Mach) : WriteResult :=
  match m.item? id with
  | none => (m, .state)
  | some it =>
    if it.final then (m, .state)
    else if it.state == .printing then
      ((if it.isSL then m.pageSpoil id 1 .next else m.spoil id 1).itemsMoved, .ok)
    else if it.state == .admitted && it.isSL && it.pickBegun then ((m.spoil id 1).itemsMoved, .ok)
    else ((m.cancel id 1).itemsMoved, .ok)

/-- IT_CANCEL (R44). -/
def execItCancel (id : Nat) (s : State) : Host.Outcome State Fault Refusal :=
  done s fun _ m => m.hostWrite K.IT_CANCEL (leBytes 2 id) wCancel

/-- Effect of IT_RELEASE (R52). -/
def wRelease (id : Nat) (m : Mach) : WriteResult :=
  match m.item? id with
  | none => (m, .state)
  | some it => if it.hold then (m.modItem id (fun it => { it with released := true }), .ok) else (m, .state)

/-- IT_RELEASE (R52). -/
def execItRelease (id : Nat) (s : State) : Host.Outcome State Fault Refusal :=
  done s fun _ m => m.hostWrite K.IT_RELEASE (leBytes 2 id) wRelease

/-- Effect of IT_RETIRE (R32). -/
def wRetire (id : Nat) (m : Mach) : WriteResult :=
  match m.item? id with
  | none => (m, .state)
  | some it => if it.final then ({ m with items := m.items.filter (fun (x : Item) => x.id != id) }, .ok) else (m, .state)

/-- IT_RETIRE (R32). The answer carries the item as it stood (R332). -/
def execItRetire (id : Nat) (s : State) : Host.Outcome State Fault Refusal :=
  done s fun _ m => m.hostWrite K.IT_RETIRE (leBytes 2 id) wRetire

/-- Effect of IT_STATION_HOLD (R43): 1 stops admission and returns the ADMITTED items, 0 resumes it. -/
def wStationHold (st v : Nat) (m : Mach) : WriteResult :=
  if v = 1 then ((m.put (K.IT_STATION_HOLD st) 1).returnAdmitted st, .ok)
  else
    let m := if st = 4 then m.modSl (fun s => { s with causeHold := false }) else m
    (m.put (K.IT_STATION_HOLD st) 0, .ok)

/-- IT_STATION_HOLD (R43). -/
def execItStationHold (st v : Nat) (s : State) : Host.Outcome State Fault Refusal :=
  done s fun _ m => m.hostWrite (K.IT_STATION_HOLD st) (leBytes 1 v) (wStationHold st)

/-- IT_SELECT (R52). -/
def execItSelect (id : Nat) (s : State) : Host.Outcome State Fault Refusal :=
  done s fun _ m => m.hostWrite K.IT_SELECT (leBytes 2 id) (storeEffect K.IT_SELECT)

/-! ### Entry into RENDERING, R34 -/

/-- The pool memory of an item, if it can be reserved in full (R14, R34): the item's span and that of its block sums. -/
def Mach.reserve (m : Mach) (it : Item) : Option Mach :=
  let need := m.poolNeed it
  match m.poolFind need.1 with
  | none => none
  | some a =>
    let m := m.modItem it.id (fun x => { x with span := some (a, need.1) })
    if need.2 = 0 then some m
    else match m.poolFind need.2 with
      | none => none
      | some b => some (m.modItem it.id (fun x => { x with sumSpan := some (b, need.2) }))

/-- Items that may be in flight: 32, or 16 while the throttle is enforced (R34, R420). -/
def Mach.flightRoom (m : Mach) : Nat := if m.g K.DEV_THROTTLE_STATE = 2 then 16 else 32

/-- What an item reads as it enters RENDERING: generation, heads and mode of its station, the published gains and dot maps of its heads,
its deadline (R19, R34, R61, R119, R131). -/
def Mach.renderingReads (m : Mach) (it : Item) : Item :=
  let st := it.station
  let heads := if it.isSL then [] else m.activePorts st
  let it' := { it with
    state := ItemState.rendering, gen := m.g K.RD_GEN_SELECT, heads
    fallback := !it.isSL && m.g (K.TH_ST_MODE st) == 2, singleCap := if it.isSL then 0 else m.g (K.TH_SINGLE_SPEED st)
    gains := (m.stationPorts st).map (fun h => (h, m.g (K.HP_GAIN_PUBLISHED h)))
    maps := (m.stationPorts st).map (fun h => (h, m.g (K.HP_DOT_MAP h))) }
  { it' with deadline := m.itemDeadline it' }

/-- The oldest DEFINED item enters RENDERING (R34); an item whose initial speed lies below its floor is cancelled (R37). -/
def Mach.enterRendering (m : Mach) (it : Item) : Mach :=
  let it' := m.renderingReads it
  let m1 := m.modItem it.id (fun _ => it')
  match m1.reserve it' with
  | none => m
  | some m => if m.belowFloor it' then (m.cancel it.id 2).itemsMoved else (m.beginBands it.id).pump

/-- ENTER_RENDERING (R34). With no cluster up items stay DEFINED (R73). -/
def execEnterRendering (s : State) : Host.Outcome State Fault Refusal :=
  done s fun _ m =>
    if m.sup != .ready || !((List.range m.nClusters).any m.clusterUp) then m
    else
      let m := m.retryStarved
      match m.items.find? (fun it => it.state == .defined) with
      | none => m
      | some it => if m.inFlightCount < m.flightRoom then m.enterRendering it else m

/-! ### Bands, R58, R68 -/

/-- A band's output is written and checked: what it leaves, by kind (R58). A plan band's refusal ends the item's planning
(R88). -/
def Mach.bandOutput (mem : Mem) (m : Mach) (b : Band) : Mach :=
  match m.item? b.item with
  | none => m
  | some it =>
    match b.kind with
    | .thermalEnergy => m.energyDone mem it b
    | .thermalPlan =>
      let m := m.planDone mem it b
      match m.item? b.item with
      | some x => if (x.headPlan b.unit).refused then m.planRefused x else m
      | none => m
    | .laserVideo => m.laserDone mem it b
    | .inspection => m

/-- First line and number of lines of its item's image that a band reads: an energy band its lines and the lead-in before them (R80), a
laser band its scan lines; the others read none. -/
def Item.bandLines (it : Item) (b : Band) : Nat × Nat :=
  match b.kind with
  | .thermalEnergy =>
    let l := b.row % max 1 (segCount it.length) * 64
    (l - 16, min (l + 64) it.length - (l - 16))
  | .laserVideo => (128 * b.row, min 128 (it.length - 128 * b.row))
  | _ => (0, 0)

/-- Whether a word known to be uncorrectable lies in what a band reads of its item's image (R12, R40). -/
def Mach.bandInputBad (m : Mach) (it : Item) (b : Band) : Bool :=
  let l := it.bandLines b
  m.badWords != [] && (List.range l.2).any (fun i => m.badIn (it.imageBase + (l.1 + i) * it.stride) it.lineBytes)

/-- A band found an uncorrectable word in its input: an item that is RENDERING ends with reason 3 (R40). In no other state can an item
be cancelled so (R35): the band, of kind INSPECTION, is dropped (DESIGN CHOICE, log entry 64). -/
def Mach.bandInput (m : Mach) (it : Item) (b : Band) : Mach :=
  if it.state == .rendering then m.cancel it.id 3 else m.unledger b

/-- A band on a clove ends without fault: what it leaves is done, unless a word of its input is known to be uncorrectable. -/
def Mach.bandEnds (mem : Mem) (m : Mach) (it : Item) (b : Band) : Mach :=
  if m.bandInputBad it b then m.bandInput it b else (m.unledger b).bandOutput mem b

/-- BAND_COMPLETE (R58, R40, R68): the band in progress on a clove ends, whole, with an uncorrectable word in its output (re-issued)
or in its input, where that word stays uncorrectable (R12). Every band that runs to its end counts in RD_CLOVE_BANDS (DESIGN CHOICE,
log entry 73). -/
def execBandComplete (cl cv : Nat) (fault : EccFault) (s : State) : Host.Outcome State Fault Refusal :=
  done s fun mem m =>
    match ((m.cluster cl).cloves.getD cv { state := .off }).cur with
    | none => m
    | some b =>
      let m := m.modCluster cl (fun c => { c with cloves := c.cloves.modify cv (fun x => { x with
        cur := none, bands := (x.bands + 1) % 2 ^ 32, lastMark := m.time }) })
      let m := m.count (K.RD_CLOVE_BANDS (17 * cl + cv))
      let known := m.ledger.any (fun x => x.same b)
      let m := match m.item? b.item with
        | none => m
        | some it =>
          if b.discard || !known then m
          else if fault = EccFault.output then
            match m.reissue b cl cv with
            | (m, some b') => m.giveBack cl b'
            | (m, none) => m
          else if fault = EccFault.input then
            let l := it.bandLines b
            let m := if l.2 = 0 then m else m.badFound (it.imageBase + l.1 * it.stride) (it.stride * (l.2 - 1) + it.lineBytes)
            m.bandInput it b
          else m.bandEnds mem it b
      (m.itemsMoved).inspSettle mem

/-! ### Commit, R37, R38 -/

/-- Whether rendering and planning of an item are complete (R37). -/
def Mach.rendered (m : Mach) (it : Item) : Bool :=
  it.state == .rendering && it.span.isSome && !(m.ledger.any (fun b => b.item == it.id)) && (it.isSL || it.plan.complete)

/-- The values of every commit-sampled object, as stored (R38). -/
def Mach.snapshot (m : Mach) : List (Nat × Nat) :=
  m.dict.filter (fun (p : Nat × Nat) => match objRow p.1 with | some r => r.samp == .commit | none => false)

/-- The verification windows copied at commit (R37, R294); an entry with a reserved field not 0 is a free one (R6). -/
def Mach.takenWindows (mem : Mem) (m : Mach) (it : Item) : List Nat × Mach :=
  (List.range it.vwinCount).foldl (fun (acc : List Nat × Mach) i =>
    let p := acc.2.takenRecord windowReserved 16 (mem.read (it.vwinList + 16 * i) 16)
    (acc.1 ++ [p.1], p.2)) ([], m)

/-- The rendered content of an item whose image changed while it was RENDERING is open (R17, R445). -/
def Mach.openContent (m : Mach) (it : Item) : Mach :=
  let free (m : Mach) (a n : Nat) : Mach := let (x, m) := m.freeBelow (256 ^ n); m.storeNum a n x
  if it.isSL then
    let st := videoStride it.width
    upto it.length m (fun m y => free m ((it.span.getD (0, 0)).1 + 64 + y * st) (ceilDiv it.width 2))
  else it.plan.heads.foldl (fun m p =>
    upto (it.length * it.passes) m (fun m r => free m (p.addr + r * lineRecordBytes p.dots + 0x60) (2 * p.dots))) m

/-- The item commits: snapshot, calibration set, windows, block sums released, event 0x2301, lateness (R18, R37, R38, R61). -/
def Mach.commit (mem : Mem) (m : Mach) (it : Item) : Mach :=
  let late := decide (it.deadline < m.time)
  let windows := m.takenWindows mem it
  let m := windows.2
  let m := m.modItem it.id (fun x => { x with
    state := .committed, tCommit := m.time, snap := m.snapshot, cal := m.calSets.getD it.calSet 0
    plannedMin := match it.plan.speeds with | [] => 0 | v :: vs => vs.foldl min v
    sumSpan := none, vwinCopied := true
    vwin := windows.1 })
  let m := if it.touched then m.openContent it else m
  let m := m.itemEvent 0x2301 it.id
  let m := if late then (m.count K.RD_LATE_COMMITS).raise 0x2408 [it.id] else m
  m.itemsMoved

/-- COMMIT (R37); an uncorrectable word in the window list ends the item (R40). -/
def execCommit (id : Nat) (s : State) : Host.Outcome State Fault Refusal :=
  done s fun mem m =>
    match m.item? id with
    | none => m
    | some it =>
      if m.sup != .ready || !(m.rendered it) then m
      else if it.vwinCount ≠ 0 ∧ m.badIn it.vwinList (16 * it.vwinCount) then (m.cancel id 3).itemsMoved
      else m.commit mem it

/-! ### Admission, R41 -/

/-- Units of an item's station that must read READY or DEGRADED: station, heads, axes and, for an inspected item whose station asks
for it, its camera port and pipeline (R41, R289, R353). -/
def Mach.unitsUp (m : Mach) (it : Item) : Bool :=
  if it.isSL then m.isUp rdySL && (m.scanAxis :: m.procAxes).all (fun a => m.isUp (rdyAxis a))
  else
    let st := it.station
    m.isUp (rdyStation st) && it.heads.all (fun h => m.isUp (rdyHead h)) && (m.stationAxes st).all (fun a => m.isUp (rdyAxis a))

/-- Whether the camera an inspected item uses allows its admission (R41, R289). -/
def Mach.cameraUp (m : Mach) (it : Item) : Bool :=
  if !it.inspect || !(bit (m.g K.IN_REQUIRE) it.stIndex) then true
  else
    let p := if it.isSL then m.g K.IN_SL_PIPE else m.g (K.TH_OPT_PIPE it.station)
    let c := if it.isSL then m.g K.IN_SL_CONTEXT else m.g (K.TH_OPT_CONTEXT it.station)
    decide (p < m.nPipes) && m.isUp (rdyPipe p) && m.isUp (rdyCamera (m.ctxPortOf (2 * p + c % 2)))

/-- Media, and ribbon on a transfer station (R41). -/
def Mach.mediaUp (m : Mach) (it : Item) : Bool :=
  if it.isSL then m.h K.LS_SI_TRAY == 0xFF || m.si (m.h K.LS_SI_TRAY)
  else m.gb (K.TH_MEDIA_PRESENT it.station) && (!(m.hasRibbon it.station) || m.ribbonThere it.station)

/-- Whether every condition of R41 holds. -/
def Mach.admissible (m : Mach) (it : Item) : Bool :=
  let st := it.stIndex
  let here := m.itemsOf st (fun x => x.state == .admitted || x.state == .printing)
  it.state == .committed && m.sup == .ready
    && (m.itemsOf st (fun x => decide (x.order < it.order))).all (fun x => x.final || x.state == .admitted || x.state == .printing)
    && decide (here.length < (if it.isSL then 3 else 2)) && m.g (K.IT_STATION_HOLD st) == 0
    && (!it.hold || it.released) && decide (it.notBefore ≤ m.time) && m.unitsUp it && m.cameraUp it && m.mediaUp it

/-- What admission starts on a thermal station: alignment feed, profile, ribbon saves (R42, R152, R160); the ribbon is wound to a set
start as the item's first profile is about to begin (R161, Mach.panelFirst). -/
def Mach.admitThermal (mem : Mem) (m : Mach) (it : Item) : Mach :=
  let st := it.station
  let m := if m.h (K.TH_FORM_SYNC st) ≠ 0 then m.queueAlign it else m
  let m := match m.feedAxis st with
    | some a => m.axQueue a (m.passProfile it 0)
    | none => m
  if m.gb (K.TH_SAVE_ENABLE st) then m.modSta st (fun x => { x with saves := x.saves ++ m.planSaves mem it }) else m

/-- ADMISSION (R41, R42): the item is admitted; a page waits for its pick (R212). -/
def execAdmission (id : Nat) (s : State) : Host.Outcome State Fault Refusal :=
  done s fun mem m =>
    match m.item? id with
    | none => m
    | some it =>
      if !(m.admissible it) then m
      else
        let m := m.modItem id (fun x => { x with state := .admitted })
        if it.isSL then m else m.admitThermal mem it

/-! ### Printing and the end, R36, R42 -/

/-- A thermal item enters PRINTING (R42): its first pass begins on its ports, and the boundaries its feed crosses in this tick
become due. Below the recovery level it is spoiled at once (R412). -/
def Mach.beginPrinting (mem : Mem) (m : Mach) (it : Item) (a : Nat) (origin : Rat) : Mach :=
  let m := m.modItem it.id (fun x => { x with state := .printing, tStart := m.time, mediaUsed := true })
  let m := (m.itemEvent 0x2302 it.id).inspBegin it
  let m := (m.passBegin it 0 origin.floor).modAxis a (fun x => { x with begun := none })
  let m := match (m.axis a).plan with
    | some pl => m.scanLines it.station a pl.start10 m.motion.horizon
    | none => m
  (if m.vmonLow then m.spoil it.id 6 else m).inspSettle mem

/-- ENTER_PRINTING (R42). -/
def execEnterPrinting (id : Nat) (s : State) : Host.Outcome State Fault Refusal :=
  done s fun mem m =>
    match m.item? id with
    | none => m
    | some it =>
      if it.isSL || it.state != .admitted then m
      else match m.feedAxis it.station with
        | none => m
        | some a =>
          match (m.axis a).begun with
          | some (i, o) => if i = id then m.beginPrinting mem it a o else m
          | none => m

/-- ITEM_DONE (R36). -/
def execItemDone (id : Nat) (s : State) : Host.Outcome State Fault Refusal :=
  done s fun _ m => (m.itemDone id).itemsMoved

end Sys2Proof.Machine
end

