-- ==== Sys2Proof/Machine/Nv.lean ====
section
/-! DEFINITION. The commands of the non-volatile memory: ends of programs and erases, replacements, the user area, write
protection, the protected configuration, the OTP row and the event log (R370-R392). -/

namespace Sys2Proof.Machine

open Sys2Proof

/-! ### Ends of programs and erases, R373-R379 -/

/-- FLASH_PROGRAM_DONE (R373): the program in progress has ended; seg is the segment of its page that still fails. -/
def execFlashProgramDone (seg : Option Nat) (s : State) : Host.Outcome State Fault Refusal :=
  done s fun _ m => m.flashProgrammed seg

/-- FLASH_ERASE_DONE (R374): the erase in progress has ended; fail is 2 where the block did not verify blank, 4 where the stamp
could not be written. -/
def execFlashEraseDone (fail : Option Nat) (s : State) : Host.Outcome State Fault Refusal :=
  done s fun _ m => m.flashErased fail

/-- BLOCK_REPLACED (R378): the copy to the lowest free spare has ended; bad lists segments that could not be read. -/
def execBlockReplaced (spareFails : Bool) (bad : List Nat) (s : State) : Host.Outcome State Fault Refusal :=
  done s fun _ m => m.replaceBlk spareFails bad

/-! ### The user area, R380 -/

/-- n bytes of device memory; those of an uncorrectable word are not stated and are free (R12). -/
def Mach.hostBytes (m : Mach) (x : Mem) (a n : Nat) : List Byte × Mach :=
  let bs := x.bytes a n
  if m.badIn a n then
    (bs.mapIdx (fun i b => if m.badIn (a + i) 1 then BitVec.ofNat 8 (Config.freeNat (m.fresh + i)) else b),
      { m with fresh := m.fresh + n })
  else (bs, m)

/-- NV_OP_CTRL (R380): 1 ERASE, 2 PROGRAM. -/
def wNvOp (x : Mem) (v : Nat) (m : Mach) : WriteResult :=
  let b := m.g K.NV_OP_BLOCK
  let page := m.g K.NV_OP_PAGE
  let n := m.g K.NV_OP_PAGES
  let src := m.g K.NV_OP_SRC
  if b < 70 ∨ 127 < b then refuseRange m
  else if v = 2 ∧ (256 < page + n ∨ inHostArea src (256 * n) = false) then refuseRange m
  else if m.g K.NV_OP_STATE = 1 ∨ m.wp b = true then refuseState m
  else
    let m := m.puts [(K.NV_OP_STATE, 1), (K.NV_OP_FAIL, 0)]
    if m.blkFailed b then (m.opEnd 4, .ok)
    else if v = 1 then (m.flashAdd (.userErase b), .ok)
    else
      let (bs, m) := m.hostBytes x src (256 * n)
      (m.flashAdd (.userProg b page bs), .ok)

/-- NV_OP_ERASE (R380): NV_OP_CTRL 1. -/
def execNvOpErase (s : State) : Host.Outcome State Fault Refusal :=
  done s fun x m => m.hostWrite K.NV_OP_CTRL (leBytes 1 1) (wNvOp x)

/-- NV_OP_PROGRAM (R380): NV_OP_CTRL 2. -/
def execNvOpProgram (s : State) : Host.Outcome State Fault Refusal :=
  done s fun x m => m.hostWrite K.NV_OP_CTRL (leBytes 1 2) (wNvOp x)

/-! ### Write protection, R381 -/

/-- NV_WP_LO: a 1 sets its bit. -/
def wWpLo (v : Nat) (m : Mach) : WriteResult := (m.put K.NV_WP_LO (m.g K.NV_WP_LO ||| v), .ok)

/-- NV_WP_HI: a 1 for any of blocks 66-69 is refused, and nothing is set. -/
def wWpHi (v : Nat) (m : Mach) : WriteResult :=
  if v &&& 0x3C ≠ 0 then refuseRange m else (m.put K.NV_WP_HI (m.g K.NV_WP_HI ||| v), .ok)

/-- NV_WP_LO (R381). -/
def execNvWpLo (v : Nat) (s : State) : Host.Outcome State Fault Refusal :=
  done s fun _ m => m.hostWrite K.NV_WP_LO (leBytes 8 v) wWpLo

/-- NV_WP_HI (R381). -/
def execNvWpHi (v : Nat) (s : State) : Host.Outcome State Fault Refusal :=
  done s fun _ m => m.hostWrite K.NV_WP_HI (leBytes 8 v) wWpHi

/-! ### Protected configuration, R382, R383 -/

/-- Whether every field of a record lies in its range. -/
def protInRange (r : Nat) : Bool :=
  decide (fld r 4 2 = 1 ∧ 100 ≤ fld r 0x18 2 ∧ fld r 0x18 2 ≤ 8000 ∧ 1 ≤ fld r 0x1A 1 ∧ fld r 0x1A 1 ≤ 100)

/-- A record with its CRC. -/
def protSealed (r : Nat) : Nat := setFld r 0xFC 4 (crc32 (leBytes 0xFC r))

/-- The block STORE writes: the one that does not hold the copy in force. -/
def Mach.protTarget (m : Mach) : Nat := if (m.blk 2).num 0 256 = m.prot then 3 else 2

/-- NV_PROT_CTRL (R383): 1 LOAD, 2 STORE. -/
def wProtCtrl (v : Nat) (m : Mach) : WriteResult :=
  if v = 1 then (m.put K.NV_PROT_STAGE m.prot, .ok)
  else if bit (fld m.prot 6 1) 0 = true ∨ m.g K.NV_PROT_STATE = 1 then refuseState m
  else if protInRange (m.g K.NV_PROT_STAGE) = false then refuseRange m
  else
    let r := protSealed (setFld (m.g K.NV_PROT_STAGE) 0 4 (fld m.prot 0 4 + 1))
    let b := m.protTarget
    let m := m.put K.NV_PROT_STATE 1
    if m.blkFailed b then (m.protEnd false, .ok) else (m.flashAdd (.protErase b r), .ok)

/-- PROT_LOAD (R383): NV_PROT_CTRL 1. -/
def execProtLoad (s : State) : Host.Outcome State Fault Refusal :=
  done s fun _ m => m.hostWrite K.NV_PROT_CTRL (leBytes 1 1) wProtCtrl

/-- PROT_STORE (R383): NV_PROT_CTRL 2. -/
def execProtStore (s : State) : Host.Outcome State Fault Refusal :=
  done s fun _ m => m.hostWrite K.NV_PROT_CTRL (leBytes 1 2) wProtCtrl

/-! ### OTP row, R385-R387 -/

/-- NV_OTP_CUSTOMER (R386): program every bit that is 1; bad is the first bit that fails to verify, those below it being
programmed. -/
def wOtpCustomer (bad : Option Nat) (v : Nat) (m : Mach) : WriteResult :=
  let t := m.gi 16 K.DEV_DIE_TEMP
  let old := m.flash.otp / 256 ^ 0x1C0
  if bit m.flash.otp 4095 = true ∨ t < 0 ∨ 85 * 16 < t then refuseState m
  else
    let new := v &&& (2 ^ 512 - 1 - old % 2 ^ 512)
    let fails := match bad with
      | some k => if bit new k then some k else none
      | none => none
    let bits := match fails with
      | some k => new % 2 ^ k
      | none => new
    let m := { m with flash := { m.flash with otp := m.flash.otp + bits * 256 ^ 0x1C0 } }
    match fails with
    | some _ => (m.put K.NV_OTP_STATE 2, .refused)
    | none => (m.put K.NV_OTP_STATE 0, .ok)

/-- NV_OTP_CUSTOMER (R386). -/
def execNvOtpCustomer (data : List Byte) (bad : Option Nat) (s : State) : Host.Outcome State Fault Refusal :=
  done s fun _ m => m.hostWrite K.NV_OTP_CUSTOMER data (wOtpCustomer bad)

/-- NV_ATTEST_CHALLENGE (R387): the response is HMAC-SHA-256 keyed with DEVICE_KEY over the challenge and SERIAL. -/
def wAttest (v : Nat) (m : Mach) : WriteResult :=
  let key := leBytes 32 (fld m.flash.otp 0x60 32)
  (m.put K.NV_ATTEST_RESPONSE (ofLe (Crypto.hmac key (leBytes 32 v ++ leBytes 8 (fld m.flash.otp 8 8)))), .ok)

/-- NV_ATTEST_CHALLENGE (R387). -/
def execNvAttestChallenge (data : List Byte) (s : State) : Host.Outcome State Fault Refusal :=
  done s fun _ m => m.hostWrite K.NV_ATTEST_CHALLENGE data wAttest

/-! ### Event log, R390 -/

/-- The record EV_LOG_SELECT names, 0 as the newest; 32 bytes of 0 past the last. -/
def Mach.logView (m : Mach) : Nat := m.logRecords.getD (m.g K.EV_LOG_SELECT) 0

/-- A read of EV_LOG_RECORD moves the selection to the next older record. -/
def Mach.logAdvance (m : Mach) : Mach := m.put K.EV_LOG_SELECT ((m.g K.EV_LOG_SELECT + 1) % 65536)

/-- EV_LOG_RECORD (R390). -/
def execEvLogRecord (s : State) : Host.Outcome State Fault Refusal :=
  done s fun _ m => m.hostRead K.EV_LOG_RECORD Mach.logView Mach.logAdvance

/-- EV_LOG_CLEAR (R390): the usable log blocks are erased one after another. -/
def wLogClear (v : Nat) (m : Mach) : WriteResult :=
  if v ≠ 1 then (m, .ok)
  else if m.flash.logClear ≠ [] then refuseState m
  else
    let bs := (List.range 4).filter (fun b => !(m.blkFailed (66 + b)))
    let m := { m with flash := { m.flash with logClear := bs } }
    match bs with
    | [] => (m, .ok)
    | b :: _ => if m.flash.jobs.any (fun j => j.eraseBlock == some (66 + b)) then (m, .ok) else (m.flashAdd (.logErase (66 + b)), .ok)

/-- EV_LOG_CLEAR (R390). -/
def execEvLogClear (v : Nat) (s : State) : Host.Outcome State Fault Refusal :=
  done s fun _ m => m.hostWrite K.EV_LOG_CLEAR (leBytes 1 v) wLogClear

end Sys2Proof.Machine
end

