-- ==== Sys2Proof/Machine/Power.lean ====
section
/-! DEFINITION. Supplies, die temperature and clocks in service: the VMON warning and its end, the sensor, compensation, throttle and
shutdown, and the power estimate (R408-R424). -/

namespace Sys2Proof.Machine

open Sys2Proof

/-! ### VMON, R411-R413 -/

/-- A value of VMON, at 10 mV resolution, and the lowest since the last read (R411). -/
def Mach.vmonSeen (m : Mach) (mv : Nat) : Mach :=
  let v := mv / 10 * 10
  let first := m.g K.DEV_VMON_LEVEL = 0 ∧ m.g K.DEV_VMON_MIN = 0
  m.puts [(K.DEV_VMON_LEVEL, v), (K.DEV_VMON_MIN, if first then v else min v (m.g K.DEV_VMON_MIN))]

/-- Every strobe of every head port is switched off at once (R412, R421). -/
def Mach.allStrobesOff (m : Mach) : Mach := upto m.nHeads m (fun m h => m.strobesOff h)

/-- Spoil every item that is printing (R412, R421): pages from the given moment of their video. -/
def Mach.spoilPrinting (m : Mach) (reason : Nat) (from_ : BlankFrom) : Mach :=
  let m := upto m.nStations m (fun m st => m.spoilStation st reason)
  if m.hasSL then m.spoilPages reason from_ else m

/-- VMON_WARNING (R412, R413): VMON, now at mv, has stayed below DEV_VMON_WARN for DEV_VMON_FILTER; a further fall starts a warning with
a window of its own beside those still running. -/
def execVmonWarning (mv : Nat) (s : State) : Host.Outcome State Fault Refusal :=
  done s fun _ m =>
    if m.g K.DEV_VMON_WARN ≤ mv ∨ m.sup = .reset then m
    else
      let m := { m.vmonSeen mv with vmonLow := true }
      let m := { m with dev := { m.dev with warnAt := m.dev.warnAt ++ [m.time], warnFrom := if m.g K.DEV_VMON_STATE = 0 then m.time else m.dev.warnFrom } }
      let m := (m.put K.DEV_VMON_STATE 1).count K.DEV_VMON_WARNINGS
      let m := m.raise 0x200A [m.g K.DEV_VMON_LEVEL]
      let m := (m.spoilPrinting 6 .next).allStrobesOff
      m.refreshSL.itemsMoved

/-- VMON_RECOVER (R413): VMON, now at mv, has stayed above DEV_VMON_RECOVER for DEV_VMON_FILTER; the inhibition is lifted. The
duration it reports counts from the first warning since the last recovery (DESIGN CHOICE, log entry 126). -/
def execVmonRecover (mv : Nat) (s : State) : Host.Outcome State Fault Refusal :=
  done s fun _ m =>
    if m.g K.DEV_VMON_STATE = 0 ∨ mv ≤ m.g K.DEV_VMON_RECOVER ∨ m.sup = .reset then m
    else
      let t := m.dev.warnFrom
      let m := { m.vmonSeen mv with vmonLow := false }
      let m := { m with dev := { m.dev with warnAt := [] } }
      ((m.put K.DEV_VMON_STATE 0).raise 0x200B [m.time - t]).scanResume.refreshSL

/-- The controlled stop (R413, R45): SL jams with cause 8 and is held, every enabled axis is halted at D_STOP, owned ones included, and
every thermal station is held. -/
def Mach.controlledStop (m : Mach) : Mach :=
  let m := if m.hasSL then m.jamStop 8 0 0 else m
  let m := if m.hasSL && m.g (K.IT_STATION_HOLD 4) == 0 then m.setHold 4 0 else m
  let m := upto m.nStations m (fun m st => m.modSta st (fun x => { x with cut := .none, panel := none, learn := none, aligns := [] }))
  let m := upto m.nAxes m (fun m n => m.axHalt n (m.axis n).dStop)
  upto m.nStations m (fun m st => m.setHold st 0)

/-- VMON_WINDOW_EXPIRED (R413): no recovery by 20.000 ms from the start of the warning. -/
def execVmonWindowExpired (s : State) : Host.Outcome State Fault Refusal :=
  done s fun _ m =>
    match m.dev.warnAt with
    | [] => m
    | t :: rest =>
      if m.time < t + 20000 then m
      else
        let m := { m with dev := { m.dev with warnAt := rest } }
        let m := (m.put K.DEV_VMON_STATE 2).count K.DEV_VMON_STOPS
        ((m.raise 0x200C []).controlledStop).itemsMoved

/-- A read of DEV_VMON_MIN starts again at the present level (R424). -/
def Mach.vmonMinRead (m : Mach) : Mach := m.put K.DEV_VMON_MIN (m.g K.DEV_VMON_LEVEL)

/-- DEV_VMON_MIN (R424). -/
def execDevVmonMin (s : State) : Host.Outcome State Fault Refusal :=
  done s fun _ m => m.hostRead K.DEV_VMON_MIN (fun m => m.g K.DEV_VMON_MIN) Mach.vmonMinRead

/-- The three levels keep their order (R411). -/
def wVmonLevel (k v : Nat) (m : Mach) : WriteResult :=
  let m' := m.put k v
  if m'.g K.DEV_VMON_RESET < m'.g K.DEV_VMON_WARN ∧ m'.g K.DEV_VMON_WARN < m'.g K.DEV_VMON_RECOVER then (m', .ok) else refuseRange m

/-! ### Throttle and shutdown, R420-R422 -/

/-- Enforce the throttle (R420): 1 grace ended, 2 115 °C, 3 forced. -/
def Mach.throttle (m : Mach) (cause : Nat) : Mach :=
  if m.g K.DEV_THROTTLE_STATE = 2 then m
  else
    let m := (m.puts [(K.RD_CLOVE_MHZ, 500), (K.DEV_THROTTLE_STATE, 2)]).count K.DEV_THROTTLE_COUNT
    { m with dev := { m.dev with graceAt := none } }.raise 0x2005 [cause]

/-- Thermal shutdown (R421). -/
def Mach.shutdown (m : Mach) : Mach :=
  if m.g K.DEV_SHUTDOWN ≠ 0 then m
  else
    let m := (m.put K.DEV_SHUTDOWN 1).raise 0x2007 [m.g K.DEV_DIE_TEMP, m.g K.DEV_SENSOR_BROKEN]
    let m := upto m.nAxes m (fun m n => m.axStop n 7)
    let m := (m.spoilPrinting 8 .now).allStrobesOff
    let m := if m.hasSL then m.jamStop 8 0 0 else m
    let m := if m.hasSL then m.slShutdown else m
    (m.throttle 2).itemsMoved

/-- 105.0 °C or above with the throttle not in force requests it (R420), also where 115.0 °C then enforces it at once. -/
def Mach.throttleRequest (m : Mach) (t : Int) : Mach :=
  if decide (1680 ≤ t) && m.g K.DEV_THROTTLE_STATE == 0 then
    let m : Mach := { m.put K.DEV_THROTTLE_STATE 1 with dev := { m.dev with graceAt := some (m.time + 1000 * m.g K.DEV_THROTTLE_GRACE) } }
    m.raise 0x2004 [m.g K.DEV_DIE_TEMP]
  else m

/-- The temperature in use, in 1/16 °C, governs throttle and shutdown (R420, R421). -/
def Mach.tempPolicy (m : Mach) (t : Int) : Mach :=
  let m := m.puti 16 K.DEV_DIE_TEMP t
  let peak := if m.dev.tempSeen then max t (m.gi 16 K.DEV_TEMP_PEAK) else t
  let m := { m.puti 16 K.DEV_TEMP_PEAK peak with dev := { m.dev with
    tempSeen := true
    coolAt := if t < 1600 then (match m.dev.coolAt with | some x => some x | none => some m.time) else none } }
  let m := m.throttleRequest t
  if 2000 ≤ t then m.shutdown else if 1840 ≤ t then m.throttle 2 else m

/-- The sensor is judged broken (R419): latched, event 0x2009 with the latest reading, 126.0 °C in use. -/
def Mach.sensorBroken (m : Mach) : Mach :=
  if m.g K.DEV_SENSOR_BROKEN ≠ 0 then m
  else ((m.put K.DEV_SENSOR_BROKEN 1).raise 0x2009 [m.g K.DEV_DIE_TEMP_RAW]).tempPolicy 2016

/-! ### Compensation, R301, R416 -/

/-- A REAL32 object as an exact number; what is not finite counts as free. -/
def Mach.exact (m : Mach) (k : Nat) : Rat :=
  match m.gf k with
  | .fin q => q
  | .inf _ => (Config.freeInt m.fresh : Rat)
  | .nan => (Config.freeInt m.fresh : Rat)

/-- k_T of a die temperature in 1/16 °C (R301). -/
def Mach.kTOf (m : Mach) (t : Int) : Rat :=
  let d : Rat := (t : Rat) / 16 - 25
  let tc1 : Rat := (sfld m.flash.otp 0x20 2 : Rat) / 100
  let tc2 : Rat := (sfld m.flash.otp 0x22 2 : Rat) / 10000
  1 + (tc1 * d + tc2 * d * d) / 1000000

/-- The target of the crystal compensation in ppb, limited to ±200 ppm (R416). -/
def Mach.xtalTarget (m : Mach) (t : Int) : Int :=
  let d : Rat := (t : Rat) / 16 - m.exact K.DEV_XTAL_T0
  let p : Rat := m.exact K.DEV_XTAL_A0 + m.exact K.DEV_XTAL_A1 * d + m.exact K.DEV_XTAL_A2 * d * d + m.exact K.DEV_XTAL_A3 * d * d * d
  clampI (-200000) 200000 (roundRat (p * 1000))

/-- The correction follows its target by at most 0.1 ppm per reading. -/
def Mach.compensate (m : Mach) (t : Int) : Mach :=
  let k := m.kTOf t
  let m := { m.puti 32 K.AN_TEMP_COMP (roundRat ((k - 1) * 1000000)) with an := { m.an with kT := k } }
  let c := m.gi 32 K.DEV_XTAL_CORR
  m.puti 32 K.DEV_XTAL_CORR (c + clampI (-100) 100 (m.xtalTarget t - c))

/-! ### Readings, R418, R419 -/

/-- Every reading over 1 s has been identical while DEV_POWER_EST changed by 1.00 W or more (R419). -/
def Mach.stuckSensor (m : Mach) : Bool :=
  let l := (m.dev.powers.filter (fun p => decide (m.time ≤ p.1 + 1000000))).map Prod.snd
  decide (m.dev.sameAt + 1000000 ≤ m.time) && decide (l.foldl min 65535 + 100 ≤ l.foldl max 0)

/-- DIE_TEMP_READING (R418): a corrected reading in 1/16 °C, and whether it carries the over-range flag. -/
def execDieTempReading (reading : Int) (outOfRange : Bool) (s : State) : Host.Outcome State Fault Refusal :=
  done s fun _ m =>
    if m.sup = .reset then m
    else
      let raw := sext 16 (ofInt 16 reading)
      let same := m.dev.tempSeen && m.gi 16 K.DEV_DIE_TEMP_RAW == raw
      let d : DevRt := { m.dev with tempAt := m.time, sameAt := if same then m.dev.sameAt else m.time }
      let m : Mach := { m.puti 16 K.DEV_DIE_TEMP_RAW raw with dev := d }
      if m.g K.DEV_SENSOR_BROKEN ≠ 0 then m.tempPolicy 2016
      else if reading < -800 ∨ 2800 < reading ∨ outOfRange = true ∨ m.stuckSensor = true then m.sensorBroken
      else (m.compensate raw).tempPolicy raw

/-- SENSOR_NO_READING (R419): none for 3 ms. -/
def execSensorNoReading (s : State) : Host.Outcome State Fault Refusal :=
  done s fun _ m => if m.sup = .reset ∨ m.time < m.dev.tempAt + 3000 then m else m.sensorBroken

/-- THROTTLE_GRACE_END (R420). -/
def execThrottleGraceEnd (s : State) : Host.Outcome State Fault Refusal :=
  done s fun _ m =>
    match m.dev.graceAt with
    | none => m
    | some t =>
      if m.time < t ∨ m.g K.DEV_THROTTLE_STATE ≠ 1 then m
      else if 1600 ≤ m.gi 16 K.DEV_DIE_TEMP then m.throttle 1
      else { m.put K.DEV_THROTTLE_STATE 0 with dev := { m.dev with graceAt := none } }

/-- THROTTLE_RELEASE (R420): below 100.0 °C for 1 s without interruption, and not forced. -/
def execThrottleRelease (s : State) : Host.Outcome State Fault Refusal :=
  done s fun _ m =>
    match m.dev.coolAt with
    | none => m
    | some t =>
      if m.time < t + 1000000 ∨ m.g K.DEV_THROTTLE_STATE ≠ 2 ∨ m.g K.DEV_THROTTLE_FORCE ≠ 0 then m
      else ((m.puts [(K.RD_CLOVE_MHZ, 1000), (K.DEV_THROTTLE_STATE, 0)]).raise 0x2006 []).itemsMoved

/-- DEV_THROTTLE_FORCE (R420). -/
def wThrottleForce (v : Nat) (m : Mach) : WriteResult :=
  let m := m.put K.DEV_THROTTLE_FORCE v
  if v = 1 then (m.throttle 3, .ok) else (m, .ok)

/-- DEV_THROTTLE_FORCE (R420). -/
def execDevThrottleForce (v : Nat) (s : State) : Host.Outcome State Fault Refusal :=
  done s fun _ m => m.hostWrite K.DEV_THROTTLE_FORCE (leBytes 1 v) wThrottleForce

/-- DEV_SHUTDOWN_CLEAR (R422): below 95.0 °C with a sound sensor. -/
def wShutdownClear (v : Nat) (m : Mach) : WriteResult :=
  if v ≠ 1 then (m, .ok)
  else if 1520 ≤ m.gi 16 K.DEV_DIE_TEMP ∨ m.g K.DEV_SENSOR_BROKEN ≠ 0 then refuseState m
  else if m.g K.DEV_SHUTDOWN = 0 then (m, .ok)
  else (((m.put K.DEV_SHUTDOWN 0).raise 0x2008 []).refreshSL, .ok)

/-- DEV_SHUTDOWN_CLEAR (R422). -/
def execDevShutdownClear (v : Nat) (s : State) : Host.Outcome State Fault Refusal :=
  done s fun _ m => m.hostWrite K.DEV_SHUTDOWN_CLEAR (leBytes 1 v) wShutdownClear

/-- A read of DEV_TEMP_PEAK starts again at the temperature in use (R424). -/
def Mach.tempPeakRead (m : Mach) : Mach := m.put K.DEV_TEMP_PEAK (m.g K.DEV_DIE_TEMP)

/-- DEV_TEMP_PEAK (R424). -/
def execDevTempPeak (s : State) : Host.Outcome State Fault Refusal :=
  done s fun _ m => m.hostRead K.DEV_TEMP_PEAK (fun m => m.g K.DEV_TEMP_PEAK) Mach.tempPeakRead

/-! ### Power, R409 -/

/-- Power by the table of R409, in 10 mW; rates are the pixel rates of the pipelines. -/
def Mach.powerNominal (m : Mach) (rates : List Nat) : Nat :=
  let busy := ((m.clusters.flatMap Cluster.cloves).filter (fun v => v.state == .inService && v.cur.isSome)).length
  let cloves := busy * (if m.g K.RD_CLOVE_MHZ = 500 then 6 else 11)
  let pipes := (List.range m.nPipes).foldl (fun a p => if m.isUp (rdyPipe p) then a + 12 * rates.getD p 0 / 400000000 else a) 0
  let ports := ((List.range m.nHeads).filter (fun h => m.g (K.HP_MODE h) == 2 && (m.head h).firing.isSome)).length
  340 + cloves + pipes + 2 * ports

/-- POWER_ESTIMATE (R409): the estimate lies within ±15 % of the table; where is not stated. -/
def execPowerEstimate (rates : List Nat) (s : State) : Host.Outcome State Fault Refusal :=
  done s fun _ m =>
    let n := m.powerNominal rates
    let lo := n * 85 / 100
    let (d, m) := m.freeBelow (n * 115 / 100 - lo + 1)
    let m := m.put K.DEV_POWER_EST ((lo + d) % 65536)
    { m with dev := { m.dev with
      powers := m.dev.powers.filter (fun (p : Nat × Nat) => decide (m.time ≤ p.1 + 1000000)) ++ [(m.time, m.g K.DEV_POWER_EST)] } }

end Sys2Proof.Machine
end

