-- ==== Sys2Proof/Machine/Boot.lean ====
section
/-! DEFINITION. Reset and boot: what a reset keeps, what a power loss leaves undefined, the boot sequence and recovery mode (R349-R351,
R377, R381-R385, R410, R414, R417, R422). -/

namespace Sys2Proof.Machine

open Sys2Proof

/-! ### What a reset keeps, R349, R377 -/

/-- Program or erase in progress when the controller is cut: the segments of the page, or the whole block, are undefined, and an
erase leaves no stamp (R377). -/
def Mach.flashCut (m : Mach) : Mach :=
  let m := match m.flash.begun, m.flash.jobs with
    | true, .userProg b p _ :: _ => m.modBlk b (fun x => { x with undef := x.undef ++ (List.range 8).map (fun i => 8 * p + i) })
    | true, .protProg b _ :: _ => m.modBlk b (fun x => { x with undef := x.undef ++ List.range 8 })
    | true, j :: _ =>
      match j.eraseBlock with
      | some b => m.modBlk b (fun x => { x with undef := [2048], stamp := false })
      | none => m
    | _, _ => m
  let m := match m.flash.jobs.find? FlashJob.isBank with
    | some (.bank b s _) =>
      let (f, n) := slotBlocks (2 * b + s)
      upto n m (fun m i => m.modBlk (f + i) (fun x => { x with undef := [2048], factory := none, cells := [] }))
    | _ => m
  let m := if m.calStoring != [] then
      let m := m.modBlk m.flash.calHead (fun x => { x with undef := x.undef ++ (List.range 8).map (fun i => 8 * m.flash.calPage + i) })
      { m with flash := { m.flash with calPage := min 255 (m.flash.calPage + 1) } }
    else m
  match m.ev.logQueue with
  | [] => m
  | r :: _ =>
    if !m.logWritable then m
    else
      let (d, m) := m.freeBelow 3
      if d = 0 then m else m.logAppend (if d = 1 then none else some (m.logBytes r))

/-- The flash controller after a reset: contents, journal, maps and heads stand; what counts since the reset starts again. -/
def FlashState.kept (f : FlashState) : FlashState :=
  { f with corrMax := List.replicate 128 0, weak := List.replicate 128 false, failed := List.replicate 128 false
           migr := [], jobs := [], begun := false, suspRead := false, logClear := [], logDropAt := none }

/-- A reset (R349): every object at its default, every output at its reset state, held until it is released. Kept are the flash, the
OTP row, the uncorrectable words of DRAM, and the shutdown latch with the sensor's judgement (R419, R422). -/
def Mach.resetTo (m : Mach) (cause clkFail : Nat) : Mach :=
  let m := m.flashCut
  let broken := m.g K.DEV_SENSOR_BROKEN
  let shut := m.g K.DEV_SHUTDOWN
  let n : Mach := { Mach.atReset m.variant with
    fresh := m.fresh, flash := m.flash.kept, calFlash := m.calFlash, badWords := m.badWords, out := m.out, test := m.test
    dev := { cause, clkFail } }
  let n := n.puts [(K.DEV_SHUTDOWN, shut), (K.DEV_SENSOR_BROKEN, broken)]
  if broken = 0 then n else n.puti 16 K.DEV_DIE_TEMP 2016

/-- A reset that also ends the power: the latches of the safety monitor fall (R422). -/
def Mach.powerOff (m : Mach) : Mach :=
  let n := m.resetTo 0 0
  { n.puts [(K.DEV_SHUTDOWN, 0), (K.DEV_SENSOR_BROKEN, 0), (K.DEV_DIE_TEMP, 0)] with badWords := [] }

/-- The state with the contents of DRAM gone. -/
def State.dramLost (s : State) : State := { s with mem := {} }

/-- POWER_ON (R349, R410): the device is in reset, boot cause 0. -/
def execPowerOn (s : State) : Host.Outcome State Fault Refusal := done s.dramLost fun _ m => m.powerOff

/-- POWER_LOSS (R377, R410): all operation ends. -/
def execPowerLoss (s : State) : Host.Outcome State Fault Refusal := done s.dramLost fun _ m => m.powerOff

/-- RESET_N (R349, R438): a low pulse of 1 µs or longer resets; a shorter one may or may not. -/
def execResetN (lowNs : Nat) (s : State) : Host.Outcome State Fault Refusal :=
  done s fun _ m =>
    if 1000 ≤ lowNs then m.resetTo 1 0
    else
      let (d, m) := m.freeBelow 2
      if d = 0 then m else m.resetTo 1 0

/-- VMON_RESET (R414): VMON, now at mv, has been below DEV_VMON_RESET for 10 µs. -/
def execVmonReset (mv : Nat) (s : State) : Host.Outcome State Fault Refusal :=
  done s fun _ m => if m.g K.DEV_VMON_RESET ≤ mv then m else m.resetTo 3 0

/-- CLOCK_FAILURE (R417): 1 crystal stopped, 2 lock lost, 3 frequency departed by more than 1 %. -/
def execClockFailure (cause : Nat) (s : State) : Host.Outcome State Fault Refusal :=
  done s fun _ m => if cause = 0 then m else m.resetTo 0 cause

/-! ### Release, R350 steps 1-5 -/

/-- The copy of the protected configuration in a block, if its CRC is valid (R382). -/
def Mach.protCopy (m : Mach) (b : Nat) : Option Nat :=
  let r := (m.blk b).num 0 256
  if (m.blk b).undef = [] ∧ fld r 0xFC 4 = crc32 (leBytes 0xFC r) then some r else none

/-- The record in force at boot: the valid copy with the higher SEQ, else the defaults (R383). -/
def Mach.protLoad (m : Mach) : Mach :=
  match m.protCopy 2, m.protCopy 3 with
  | some a, some b => { m with prot := if fld a 0 4 < fld b 0 4 then b else a }
  | some a, none => { m with prot := a }
  | none, some b => { m with prot := b }
  | none, none => { m with prot := protDefault, dev := { m.dev with protBad := true } }

/-- Objects whose default exceeds its ceiling start at the ceiling; INTLK_FORCE holds LS_INTLK_ENABLE at 1 (R382). -/
def Mach.protApply (m : Mach) : Mach :=
  let m := upto m.nHeads m (fun m h => m.puts
    [(K.HP_PEPPER_ON_LIMIT h, min (objDefault (K.HP_PEPPER_ON_LIMIT h)) (fld m.prot 0x18 2)),
     (K.HP_PEPPER_DUTY_LIMIT h, min (objDefault (K.HP_PEPPER_DUTY_LIMIT h)) (fld m.prot 0x1A 1))])
  upto 2 m (fun m b => m.put (K.BUS_OV_CUT b) (min (objDefault (K.BUS_OV_CUT b)) (fld m.prot (0x1C + 2 * b) 2)))

/-- Write protection at boot (R381): WP_BOOT without blocks 66-69, and blocks 0-5 always; recovery mode leaves blocks 6-61 open. -/
def Mach.wpBoot (m : Mach) (recovery : Bool) : Mach :=
  let w := fld m.prot 8 16
  let w := (List.range 128).foldl (fun a b =>
    let on := (bit w b && !(decide (66 ≤ b ∧ b < 70)) && !(recovery && decide (6 ≤ b ∧ b < 62))) || decide (b < 6)
    if on then a + 2 ^ b else a) 0
  m.puts [(K.NV_WP_LO, w % 2 ^ 64), (K.NV_WP_HI, w / 2 ^ 64)]

/-- Whether the supervisor slot of a bank passes. -/
def Mach.supPasses (m : Mach) (b : Nat) : Bool := m.flash.slots.getD (2 * b) 0 == 1

/-- The bank that boots (R351, R366): a trial is rolled back, a bank that fails gives way to the other. -/
def Mach.chooseBank (m : Mach) : Mach :=
  let m := if m.flash.trial then
      { m with flash := { m.flash with active := 1 - m.flash.active, trial := false }, dev := { m.dev with rollback := some 1 } }
    else m
  if m.supPasses m.flash.active || !(m.supPasses (1 - m.flash.active)) then m
  else { m with flash := { m.flash with active := 1 - m.flash.active }, dev := { m.dev with rollback := some 5 } }

/-- A block whose stamp is missing is handled by its region (R377): bank slots read INCOMPLETE, the user area waits for its erase,
the others are erased again. -/
def Mach.bootBlock (m : Mach) (b : Nat) : Mach :=
  if (m.blk b).stamp then m
  else
    let m := { m with dev := { m.dev with intBlocks := m.dev.intBlocks ++ [b] } }
    match slotOf b with
    | some k => m.slotBad k
    | none =>
      if 70 ≤ b then m
      else
        let m := m.modBlk b FlashBlk.erased
        if flashRegion b = 6 then { m with flash := { m.flash with log := m.flash.log.set (b - 66) [] } }
        else if flashRegion b = 5 then
          { m with calFlash := m.calFlash.mapIdx (fun i x => if m.flash.calLoc.getD i none = some b then 0 else x)
                   flash := { m.flash with calLoc := m.flash.calLoc.map (fun x => if x = some b then none else x) } }
        else m

/-- Whether a stored calibration record is valid: its CRC is correct (R141). -/
def calValid (x : Nat) : Bool := fld x 0xFC 4 == crc32 (leBytes 0xFC x)

/-- The calibration sets are loaded (R142): one without a valid record is all zero, and its bit reads 0. -/
def Mach.calBoot (m : Mach) : Mach :=
  let sets := m.calFlash.map (fun x => if calValid x then x else 0)
  let bits := (List.range 16).foldl (fun a i => if calValid (m.calFlash.getD i 0) then a + 2 ^ i else a) 0
  { m.put K.TH_CAL_VALID bits with calSets := sets }

/-- Records of the log that are neither blank nor valid (R389). -/
def Mach.logBad (m : Mach) : Nat := (m.flash.log.flatMap (fun l => l.filter Option.isNone)).length

/-- Whether VENDOR_CRC of the OTP row is right (R385). -/
def Mach.vendorOk (m : Mach) : Bool := fld m.flash.otp 0x1BC 4 == crc32 (leBytes 0x1BC m.flash.otp)

/-- Whether VMON at mv lets a reset go (R414): after a VMON reset above DEV_VMON_RECOVER, else not below DEV_VMON_RESET. -/
def Mach.vmonAllows (m : Mach) (mv : Nat) : Bool :=
  if m.dev.cause = 3 then decide (m.g K.DEV_VMON_RECOVER < mv) else decide (m.g K.DEV_VMON_RESET ≤ mv)

/-- The boot up to the start of the supervisor firmware (R350 steps 1-5). -/
def Mach.bootStart (m : Mach) : Mach :=
  let m := ((m.protLoad).protApply).chooseBank
  let recovery := !(m.supPasses m.flash.active)
  let m := m.wpBoot recovery
  let m := { m with flash := { m.flash with bootCount := (m.flash.bootCount + 1) % 2 ^ 32 }, time := 0, sup := .booting }
  let m := m.journalPage
  let m := upto 128 m (fun m b => m.bootBlock b)
  let m := { m with flash := { m.flash with blks := m.flash.blks.mapIdx (fun i (x : FlashBlk) => if 128 ≤ i ∧ !x.stamp then x.erased else x) } }
  let m := m.calBoot.put K.EV_LOG_BAD (m.logBad % 2 ^ 32)
  m.puts [(K.AN_STATE, vStarting), (K.DEV_READINESS (rdyAnalogue - 1), vStarting)]

/-- RESET_RELEASE (R350): the boot begins, with VMON at mv. Without a valid VENDOR_CRC it stops at step 3 (R385). -/
def execResetRelease (mv : Nat) (s : State) : Host.Outcome State Fault Refusal :=
  done s fun _ m =>
    if m.sup ≠ .reset ∨ m.vmonAllows mv = false ∨ m.vendorOk = false then m else (m.bootStart).vmonSeen mv

/-! ### Step 6 and 7, R350, R351 -/

/-- A LOAD of every cluster from the active bank begins (R350 step 7). -/
def Mach.bootClusters (m : Mach) : Mach :=
  upto m.nClusters m (fun m k =>
    let m := (m.put (K.RD_CL_IMAGE_SEL k) m.flash.active).modCluster k (fun c => { c with phase := .copying, loadSel := m.flash.active })
    m.setCluster k vUpdating)

/-- The header of a slot (R363). -/
def Mach.slotHeader (m : Mach) (k : Nat) : Nat := m.flashNum (65536 * (slotBlocks k).1) 256

/-- The functions that are up at step 6: U0-U7, CF0, CF1, flash, supervisor; EN0 and EN1 start; clusters load. -/
def Mach.bootUnits (m : Mach) : Mach :=
  let m := m.setReady rdySup vReady
  let m := upto 8 m (fun m u => m.setReady (rdyUart u) vReady)
  let m := (m.setReady rdyFlash vReady).cf0Start
  let m := (m.setReady (rdyCan 0) vReady).cf1Restart
  let m := upto 2 m (fun m e => if m.gb (K.NET_PORT_ENABLE e) then m.setReady (rdyEth e) vStarting else m)
  let m := m.put K.RD_GEN_SELECT (fld (m.slotHeader (2 * m.flash.active + 1)) 8 4)
  m.bootClusters

/-- What the boot found, reported once the supervisor is READY: rollback or fallback, protected configuration, interrupted
blocks, calibration sets without a record. -/
def Mach.bootFindings (m : Mach) : Mach :=
  let m := match m.dev.rollback with
    | some c => m.raise 0x3024 [m.flash.active, c]
    | none => m
  let m := m.raiseIf m.dev.protBad 0x3008 []
  let m := m.dev.intBlocks.foldl (fun m b => m.raise 0x3004 [b]) m
  let m := upto 16 m (fun m i => m.raiseIf (!(calValid (m.calFlash.getD i 0))) 0x2783 [i])
  { m with dev := { m.dev with rollback := none, protBad := false, intBlocks := [] } }

/-- Events kept back are sent now, with the moments they were raised at (R346). -/
def Mach.releaseDeferred (m : Mach) : Mach :=
  let l := m.dev.deferred
  l.foldl (fun m (e : Nat × List Nat × Nat) => m.raiseAt e.1 e.2.1 e.2.2) { m with dev := { m.dev with deferred := [] } }

/-- BOOT_COMPLETE (R350, R351): the supervisor reads READY with event 0x2001, or the device is in recovery mode. -/
def execBootComplete (s : State) : Host.Outcome State Fault Refusal :=
  done s fun _ m =>
    if m.sup ≠ .booting then m
    else
      let m := m.puts [(K.DEV_BOOT_CAUSE, m.dev.cause), (K.DEV_BOOT_TIME, m.time % 2 ^ 32), (K.DEV_CLK_FAIL_LAST, m.dev.clkFail)]
      if m.supPasses m.flash.active then
        let m := { m with sup := .ready }
        let m := m.raise 0x2001 [m.dev.cause, m.flash.active, m.time % 2 ^ 32]
        let m := m.raiseIf (m.dev.clkFail != 0) 0x200D [m.dev.clkFail]
        (((m.bootFindings).releaseDeferred).bootUnits).flashStart
      else
        let m := ({ m with sup := .recovery }).put K.DEV_MODE 1
        let m := (m.raise 0x2003 []).raiseIf (m.dev.clkFail != 0) 0x200D [m.dev.clkFail]
        let m := ((m.bootFindings).releaseDeferred).setReady rdySup vFault
        let m := (m.setReady rdyFlash vReady).cf0Start
        let m := m.setReady (rdyCan 0) vReady
        (upto 2 m (fun m e => m.setReady (rdyEth e) vStarting)).flashStart

end Sys2Proof.Machine
end

