-- ==== Sys2Proof/Machine/Banks.lean ====
section
/-! DEFINITION. Firmware banks and the supervisor's restarts: image checks, programming, swap, trial, confirmation and rollback, and
the kernel copy of a cluster (R10, R71, R346, R363-R366). -/

namespace Sys2Proof.Machine

open Sys2Proof

/-! ### The image check, R363 -/

/-- Bytes of a slot: 1,536 KiB for a supervisor, 256 KiB for a kernel. -/
def slotSize (slot : Nat) : Nat := if slot = 0 then 1572864 else 262144

/-- The variant's bit in VARIANTS. -/
def Mach.variantBit (m : Mach) : Nat := match m.variant with | .mp6410 => 0 | .mp6420 => 1 | .mp6440 => 2

/-- The refusal cause of an image, 0 where it passes (R363, R364): 1 MAGIC or FORMAT, 2 TYPE or VARIANTS, 3 LENGTH, 4 key hash,
5 signature, 6 digest. -/
def Mach.imageCause (m : Mach) (img : List Byte) : Nat :=
  let h := ofLe (img.take 256)
  let ty := fld h 4 1
  let len := fld h 0xC 4
  if fld h 0 4 ≠ 0x4D524446 ∨ fld h 5 1 ≠ 1 then 1
  else if (ty ≠ 1 ∧ ty ≠ 2) ∨ bit (fld h 6 1) m.variantBit = false then 2
  else if slotSize (ty - 1) < len + 256 ∨ img.length < len + 256 then 3
  else if Crypto.sha256 ((img.drop 0x60).take 64) ≠ leBytes 32 (fld m.flash.otp 0x40 32) then 4
  else if Crypto.verify (fld h 0x60 32) (fld h 0x80 32) (fld h 0xA0 32) (fld h 0xC0 32) (Crypto.sha256 (img.take 0xA0)) = false then 5
  else if Crypto.sha256 ((img.drop 256).take len) ≠ (img.drop 0x40).take 32 then 6
  else 0

/-- The image check's outcome: a header with a reserved field not 0 leaves it open (R6). -/
def Mach.imageJudged (m : Mach) (img : List Byte) : Nat × Mach :=
  if ofLe (img.take 256) &&& headerReserved = 0 then (m.imageCause img, m) else m.freeBelow 7

/-- The kernel generations a bank's supervisor schedules. -/
def Mach.kgen (m : Mach) (b : Nat) : Nat × Nat := let h := m.slotHeader (2 * b); (fld h 0x14 4, fld h 0x18 4)
def Mach.inKgen (m : Mach) (b g : Nat) : Bool := decide ((m.kgen b).1 ≤ g ∧ g ≤ (m.kgen b).2)

/-- Whether a bank is VALID: both slots pass and the kernel's generation lies within the supervisor's range (R363). -/
def Mach.bankValid (m : Mach) (b : Nat) : Bool :=
  m.flash.slots.getD (2 * b) 0 == 1 && m.flash.slots.getD (2 * b + 1) 0 == 1 && m.inKgen b (fld (m.slotHeader (2 * b + 1)) 8 4)

/-- Whether a bank is being programmed. -/
def Mach.bankBusy (m : Mach) : Bool := m.flash.jobs.any FlashJob.isBank

/-- NV_BANK_STATE of a bank: 0 EMPTY, 1 VALID, 2 ACTIVE, 3 TRIAL, 4 PROGRAMMING, 5 INCOMPLETE. The active bank reads INCOMPLETE
only where a slot has failed (R379). -/
def Mach.bankState (m : Mach) (b : Nat) : Nat :=
  let s := m.flash.slots.getD (2 * b) 0
  let k := m.flash.slots.getD (2 * b + 1) 0
  if m.flash.active = b then (if s = 3 ∨ k = 3 then 5 else if m.flash.trial then 3 else 2)
  else if m.bankBusy then 4
  else if s = 0 ∧ k = 0 then 0
  else if m.bankValid b then 1 else 5

/-! ### Programming, R364 -/

/-- A refused or failed program: its cause, and event 0x3022. -/
def Mach.bankFail (m : Mach) (c : Nat) : Mach := (m.put K.NV_BANK_FAIL c).raise 0x3022 [c]

/-- PROGRAM (R364). -/
def Mach.bankProgram (m : Mach) (x : Mem) : WriteResult :=
  let src := m.g K.NV_BANK_SRC
  let len := m.g K.NV_BANK_LEN
  let b := 1 - m.flash.active
  if m.flash.trial ∨ m.bankBusy ∨ (m.sup = .recovery ∧ m.dev.swapAt.isSome = true) then (m.bankFail 7, .state)
  else if inHostArea src len = false then (m.bankFail 3, .range)
  else
    let (img, m) := m.hostBytes x src len
    let (c, m) := m.imageJudged img
    if c ≠ 0 then (m.bankFail c, .range)
    else
      let h := ofLe (img.take 256)
      let slot := fld h 4 1 - 1
      let (f, n) := slotBlocks (2 * b + slot)
      if (List.range n).any (fun i => m.wp (f + i)) then (m.bankFail 7, .state)
      else
        let m := (m.slotBad (2 * b + slot)).puts [(K.NV_BANK_FAIL, 0), (K.NV_BANK_PROGRESS, 0)]
        ((m.flashAdd (.bank b slot (img.take (fld h 0xC 4 + 256)))).setReady rdyFlash vUpdating, .ok)

/-- A block of a slot that fails while it is programmed: replaced at once where a spare is free (R378), else out (R379). -/
def Mach.bankBlockFails (m : Mach) (b cause : Nat) : Mach × Bool :=
  let (m, spare) := m.blkFail b cause [] { block := b, blank := true }
  if spare then
    let g := m.flash.migr.filter (fun x => x.block ≠ b)
    match m.freeSpares with
    | s :: _ =>
      let f := m.flash
      let m := { m with flash := { f with map := f.map.filter (fun (p : Nat × Nat) => p.1 ≠ b) ++ [(b, s)], migr := g } }
      (m.journalPage.raise 0x3003 [b, s], true)
    | [] => (m, false)
  else (m, false)

/-- Pairs of a block and a cause. -/
def pairs : List Nat → List (Nat × Nat)
  | a :: b :: l => (a, b) :: pairs l
  | _ => []

/-- BANK_PROGRAM_DONE (R364): the slot has been erased, programmed and read back, ok with the right digest. fails lists blocks that
failed meanwhile with their causes. -/
def execBankProgramDone (ok : Bool) (fails : List Nat) (s : State) : Host.Outcome State Fault Refusal :=
  done s fun _ m =>
    match m.flash.jobs.find? FlashJob.isBank with
    | some (.bank b slot img) =>
      let (first, n) := slotBlocks (2 * b + slot)
      let m := { m with flash := { m.flash with jobs := m.flash.jobs.filter (fun j => !j.isBank) } }
      let mine := (pairs fails).filter (fun (p : Nat × Nat) => decide (first ≤ p.1 ∧ p.1 < first + n))
      let (m, good) := mine.foldl (fun (acc : Mach × Bool) p =>
        let (m, fine) := acc.1.bankBlockFails p.1 p.2
        (m, acc.2 && fine)) (m, ok)
      let m := m.setReady rdyFlash vReady
      let m := if good then
          let m := upto n m (fun m i => (m.eraseBlk (first + i)).modBlk (first + i) (fun y => y.program 0 ((img.drop (65536 * i)).take 65536)))
          let m := { m with flash := { m.flash with slots := m.flash.slots.set (2 * b + slot) 1 } }
          (m.put K.NV_BANK_PROGRESS 100).raise 0x3021 [b, slot]
        else
          let m := upto n m (fun m i => m.modBlk (first + i) (fun y => { y with undef := [2048], cells := [], factory := none }))
          (m.slotBad (2 * b + slot)).bankFail 8
      m.flashStart
    | _ => m

/-! ### Swap, trial, rollback, R365, R366 -/

/-- The supervisor restarts (R10, R50, R346): heartbeats of sessions are not judged and the dictionary is not reachable until READY. -/
def Mach.supDown (m : Mach) (mode : SupMode) : Mach :=
  { m with sup := mode, dev := { m.dev with swapAt := some m.time } }.setReady rdySup vStarting

/-- Back to the previous bank; the trial bank stays VALID (R366). -/
def Mach.rollBack (m : Mach) (cause : Nat) : Mach :=
  { m with flash := { m.flash with active := 1 - m.flash.active, trial := false }
           dev := { m.dev with rollback := some cause } }.journalPage

/-- Generations in use that a bank's supervisor would not schedule. -/
def Mach.genOutside (m : Mach) (b : Nat) : Bool :=
  !(m.inKgen b (m.g K.RD_GEN_SELECT))
    || (List.range m.nClusters).any (fun k => m.isUp (rdyCluster k) && !(m.inKgen b (m.cluster k).gen))

/-- SWAP (R365); during a trial it rolls back (R366). In recovery mode no cluster and no selected generation stands against it. -/
def Mach.bankSwap (m : Mach) : WriteResult :=
  let b := 1 - m.flash.active
  if m.flash.trial then ((m.rollBack 4).supDown .swapping, .ok)
  else if m.bankValid b = false ∨ m.bankBusy = true
      ∨ (List.range m.nClusters).any (fun k => m.ready (rdyCluster k) == vUpdating) = true then refuseState m
  else if m.sup ≠ .recovery ∧ m.genOutside b = true then refuseRange m
  else
    let m := { m with flash := { m.flash with active := b, trial := true } }.journalPage
    ((upto 4 (m.raise 0x3023 [b]) Mach.sendGathered).supDown .swapping, .ok)

/-- CONFIRM (R366). -/
def Mach.bankConfirm (m : Mach) : WriteResult :=
  if m.flash.trial = false then refuseState m
  else (({ m with flash := { m.flash with trial := false } }.journalPage).raise 0x3025 [], .ok)

/-- NV_BANK_CTRL: 1 PROGRAM, 2 SWAP, 3 CONFIRM. -/
def wBankCtrl (x : Mem) (v : Nat) (m : Mach) : WriteResult :=
  match v with
  | 1 => m.bankProgram x
  | 2 => m.bankSwap
  | _ => m.bankConfirm

/-- BANK_PROGRAM (R364): NV_BANK_CTRL 1. -/
def execBankProgram (s : State) : Host.Outcome State Fault Refusal :=
  done s fun x m => m.hostWrite K.NV_BANK_CTRL (leBytes 1 1) (wBankCtrl x)

/-- BANK_SWAP (R365): NV_BANK_CTRL 2; event 0x3023 is sent before the response. -/
def execBankSwap (s : State) : Host.Outcome State Fault Refusal :=
  done s fun x m => m.hostWrite K.NV_BANK_CTRL (leBytes 1 2) (wBankCtrl x)

/-- BANK_CONFIRM (R366): NV_BANK_CTRL 3. -/
def execBankConfirm (s : State) : Host.Outcome State Fault Refusal :=
  done s fun x m => m.hostWrite K.NV_BANK_CTRL (leBytes 1 3) (wBankCtrl x)

/-- TRIAL_TIMEOUT (R366): the supervisor has not reached READY within 2 s of the swap. -/
def execTrialTimeout (s : State) : Host.Outcome State Fault Refusal :=
  done s fun _ m =>
    match m.dev.swapAt with
    | none => m
    | some t => if m.sup ≠ .swapping ∨ m.flash.trial = false ∨ m.time < t + 2000000 then m else m.rollBack 3

/-- LOCKSTEP_DISAGREE (R10): event 0x2101; the supervisor restarts from the active bank, out of a trial from the previous one. What a
disagreement does while the supervisor is in reset, booting or in recovery R10 does not say: the model gives it no effect there
(DESIGN CHOICE, log entry 230). -/
def execLockstepDisagree (s : State) : Host.Outcome State Fault Refusal :=
  done s fun _ m =>
    if m.sup = .reset ∨ m.sup = .booting ∨ m.sup = .recovery then m
    else
      let m := (m.count K.EV_SUP_RESTARTS).raise 0x2101 []
      let m := if m.flash.trial then m.rollBack 2 else m
      if m.sup = .ready then m.supDown .restarting else { m with sup := .restarting }

/-- After a rollback, clusters of a generation the running supervisor does not schedule are drained (R366). -/
def Mach.drainOutside (m : Mach) : Mach :=
  upto m.nClusters m (fun m k =>
    if m.isUp (rdyCluster k) && !(m.inKgen m.flash.active (m.cluster k).gen) then (m.clusterDrain k).1 else m)

/-- The timeouts of the sessions start again (R346). -/
def Mach.restartTimeouts (m : Mach) : Mach :=
  { m with net := { m.net with sessions := m.net.sessions.map (fun o => o.map (fun (s : Session) => { s with lastSeen := m.time })) } }

/-- SUPERVISOR_READY (R10, R346, R365): READY again with event 0x2102, then the events held back; what waited goes on. -/
def execSupervisorReady (s : State) : Host.Outcome State Fault Refusal :=
  done s fun _ m =>
    if m.sup ≠ .restarting ∧ m.sup ≠ .swapping then m
    else
      let fresh := m.g K.DEV_MODE = 1
      let back := m.dev.rollback
      let m := { m with sup := .ready, dev := { m.dev with swapAt := none, rollback := none } }
      let m := m.raise 0x2102 []
      let m := match back with
        | some c => m.raise 0x3024 [m.flash.active, c]
        | none => m
      let m := (m.releaseDeferred).restartTimeouts
      if fresh then (m.put K.DEV_MODE 0).bootUnits
      else
        let m := m.setReady rdySup vReady
        (if back.isSome then m.drainOutside else m).itemsMoved

/-! ### Kernel copy, R71 -/

/-- The first n bytes of a slot, as the flash holds them. -/
def Mach.slotBytes (m : Mach) (k n : Nat) : List Byte :=
  let f := (slotBlocks k).1
  (List.range (min n (slotSize (k % 2)))).map (fun i => (m.blk (f + i / 65536)).byte (i % 65536))

/-- KERNEL_LOAD_CHECKED (R71): copy and check of the kernel image that RD_CL_IMAGE_SEL named at the LOAD have ended. The image that
passes is written to the kernel region, header first (DEDUCED, log entry 70). -/
def execKernelLoadChecked (cl : Nat) (s : State) : Host.Outcome State Fault Refusal :=
  done s fun _ m =>
    if (m.cluster cl).phase ≠ .copying then m
    else
      let k := 2 * (m.cluster cl).loadSel + 1
      if m.flash.slots.getD k 0 = 1 then
        let g := fld (m.slotHeader k) 8 4
        let n := 256 + fld (m.slotHeader k) 0xC 4
        let image := m.slotBytes k n
        (m.modCluster cl (fun c => { c with phase := .selfTest, loadGen := g, kernel := image })).setCluster cl vStarting
      else
        ((m.modCluster cl (fun c => { c with phase := .idle, verified := false })).raise 0x240A [cl]).setCluster cl vOff

end Sys2Proof.Machine
end

