-- ==== Sys2Proof/Machine/Uart.lean ====
section
/-! DEFINITION. The serial ports: settings, receiver, rings, flow control, transmitter and the Railaly modes (R393-R407). -/

namespace Sys2Proof.Machine

open Sys2Proof

def Mach.uart (m : Mach) (u : Nat) : UartRt := m.uarts.getD u {}
def Mach.modUart (m : Mach) (u : Nat) (f : UartRt → UartRt) : Mach := { m with uarts := m.uarts.modify u f }

/-- Whether a port runs in a Railaly mode (R401). -/
def Mach.uaRailaly (m : Mach) (u : Nat) : Bool := decide (2 ≤ m.g (K.UA_MODE u))

/-- Ticks of a bit in a Railaly mode. -/
def railOs (mode : Nat) : Nat := if mode = 2 then 8 else 3

/-! ### Rates and settings, R394, R397, R401 -/

/-- UA_DIV of a rate, in 1/256 clock (R394). -/
def uaDiv (rate : Nat) : Nat := roundDiv 64000000000 rate

/-- Bring UA_DIV and UA_RATE_ACTUAL up to date. -/
def Mach.uaRates (m : Mach) (u : Nat) : Mach :=
  let div := uaDiv (m.g (K.UA_RATE u))
  let mode := m.g (K.UA_MODE u)
  let actual := if 2 ≤ mode then roundDiv 50000000 (m.g (K.UA_RL_DIV u) * railOs mode) else roundDiv 64000000000 div
  m.puts [(K.UA_DIV u, div), (K.UA_RATE_ACTUAL u, actual)]

/-- The settings a direction loads at its next boundary: natively those in force now, in a Railaly mode those read at enable with
the divider in force (R397, R403, R404). -/
def Mach.uaSet (m : Mach) (u : Nat) : UartSet :=
  if m.uaRailaly u then { (m.uart u).held with div := m.g (K.UA_RL_DIV u) }
  else { div := m.g (K.UA_DIV u), bits := m.g (K.UA_DATA_BITS u), parity := m.g (K.UA_PARITY u), stop := m.g (K.UA_STOP u) }

/-- The parity bit of a character: 1 even, 2 odd, 3 mark, 4 space. -/
def parityBit (parity data : Nat) : Nat :=
  match parity with
  | 1 => popcount 8 data % 2
  | 2 => 1 - popcount 8 data % 2
  | 3 => 1
  | _ => 0

/-- The bits of a character on the line, start bit lowest. -/
def uaFrame (s : UartSet) (c : Nat) : Nat :=
  let d := c % 2 ^ s.bits
  let body := 2 * d + (if s.parity = 0 then 0 else parityBit s.parity d * 2 ^ (s.bits + 1))
  let top := s.bits + 1 + (if s.parity = 0 then 0 else 1)
  body + (2 ^ s.stop - 1) * 2 ^ top

/-! ### Receiver, R395, R396, R400, R402 -/

/-- The decision of a bit from its sample, or in 8x mode from its three samples by majority (R395, R402). -/
def Mach.uaDecide (m : Mach) (u v : Nat) : Bool := if m.g (K.UA_MODE u) = 2 then decide (2 ≤ popcount 3 v) else bit v 0

/-- Entries the receive FIFO holds. -/
def Mach.uaDepth (m : Mach) (u : Nat) : Nat := if m.uaRailaly u then 4 else 64

/-- RTS follows the receive FIFO under flow control, and is low without it (R399, R404). -/
def Mach.uaRts (m : Mach) (u : Nat) : Mach :=
  if m.g (K.UA_MODE u) = 0 then m
  else if m.h (K.UA_FLOW u) = 0 then m.modUart u (fun x => { x with rtsHigh := false })
  else
    let n := (m.uart u).rx.length
    let hi := if m.uaRailaly u then 3 else m.g (K.UA_RTS_HIGH u)
    let lo := if m.uaRailaly u then 1 else m.g (K.UA_RTS_LOW u)
    if hi ≤ n then m.modUart u (fun x => { x with rtsHigh := true })
    else if n ≤ lo then m.modUart u (fun x => { x with rtsHigh := false }) else m

/-- UART_START_EDGE (R395, R402): the settings are loaded and the start bit is decided from sample; high is a false start. -/
def execUartStartEdge (ua sample : Nat) (s : State) : Host.Outcome State Fault Refusal :=
  done s fun _ m =>
    if m.g (K.UA_MODE ua) = 0 ∨ (m.uart ua).started = true then m
    else
      let set := m.uaSet ua
      let m := m.modUart ua (fun x => { x with rxSet := set, waitHigh := false, inBreak := false })
      if m.uaDecide ua sample then (m.modUart ua (fun x => { x with rxdHigh := true })).count (K.UA_FALSE_STARTS ua)
      else m.modUart ua (fun x => { x with started := true, rxdHigh := false })

/-- Event 0x2F03, at the first parity or framing error of a second (R396). -/
def Mach.uaErrEvent (m : Mach) (u : Nat) : Mach :=
  let sec := m.time / 1000000
  if (m.uart u).errSecond = some sec then m
  else (m.modUart u (fun x => { x with errSecond := some sec })).raise 0x2F03 [u]

/-- A character arrives at a full FIFO (R400). -/
def Mach.uaOverrun (m : Mach) (u : Nat) : Mach :=
  let sec := m.time / 1000000
  let m := (m.modUart u (fun x => { x with lost := true })).count (K.UA_OVERRUNS u)
  if (m.uart u).ovrSecond = some sec then m
  else (m.modUart u (fun x => { x with ovrSecond := some sec })).raise 0x2F02 [u]

/-- Store an entry in the FIFO; the first after a loss carries OVR. -/
def Mach.uaEntry (m : Mach) (u e : Nat) : Mach :=
  let e := e + (if (m.uart u).lost then 0x800 else 0)
  (m.modUart u (fun x => { x with rx := x.rx ++ [e], lost := false })).uaRts u

/-- UART_CHARACTER_RECEIVED (R395, R396): samples are those of the data bits, the parity bit and the first stop bit. -/
def execUartCharacterReceived (ua : Nat) (samples : List Nat) (s : State) : Host.Outcome State Fault Refusal :=
  done s fun _ m =>
    if (m.uart ua).started = false then m
    else
      let set := (m.uart ua).rxSet
      let bitAt (i : Nat) : Bool := m.uaDecide ua (samples.getD i 7)
      let data := (List.range set.bits).foldl (fun d i => d + b2n (bitAt i) * 2 ^ i) 0
      let par := if set.parity = 0 then 0 else b2n (bitAt set.bits)
      let stop := bitAt (set.bits + (if set.parity = 0 then 0 else 1))
      let brk := data = 0 ∧ par = 0 ∧ stop = false
      let pe := set.parity ≠ 0 ∧ par ≠ parityBit set.parity data
      let m := m.modUart ua (fun x => { x with started := false, rxdHigh := stop, waitHigh := decide brk, inBreak := decide brk })
      if m.uaDepth ua ≤ (m.uart ua).rx.length then m.uaOverrun ua
      else if brk then ((m.uaEntry ua 0x400).count (K.UA_BREAKS ua)).raise 0x2F04 [ua]
      else
        let m := m.uaEntry ua (data + (if pe then 0x100 else 0) + (if stop then 0 else 0x200))
        let m := if pe then m.count (K.UA_PARITY_ERR ua) else m
        let m := if stop then m else m.count (K.UA_FRAMING ua)
        if pe ∨ stop = false then m.uaErrEvent ua else m

/-! ### Rings, R398 -/

/-- A ring's size: as read at the enable, or as it stands while the port is off. -/
def Mach.uaSize (m : Mach) (u k : Nat) : Nat := if m.g (K.UA_MODE u) = 0 then m.g k else m.h k

/-- Distance from one index to another around a ring. -/
def ringDist (size a b : Nat) : Nat := (b + size - a % size) % size

/-- UART_RING_STORE (R398): the oldest entry of the FIFO goes to the receive ring if it has room. -/
def Mach.uaRingStore (m : Mach) (u : Nat) : Mach :=
  let size := m.h (K.UA_RX_SIZE u)
  let wr := m.g (K.UA_RX_WR u) % size
  let rd := m.g (K.UA_RX_RD u) % size
  match (m.uart u).rx with
  | [] => m
  | e :: rest =>
    if m.g (K.UA_MODE u) = 0 ∨ (wr + 1) % size = rd then m
    else
      let m := m.storeNum (m.h (K.UA_RX_BASE u) + 2 * wr) 2 e
      let m := ((m.modUart u (fun x => { x with rx := rest })).put (K.UA_RX_WR u) ((wr + 1) % size)).uaRts u
      let due := match (m.uart u).ringEvent with
        | none => true
        | some t => decide (t + 1000 ≤ m.time)
      if wr = rd ∧ due = true then (m.modUart u (fun x => { x with ringEvent := some m.time })).raise 0x2F01 [u] else m

/-- UART_RING_STORE (R398). -/
def execUartRingStore (ua : Nat) (s : State) : Host.Outcome State Fault Refusal :=
  done s fun _ m => m.uaRingStore ua

/-- Fetch one character of the transmit ring into the FIFO. -/
def Mach.uaFetch (x : Mem) (u : Nat) (m : Mach) : Mach :=
  let size := m.h (K.UA_TX_SIZE u)
  let rd := m.g (K.UA_TX_RD u) % size
  if m.g (K.UA_MODE u) = 0 ∨ 64 ≤ (m.uart u).tx.length ∨ rd = m.g (K.UA_TX_WR u) % size then m
  else
    let (bs, m) := m.hostBytes x (m.h (K.UA_TX_BASE u) + rd) 1
    (m.modUart u (fun y => { y with tx := y.tx ++ bs, txUsed := true })).put (K.UA_TX_RD u) ((rd + 1) % size)

/-- Fetch characters as room appears. -/
def Mach.uaFetchAll (x : Mem) (u : Nat) (m : Mach) : Mach := upto 64 m (fun m _ => m.uaFetch x u)

/-- Whether the line has not yet been high for a bit time since a break was released (R405). -/
def Mach.uaIdleDue (m : Mach) (u : Nat) (set : UartSet) : Bool :=
  match (m.uart u).breakEnd with
  | none => false
  | some t =>
    if m.uaRailaly u then decide ((m.time - t) * 50 < set.div * railOs (m.g (K.UA_MODE u))) else decide ((m.time - t) * 64000 < set.div)

/-- Begin the next character, after a bit time of high line where a break has just been released, unless one is being sent, a break holds the line or CTS reads high (R397, R399, R405). -/
def Mach.uaBegin (m : Mach) (u : Nat) : Mach :=
  let y := m.uart u
  if y.sending.isSome then m
  else if m.gb (K.UA_TX_BREAK u) && m.g (K.UA_MODE u) != 0 then m.modUart u (fun x => { x with breaking := true, waitCts := false })
  else match y.tx with
    | [] => m
    | c :: rest =>
      if m.g (K.UA_MODE u) = 0 then m
      else if m.h (K.UA_FLOW u) = 1 ∧ y.ctsHigh = true then m.modUart u (fun x => { x with waitCts := true })
      else
        let set := m.uaSet u
        let bits := uaFrame set c.toNat
        (m.modUart u (fun x => { x with sending := some c, tx := rest, waitCts := false, txSet := set, breakEnd := none })).emit
          (.uart u (if m.uaIdleDue u set then 2 * bits + 1 else bits))

/-- The transmitter goes on as far as it can. -/
def Mach.uaPump (x : Mem) (u : Nat) (m : Mach) : Mach := ((m.uaFetchAll x u).uaBegin u).uaFetchAll x u

/-- UART_CHARACTER_SENT (R394, R398): the character is complete; the last of an empty ring raises event 0x2F05. cts is the level of
CTS where the next start bit would begin. -/
def execUartCharacterSent (ua : Nat) (cts : Bool) (s : State) : Host.Outcome State Fault Refusal :=
  done s fun x m =>
    if (m.uart ua).sending.isNone then m
    else
      let m := m.modUart ua (fun y => { y with sending := none, ctsHigh := cts })
      let m := m.uaFetchAll x ua
      let last := (m.uart ua).tx = [] ∧ (m.uart ua).txUsed = true ∧ m.g (K.UA_MODE ua) ≠ 0
      let m := if last then (m.modUart ua (fun y => { y with txUsed := false })).raise 0x2F05 [ua] else m
      m.uaPump x ua

/-- UART_CTS_LOW (R399): a character that waited begins. -/
def execUartCtsLow (ua : Nat) (s : State) : Host.Outcome State Fault Refusal :=
  done s fun x m => (m.modUart ua (fun y => { y with ctsHigh := false })).uaPump x ua

/-! ### Writes of the port's objects -/

/-- The settings read at an enable. -/
def uaEnableKeys (u : Nat) : List Nat := [K.UA_FLOW u, K.UA_RX_BASE u, K.UA_RX_SIZE u, K.UA_TX_BASE u, K.UA_TX_SIZE u]

/-- UA_MODE (R401, R405). -/
def wUaMode (x : Mem) (u v : Nat) (m : Mach) : WriteResult :=
  let old := m.g (K.UA_MODE u)
  let rl := m.g (K.UA_RL_DIV u)
  if 3 < v then refuseRange m
  else if v = old then (m, .ok)
  else if v = 0 then
    let m := m.modUart u (fun y => { y with rx := [], tx := [], started := false, waitHigh := false, waitCts := false,
                                            lost := false, txUsed := false, breaking := false, rtsHigh := true
                                            breakEnd := none, inBreak := false })
    ((m.put (K.UA_MODE u) 0).uaRates u, .ok)
  else if old ≠ 0 then refuseState m
  else if 2 ≤ v ∧ 2 ≤ u then refuseRange m
  else if (v = 2 ∧ rl < 3) ∨ (v = 3 ∧ rl < 8) then refuseRange m
  else if inHostArea (m.g (K.UA_RX_BASE u)) (2 * m.g (K.UA_RX_SIZE u)) = false ∨
      inHostArea (m.g (K.UA_TX_BASE u)) (m.g (K.UA_TX_SIZE u)) = false then refuseRange m
  else
    let set : UartSet := { div := rl, bits := m.g (K.UA_DATA_BITS u), parity := m.g (K.UA_PARITY u), stop := m.g (K.UA_STOP u) }
    let m := (m.sample (uaEnableKeys u)).put (K.UA_MODE u) v
    let m := m.modUart u (fun y => { y with rx := [], tx := [], started := false, waitHigh := true, lost := false, txUsed := false,
                                            held := set })
    (((m.uaRates u).uaRts u).uaPump x u, .ok)

/-- UA_MODE (R405). -/
def execUaMode (ua v : Nat) (s : State) : Host.Outcome State Fault Refusal :=
  done s fun x m => m.hostWrite (K.UA_MODE ua) (leBytes 1 v) (wUaMode x ua)

/-- UA_RATE (R394, R397). -/
def wUaRate (u v : Nat) (m : Mach) : WriteResult :=
  if v < 300 ∨ 12500000 < v then refuseRange m else ((m.put (K.UA_RATE u) v).uaRates u, .ok)

/-- UA_RATE (R397). -/
def execUaRate (ua v : Nat) (s : State) : Host.Outcome State Fault Refusal :=
  done s fun _ m => m.hostWrite (K.UA_RATE ua) (leBytes 4 v) (wUaRate ua)

/-- UA_DATA_BITS, UA_PARITY, UA_STOP: refused in a Railaly mode (R397, R404). -/
def wUaFormat (u k v : Nat) (m : Mach) : WriteResult := if m.uaRailaly u then refuseState m else (m.put k v, .ok)

/-- UA_DATA_BITS (R397). -/
def execUaDataBits (ua v : Nat) (s : State) : Host.Outcome State Fault Refusal :=
  done s fun _ m => m.hostWrite (K.UA_DATA_BITS ua) (leBytes 1 v) (wUaFormat ua (K.UA_DATA_BITS ua))

/-- UA_PARITY (R397). -/
def execUaParity (ua v : Nat) (s : State) : Host.Outcome State Fault Refusal :=
  done s fun _ m => m.hostWrite (K.UA_PARITY ua) (leBytes 1 v) (wUaFormat ua (K.UA_PARITY ua))

/-- UA_STOP (R397). -/
def execUaStop (ua v : Nat) (s : State) : Host.Outcome State Fault Refusal :=
  done s fun _ m => m.hostWrite (K.UA_STOP ua) (leBytes 1 v) (wUaFormat ua (K.UA_STOP ua))

/-- UA_RL_DIV (R401, R403): a value outside the range of the mode is refused; in force at the next tick in both directions. -/
def wUaRlDiv (u v : Nat) (m : Mach) : WriteResult :=
  if v < 3 ∨ (m.g (K.UA_MODE u) = 3 ∧ v < 8) then refuseRange m
  else
    let m := m.put (K.UA_RL_DIV u) v
    let m := if m.uaRailaly u then m.modUart u (fun y => { y with rxSet := { y.rxSet with div := v }
                                                                  txSet := { y.txSet with div := v } }) else m
    (m.uaRates u, .ok)

/-- UA_RL_DIV (R403). -/
def execUaRlDiv (ua v : Nat) (s : State) : Host.Outcome State Fault Refusal :=
  done s fun _ m => m.hostWrite (K.UA_RL_DIV ua) (leBytes 2 v) (wUaRlDiv ua)

/-- UA_RX_RD (R398): refused where it would release entries not yet written; waiting entries follow by UART_RING_STORE. -/
def wUaRxRd (u v : Nat) (m : Mach) : WriteResult :=
  let size := m.uaSize u (K.UA_RX_SIZE u)
  let rd := m.g (K.UA_RX_RD u)
  if size ≤ v ∨ ringDist size rd (m.g (K.UA_RX_WR u)) < ringDist size rd v then refuseRange m
  else (m.put (K.UA_RX_RD u) v, .ok)

/-- UA_RX_RD (R398). -/
def execUaRxRd (ua v : Nat) (s : State) : Host.Outcome State Fault Refusal :=
  done s fun _ m => m.hostWrite (K.UA_RX_RD ua) (leBytes 2 v) (wUaRxRd ua)

/-- UA_TX_WR (R398): refused where it would withdraw characters already counted as written. -/
def wUaTxWr (x : Mem) (u v : Nat) (m : Mach) : WriteResult :=
  let size := m.uaSize u (K.UA_TX_SIZE u)
  let rd := m.g (K.UA_TX_RD u)
  if size ≤ v ∨ ringDist size rd v < ringDist size rd (m.g (K.UA_TX_WR u)) then refuseRange m
  else ((m.put (K.UA_TX_WR u) v).uaPump x u, .ok)

/-- UA_TX_WR (R398). cts is the level of CTS at that moment. -/
def execUaTxWr (ua v : Nat) (cts : Bool) (s : State) : Host.Outcome State Fault Refusal :=
  done s fun x m => m.hostWrite (K.UA_TX_WR ua) (leBytes 2 v)
    (fun v m => wUaTxWr x ua v (m.modUart ua (fun y => { y with ctsHigh := cts })))

/-- UA_TX_BREAK (R405): the line is held low from the end of the character in progress; released, it goes on after a bit time. -/
def wUaTxBreak (x : Mem) (u v : Nat) (m : Mach) : WriteResult :=
  let m := m.put (K.UA_TX_BREAK u) v
  if v = 1 then (m.uaBegin u, .ok)
  else ((m.modUart u (fun y => { y with breaking := false, breakEnd := if y.breaking then some m.time else y.breakEnd })).uaPump x u, .ok)

/-- UA_TX_BREAK (R405). -/
def execUaTxBreak (ua v : Nat) (s : State) : Host.Outcome State Fault Refusal :=
  done s fun x m => m.hostWrite (K.UA_TX_BREAK ua) (leBytes 1 v) (wUaTxBreak x ua)

/-- Base and size of a ring: refused while the port runs (R406). -/
def wUaRing (u k v : Nat) (m : Mach) : WriteResult := if m.g (K.UA_MODE u) ≠ 0 then refuseState m else (m.put k v, .ok)

/-- UA_RTS_HIGH and UA_RTS_LOW: LOW stays below HIGH (R406). -/
def wUaRts (u : Nat) (high : Bool) (v : Nat) (m : Mach) : WriteResult :=
  let m' := m.put (if high then K.UA_RTS_HIGH u else K.UA_RTS_LOW u) v
  if m'.g (K.UA_RTS_HIGH u) ≤ m'.g (K.UA_RTS_LOW u) then refuseRange m else (m'.uaRts u, .ok)

/-- UA_LINE (R406): [0] RXD high, [1] CTS low, [2] RTS low, [3] break being received. -/
def Mach.uaLine (m : Mach) (u : Nat) : Nat :=
  let y := m.uart u
  b2n y.rxdHigh + 2 * b2n (!y.ctsHigh) + 4 * b2n (!y.rtsHigh) + 8 * b2n y.inBreak

end Sys2Proof.Machine
end

