-- ==== Sys2Proof/Machine/Views.lean ====
section
/-! DEFINITION. What a read of an object returns (R7, R318): the stored value, or for a reporting object the state it reports. -/

namespace Sys2Proof.Machine

open Sys2Proof

/-- IT_STATUS (R52): the item that IT_SELECT names; every value 0 for an ID that is not in the table. -/
def Mach.viewItem (m : Mach) (s : Nat) : Option Nat :=
  if s = 1 then none
  else
    match m.item? (m.g K.IT_SELECT) with
    | none => some 0
    | some it =>
      match s with
      | 2 => some it.stateCode
      | 3 => some it.reason
      | 4 => some it.linesFired
      | 5 => some it.shortLines
      | 6 => some (b2n it.mediaUsed)
      | 7 => some it.tCommit
      | 8 => some it.tStart
      | 9 => some it.tEnd
      | 10 => some it.plannedMin
      | 11 => some it.hostTag
      | 12 => some it.spoilLine
      | _ => none

/-- Item table counts (R32, R34, R14). -/
def Mach.viewTable (m : Mach) (s : Nat) : Option Nat :=
  match s with
  | 1 => some m.inFlightCount
  | 2 => some (m.items.filter (fun it => it.state == ItemState.defined)).length
  | 3 => some m.items.length
  | 6 => some m.poolFreeKiB
  | _ => none

/-- Render clusters (R75): the cluster objects and, by sub-index 1 + 17 k + n, the clove objects. -/
def Mach.viewCluster (m : Mach) (k s : Nat) : Option Nat :=
  let c := m.cluster k
  match s with
  | 1 => some (m.ready (rdyCluster k))
  | 4 => some c.gen
  | 5 => some c.queue.length
  | 6 => some (c.queue.length + (c.cloves.map (fun v => v.deque.length)).foldl (· + ·) 0)
  | 8 => some c.spareOf
  | _ => none

/-- Code of a clove state (R75). -/
def CloveState.code : CloveState → Nat
  | .inService => 0 | .standby => 1 | .fencedHang => 2 | .fencedParity => 3 | .off => 4

/-- What a clove's state reads as: a spare that still loads its kernel is not in service yet and reads STANDBY (R67; DESIGN CHOICE,
log entry 71). -/
def Clove.shown (v : Clove) : Nat := if v.loading then CloveState.standby.code else v.state.code

/-- The objects of the cloves (R75); sub 00 is the number of sub-indices that exist on the variant (DEDUCED, log entry 72). -/
def Mach.viewClove (m : Mach) (i s : Nat) : Option Nat :=
  if s = 0 then some (m.nClusters * (if m.hasSpares then 17 else 16))
  else
    let v := (m.cluster ((s - 1) / 17)).cloves.getD ((s - 1) % 17) { state := .off }
    if i = 0x2440 then some v.shown else if i = 0x2442 then some v.deque.length else none

/-- Axes and start groups (R247). -/
def Mach.viewAxis (m : Mach) (n s : Nat) : Option Nat :=
  match s with
  | 0x11 => some (ofInt 64 ((m.axPos n * 65536).floor))
  | 0x12 => some (ofInt 32 (roundRat (m.axVel n)))
  | 0x13 => some (ofInt 32 (roundRat (m.axEnc n)))
  | 0x14 => some (ofInt 32 (roundRat (m.axFollowErr n)))
  | 0x18 => some (m.axOwner n)
  | 0x22 =>
    let a := m.axis n
    let i : Int := match a.kind with | 1 => a.stepAmp | 3 => roundRat a.drive.iq | _ => a.ampSet
    if a.kind = 2 ∨ a.kind = 0 then none else some (if i < 32768 then ofInt 16 i else Config.freeNat m.fresh % 65536)
  | _ => none

/-- A set of axes as a bit map. -/
def Mach.axisBits (m : Mach) (p : Nat → Bool) : Nat :=
  ((List.range m.nAxes).filter p).foldl (fun a n => a + 2 ^ n) 0

/-- AX_RESIDENT (R227): the 16 most recently commanded enabled axes. -/
def Mach.viewResident (m : Mach) : Nat :=
  let r := (m.motion.recent.filter (fun (n : Nat) => m.axEnabled n)).take 16
  m.axisBits (fun n => r.contains n)

/-- PP_STATE (R272): 0 FREE, 1 IDLE, 2 DRIVING, 3 HIGH_Z, 4 SHORTED, 5 FAILED, 6 SPARE. -/
def Mach.viewPort (m : Mach) (p : Nat) : Nat :=
  if (m.motion.ports.getD p {}).failed then 5
  else
    match m.workAxis p with
    | none => if m.nPhasePorts ≤ p then 6 else 0
    | some n =>
      if m.axState n = axDisabled then 1
      else
        match m.bridge n with
        | .driven => 2
        | .standstill => 2
        | .highZ => 3
        | .shorted => 4

/-- CF0's event queue (R340): the record of 32 bytes, or an empty DOMAIN. -/
def Mach.viewCanNext (m : Mach) : Nat :=
  match m.ev.cf0.queue with
  | [] => ObjTy.encode (.domVar 32) []
  | r :: _ => ObjTy.encode (.domVar 32) (leBytes 32 (m.eventBytes r false))

/-- A slot's header of 256 bytes, 0 while the slot is empty (R368). -/
def Mach.viewHeader (m : Mach) (k : Nat) : Nat := if m.flash.slots.getD k 0 = 0 then 0 else m.slotHeader k

/-- Flash, OTP row and log (R391). -/
def Mach.viewFlash (m : Mach) (k : Nat) : Option Nat :=
  let b := m.g K.NV_BLK_SEL
  if k = K.NV_BUSY then some m.nvBusy
  else if k = K.NV_SPARES_FREE then some m.freeSpares.length
  else if k = K.NV_FAILED_BLOCKS then some (m.flash.failed.filter (fun (x : Bool) => x)).length
  else if k = K.NV_BOOT_COUNT then some m.flash.bootCount
  else if k = K.NV_BLK_STATE then some (m.blkState b)
  else if k = K.NV_BLK_ERASES then some (m.blk b).erases
  else if k = K.NV_BLK_CORR_MAX then some (m.flash.corrMax.getD b 0)
  else if k = K.NV_BLK_SPARE then some (if m.flash.physOf b = b then 0xFF else m.flash.physOf b)
  else if k = K.NV_BLK_REGION then some (flashRegion b)
  else if k = K.NV_PROT_ACTIVE then some m.prot
  else if k = K.NV_OTP_VENDOR then some (setFld (m.flash.otp % 256 ^ 448) 0x60 32 0)
  else if k = K.NV_OTP_CUSTOMER then some (fld m.flash.otp 0x1C0 64)
  else if k = K.NV_BANK_STATE_A then some (m.bankState 0)
  else if k = K.NV_BANK_STATE_B then some (m.bankState 1)
  else if k = K.NV_BANK_PROGRESS then (if m.bankBusy then some (Config.freeNat m.fresh % 101) else none)
  else if k = K.NV_BANK_HEADERS_A then some (m.viewHeader 0 + m.viewHeader 1 * 256 ^ 256)
  else if k = K.NV_BANK_HEADERS_B then some (m.viewHeader 2 + m.viewHeader 3 * 256 ^ 256)
  else if k = K.EV_LOG_COUNT then some m.logRecords.length
  else if k = K.EV_LOG_RECORD then some m.logView
  else none

/-- Device, network and events (R347, R367, R422). How many words were corrected is open: no command reports a correction, which has no
other effect (R12; log entry 36). -/
def Mach.viewDevice (m : Mach) (k : Nat) : Option Nat :=
  if k = K.DEV_VARIANT then some (m.variantBit + 1)
  else if k = K.DEV_DIE_REV then some (fld m.flash.otp 2 1)
  else if k = K.DEV_SERIAL then some (fld m.flash.otp 8 8)
  else if k = K.DEV_SUP_VERSION then some (fld (m.slotHeader (2 * m.flash.active)) 0x10 4)
  else if k = K.DEV_ACTIVE_BANK then some m.flash.active
  else if k = K.DEV_TIME then some (m.time % 2 ^ 64)
  else if k = K.NET_MAC 0 then some (fld m.flash.otp 0x10 6)
  else if k = K.NET_MAC 1 then some (fld m.flash.otp 0x16 6)
  else if k = K.NET_SESSIONS then some (m.net.sessions.filter Option.isSome).length
  else if k = K.EV_ECC_CORR_DRAM ∨ k = K.EV_ECC_CORR_SRAM then some (Config.freeNat m.fresh % 2 ^ 32)
  else if k = K.EV_CAN_NEXT then some m.viewCanNext
  else if k = K.EV_CAN_PENDING then some m.ev.cf0.queue.length
  else if k = K.EV_CAN_LOST then some m.ev.cf0.lost
  else if k = K.EV_SEQ_LAST then some m.ev.seq
  else if k = K.CIA_ERROR_REGISTER then some (0x80 + b2n m.protection)
  else if k / 256 = 0x1018 ∧ k % 256 ≠ 0 then some (Config.identity (k % 256) % 2 ^ 32)
  else none

/-- What a reporting object reads, if the key is one. -/
def Mach.viewOf (m : Mach) (k : Nat) : Option Nat :=
  let i := k / 256
  let s := k % 256
  if i < 0x2100 ∨ (0x2F80 ≤ i ∧ i < 0x3000) ∨ i = 0x2110 ∨ i = 0x2111 then m.viewDevice k
  else if (0x3000 ≤ i ∧ i < 0x3100) ∨ i = 0x2120 then m.viewFlash k
  else if i = 0x2304 then m.viewTable s
  else if i = 0x2310 then m.viewItem s
  else if i = 0x2400 then (if s = 1 then some m.clovesInService else if s = 0xC then some m.ledger.length else none)
  else if 0x2410 ≤ i ∧ i < 0x2414 then m.viewCluster (i - 0x2410) s
  else if 0x2440 ≤ i ∧ i < 0x2443 then m.viewClove i s
  else if 0x2500 ≤ i ∧ i < 0x2700 then
    let h := (i - 0x2500) / 0x80
    if k = K.HP_LINE_TIME h then some (m.lineTime h)
    else if k = K.HP_PORT_STATE h then some (m.ready (rdyHead h))
    else if k = K.HP_FIRING h then some (m.firingView h)
    else none
  else if 0x2700 ≤ i ∧ i < 0x2780 then
    (if k = K.TH_ST_STATE ((i - 0x2700) / 0x20) then some (m.ready (rdyStation ((i - 0x2700) / 0x20))) else none)
  else if k = K.AX_RESIDENT then some m.viewResident
  else if 0x2A40 ≤ i ∧ i < 0x2A68 then m.viewAxis (i - 0x2A40) s
  else if 0x2A08 ≤ i ∧ i < 0x2A0C then
    let g := i - 0x2A08
    if s = 3 then some (m.axisBits (fun n => m.g (K.AX_GROUP n) == g))
    else if s = 4 then some (m.axisBits (fun n => m.g (K.AX_GROUP n) == g && m.g (K.AX_ARMED n) == 1))
    else none
  else if 0x2B00 ≤ i ∧ i < 0x2B64 then
    (if s = 1 then some (m.viewPort (i - 0x2B00))
     else if s = 2 then some ((m.workAxis (i - 0x2B00)).getD 0xFF) else none)
  else if 0x2BC0 ≤ i ∧ i < 0x2BC2 ∧ s = 0x0E then some (m.viewBrakeTime (i - 0x2BC0))
  else if 0x2C80 ≤ i ∧ i < 0x2C84 ∧ s = 6 then some (Config.freeNat m.fresh % 101)
  else if 0x2F00 ≤ i ∧ i < 0x2F08 then
    (if k = K.UA_LINE (i - 0x2F00) then some (m.uaLine (i - 0x2F00))
     else if k = K.UA_STATE (i - 0x2F00) then some (m.ready (rdyUart (i - 0x2F00))) else none)
  else none

/-- What a read of an object returns. -/
def Mach.view (k : Nat) (m : Mach) : Nat := (m.viewOf k).getD (m.g k)

/-- Reports whose value the spec leaves open: each read draws anew (log entry 3). -/
def openView (k : Nat) : Bool :=
  (0x2C80 ≤ k / 256 && k / 256 < 0x2C84 && k % 256 == 6) || k == K.NV_BANK_PROGRESS || k == K.NV_BUSY
    || k == K.EV_ECC_CORR_DRAM || k == K.EV_ECC_CORR_SRAM

end Sys2Proof.Machine
end

