-- ==== Sys2Proof/Machine/Windows.lean ====
section
/-! DEFINITION. Memory windows (R333): the map of device addresses (R13-R16), what each region reads as, and the transfers. -/

namespace Sys2Proof.Machine

open Sys2Proof

/-! ### The map, R13, R15 -/

/-- First device address past the cluster SRAM of the variant; DRAM and SRAM lie below it without a gap (R13, R16). -/
def Mach.sramEnd (m : Mach) : Nat := 0x100000000 + 0x100000 * m.nClusters

/-- Whether n bytes from an address are mapped (R13). -/
def Mach.mapped (m : Mach) (a n : Nat) : Bool :=
  decide (a + n ≤ m.sramEnd) || decide (0x110000000 ≤ a ∧ a + n ≤ 0x110800000)

/-- Where an access of n bytes at an offset of a window begins: none for a disabled window or one that reaches beyond MEM_SIZE
(R333). -/
def Mach.winAddr (m : Mach) (w off n : Nat) : Option Nat :=
  if decide (w < 8) && m.gb (K.MEM_ENABLE w) && decide (off + n ≤ m.g (K.MEM_SIZE w)) then some (m.g (K.MEM_BASE w) + off) else none

/-- A refused access counts (R15). -/
def Mach.memRefused (m : Mach) : Mach := m.count K.EV_MEM_REFUSED

/-! ### Cluster SRAM, R57, R59 -/

/-- The 32 bytes of a band descriptor (R57). -/
def Band.descriptor (b : Band) : Nat :=
  b.item % 2 ^ 16 + (b.kind.code + 16 * (b.unit % 4) + 64 * (b.attempt % 4)) * 256 ^ 2 + b.gen % 256 * 256 ^ 3
    + b.row % 2 ^ 16 * 256 ^ 4 + b.col % 2 ^ 16 * 256 ^ 6 + b.deadline % 2 ^ 64 * 256 ^ 8 + b.src % 2 ^ 40 * 256 ^ 0x10
    + b.dst % 2 ^ 40 * 256 ^ 0x18

/-- The clove whose deque stands in a clove's slots: itself, or the spare that adopted it in place (R67). -/
def Cluster.dequeAt (c : Cluster) (n : Nat) : Option Clove :=
  let spare := (c.cloves.getD 16 { state := .off }).state == .inService && decide (c.spareOf < 16)
  if spare && n == c.spareOf then c.cloves[16]?
  else if spare && n == 16 then none
  else c.cloves[n]?

/-- A byte of a cluster's SRAM (R59): the kernel image, deques, their headers and the work queue, whose front is its first slot;
reserved bytes read 0 (R6). The rest of the kernel region, free slots, staging and a retired granule that nothing replaces are not
stated. -/
def Cluster.sramByte (c : Cluster) (off : Nat) : Option Byte :=
  if c.retired.contains (off / 256) && !(c.replaced.any (fun p => p.2 == off / 256)) then none
  else if off < 0x40000 then c.kernel[off]?
  else if off < 0x48800 then
    match c.dequeAt ((off - 0x40000) / 0x800) with
    | none => none
    | some v =>
      match v.deque[((off - 0x40000) % 0x800 / 32 + 64 - v.front % 64) % 64]? with
      | none => none
      | some b => some (BitVec.ofNat 8 (fld b.descriptor (off % 32) 1))
  else if off < 0x48888 then
    match c.dequeAt ((off - 0x48800) / 8) with
    | none => some 0#8
    | some v => some (BitVec.ofNat 8 (fld (v.front % 64 + 256 * v.deque.length) (off % 8) 1))
  else if off < 0x49000 then some 0#8
  else if off < 0x51000 then
    match c.queue[(off - 0x49000) / 32]? with
    | none => none
    | some b => some (BitVec.ofNat 8 (fld b.descriptor (off % 32) 1))
  else none

/-! ### Flash, R16, R372, R376 -/

/-- Whether a block's erase is in progress: a read suspends it (R376). -/
def Mach.erasing (m : Mach) (b : Nat) : Bool :=
  m.flash.begun && (match m.flash.jobs with
    | j :: _ => j.eraseBlock == some b
    | [] => false)

/-- A byte of the flash window; none where the content is not stated or undefined. -/
def Mach.flashByte (m : Mach) (b off : Nat) : Option Byte :=
  let x := m.blk b
  if m.erasing b || x.undef.contains (off / 32) || x.undef.contains 2048 || flashRegion b == 2 then none
  else if flashRegion b = 6 then
    match (m.flash.log.getD (b - 66) [])[off / 32]? with
    | none => some 0xFF#8
    | some none => none
    | some (some r) => some (BitVec.ofNat 8 (fld r (off % 32) 1))
  else some (x.byte off)

/-- Whether a segment is erased: it reads 0xFF with no correction counted (R372). -/
def Mach.segErased (m : Mach) (b seg : Nat) : Bool :=
  (List.range 32).all (fun i => m.flashByte b (32 * seg + i) == some 0xFF#8)

/-- What a read of a range of the flash window does besides (R372, R376): each block whose erase is suspended counts and is
reported once per erase; elsewhere each segment that is not erased needed the corrections listed, in ascending order. -/
def Mach.flashTouched (m : Mach) (off n : Nat) (corr : List Nat) : Mach :=
  if n = 0 then m
  else
    let s0 := off / 32
    let segs := (off + n - 1) / 32 + 1 - s0
    let m := upto segs m (fun m i =>
      let b := (s0 + i) / 2048
      if m.erasing b || m.segErased b ((s0 + i) % 2048) then m else m.segmentRead b ((s0 + i) % 2048) (corr.getD i 0))
    let b0 := off / 65536
    upto ((off + n - 1) / 65536 + 1 - b0) m (fun m i =>
      if !(m.erasing (b0 + i)) then m
      else
        let m := m.count K.NV_SUSP_READS
        if m.flash.suspRead then m
        else { m with flash := { m.flash with suspRead := true } }.raise 0x3006 [b0 + i])

/-! ### Reads and writes -/

/-- Whether an address lies in the plan pool (R14). -/
def inPool (a : Nat) : Bool := decide (poolBase ≤ a ∧ a < poolBase + poolSize)

/-- A byte at a mapped device address; none where its content is not stated: uncorrectable words (R12), the other use of the
device area (R14). -/
def Mach.winByte (x : Mem) (m : Mach) (a : Nat) : Option Byte :=
  if a < 0x100000000 then
    (if m.badIn a 1 || !(decide (a < 0xC0000000) || inPool a) then none else some (x.byte a))
  else if a < 0x110000000 then (m.cluster ((a - 0x100000000) / 0x100000)).sramByte (a % 0x100000)
  else m.flashByte ((a - 0x110000000) / 65536) (a % 65536)

/-- n bytes from a mapped device address; what is not stated is free. -/
def Mach.winBytes (x : Mem) (m : Mach) (a n : Nat) : List Byte × Mach :=
  ((List.range n).map (fun i => (m.winByte x (a + i)).getD (BitVec.ofNat 8 (Config.freeNat (m.fresh + i)))),
    { m with fresh := m.fresh + n })

/-- A read through a window (R333). -/
def Mach.memRead (x : Mem) (m : Mach) (w off n : Nat) (corr : List Nat) : Mach × Status × List Byte :=
  match m.winAddr w off n with
  | none => (m, .addressNotMapped, [])
  | some a =>
    if m.mapped a n = false then (m.memRefused, .addressNotMapped, [])
    else
      let (bs, m) := m.winBytes x a n
      ((if 0x110000000 ≤ a then m.flashTouched (a - 0x110000000) n corr else m), .ok, bs)

/-- A write through a window (R333): no byte is written unless every byte passes. -/
def Mach.memWrite (m : Mach) (w off : Nat) (bs : List Byte) : WriteResult :=
  match m.winAddr w off bs.length with
  | none => (m, .addressNotMapped)
  | some a =>
    if m.gb (K.MEM_WRITABLE w) = false then (m, .addressNotWritable)
    else if m.mapped a bs.length = false then (m.memRefused, .addressNotMapped)
    else if inHostArea a bs.length = false then (m.memRefused, .addressNotWritable)
    else (m.storeBytes a bs, .ok)

/-! ### MEM_CAN_DATA, R347 -/

/-- MEM_CAN_OFFSET moves on by the bytes transferred. -/
def Mach.canAdvance (m : Mach) (w n : Nat) : Mach := m.put (K.MEM_CAN_OFFSET w) ((m.g (K.MEM_CAN_OFFSET w) + n) % 2 ^ 32)

/-- A write of MEM_CAN_DATA: the bytes of the transfer, at MEM_CAN_OFFSET. -/
def wCanData (w v : Nat) (m : Mach) : WriteResult :=
  let bs := ObjTy.decode (.domVar 4294967295) v
  match m.memWrite w (m.g (K.MEM_CAN_OFFSET w)) bs with
  | (m, .ok) => (m.canAdvance w bs.length, .ok)
  | r => r

/-- A read of n bytes of MEM_CAN_DATA. -/
def Mach.canRead (x : Mem) (m : Mach) (w n : Nat) (corr : List Nat) : Mach × Status × List Byte :=
  match m.memRead x w (m.g (K.MEM_CAN_OFFSET w)) n corr with
  | (m, .ok, bs) => (m.canAdvance w n, .ok, bs)
  | r => r

/-- The window whose MEM_CAN_DATA a key is. -/
def canWindow (k : Nat) : Option Nat := (List.range 8).find? (fun w => k == K.MEM_CAN_DATA w)

end Sys2Proof.Machine
end

