-- ==== Sys2Proof/Machine/NetOps.lean ====
section
/-! DEFINITION. The network block beneath the dictionary: Ethernet ports, sessions, hosts and their loss, CAN ports, event queues,
process data mappings and PTP (R321-R347). -/

namespace Sys2Proof.Machine

open Sys2Proof

/-! ### Ethernet ports, R328, R347, R352 -/

/-- Settings of a port read when it is enabled. -/
def enKeys (e : Nat) : List Nat := [K.NET_IP_MODE e, K.NET_IP_ADDR e, K.NET_IP_MASK e, K.NET_IP_GW e]

/-- Whether a port runs DHCP. -/
def Mach.enDhcp (m : Mach) (e : Nat) : Bool := m.h (K.NET_IP_MODE e) == 1

/-- Whether a port's address is set, and the address. -/
def Mach.enHasAddr (m : Mach) (e : Nat) : Bool := if m.enDhcp e then m.net.enAddr.getD e false else true
def Mach.enIp (m : Mach) (e : Nat) : Nat := if m.enDhcp e then m.g (K.NET_IP_ADDR e) else m.h (K.NET_IP_ADDR e)

/-- Readiness of EN0 and EN1 (R352). -/
def Mach.enRefresh (m : Mach) (e : Nat) : Mach :=
  m.setReady (rdyEth e) (if m.gb (K.NET_PORT_ENABLE e) = false then vOff
    else if m.g (K.NET_LINK e) ≠ 0 ∧ m.enHasAddr e = true then vReady else vStarting)

/-- The frame limit of a port (R324). -/
def Mach.frameLimit (m : Mach) (e : Nat) : Nat := if m.g (K.NET_LINK e) = 3 then 1040 else 528

/-! ### Sessions and hosts, R334, R342, R343, R357 -/

/-- A session ends: 1 CLOSE, 2 heartbeat, 3 link; its event queue goes with it. -/
def Mach.endSession (m : Mach) (slot cause : Nat) : Mach :=
  match m.session slot with
  | none => m
  | some s =>
    let m := { m with net := { m.net with sessions := m.net.sessions.set slot none }
                      ev := { m.ev with slots := m.ev.slots.set slot {} } }
    (m.raise 0x2F84 [s.number, cause]).partnerLost dscHost (slot + 1) s.addr s.udp

/-- Whether the CF0 host is watched: the first entry of 0x1016 names a node and a time. -/
def Mach.cfHostTime (m : Mach) : Nat := m.g K.CIA_HB_CONSUMER % 65536
def Mach.cfHostNode (m : Mach) : Nat := bits (m.g K.CIA_HB_CONSUMER) 23 16
def Mach.cfHostSet (m : Mach) : Bool := m.cfHostTime != 0 && m.cfHostNode != 0

/-- Whether a watched source has been seen and has not lapsed (R343). -/
def Mach.hostAlive (m : Mach) : Bool :=
  m.net.sessions.any (fun o => match o with | some (s : Session) => s.timeout != 0 | none => false)
    || (m.cfHostSet && m.net.hbLast.isSome && !m.net.hbLapsed)

/-- IT_STATION_HOLD 1 on every station (R43). -/
def Mach.holdAll (m : Mach) : Mach :=
  let m := upto m.nStations m (fun m st => (wStationHold st 1 m).1)
  if m.hasSL then (wStationHold 4 1 m).1 else m

/-- The host is lost (R343): event 0x2F85 and NET_HOST_LOSS_ACTION. -/
def Mach.hostLoss (m : Mach) : Mach :=
  if m.hostAlive || m.g K.NET_HOST_STATE != 1 then m
  else
    let m := (m.put K.NET_HOST_STATE 2).raise 0x2F85 []
    let a := m.g K.NET_HOST_LOSS_ACTION
    let m := if a = 0 then m else m.holdAll
    if a ≠ 2 then m
    else upto m.nAxes m (fun m n =>
      if m.axEnabled n && m.axOwner n == 0 then m.axHalt n (m.axis n).dStop else m)

/-- A watched source is seen: the first time, or regained with event 0x2F86 (R343). -/
def Mach.hostSeen (m : Mach) : Mach :=
  if m.g K.NET_HOST_STATE = 1 then m
  else (m.put K.NET_HOST_STATE 1).raiseIf (m.g K.NET_HOST_STATE == 2) 0x2F86 []

/-- A valid frame of a session's host (R342). -/
def Mach.sessionSeen (m : Mach) (slot : Nat) : Mach :=
  match m.session slot with
  | none => m
  | some s =>
    let m := { m with net := { m.net with sessions := m.net.sessions.set slot (some { s with lastSeen := m.time }) } }
    if s.timeout = 0 then m else m.hostSeen

/-- The link of a port goes: its sessions end (R334). -/
def Mach.linkLost (m : Mach) (e : Nat) : Mach :=
  upto 4 m (fun m i => match m.session i with
    | some s => if s.port = e then m.endSession i 3 else m
    | none => m)

/-- A link speed: 0 down, 1 10, 2 100, 3 1,000 Mbit/s; a change raises event 0x2F81. -/
def Mach.setLink (m : Mach) (e v : Nat) : Mach :=
  if m.g (K.NET_LINK e) = v then m
  else
    let m := (m.put (K.NET_LINK e) v).raise 0x2F81 [e, v]
    let m := if v = 0 then m.linkLost e else m
    let m := if v = 0 then { m with net := { m.net with rx := m.net.rx.set e [] } } else m
    m.enRefresh e

/-- NET_PORT_ENABLE (R347): 1 reads the port's settings and NET_HWX_PORT (R8); 0 takes the port off. -/
def wPortEnable (e v : Nat) (m : Mach) : WriteResult :=
  if v = 1 then
    let m := (m.put (K.NET_PORT_ENABLE e) 1).sample (enKeys e)
    let m := { m with net := { m.net with hwxPort := m.net.hwxPort.set e (m.g K.NET_HWX_PORT) } }
    let m := if m.enDhcp e then m else { m with net := { m.net with enAddr := m.net.enAddr.set e false } }
    (m.enRefresh e, .ok)
  else
    let m := (m.put (K.NET_PORT_ENABLE e) 0).setLink e 0
    let m := { m with net := { m.net with enAddr := m.net.enAddr.set e false } }
    (m.enRefresh e, .ok)

/-- NET_IP_ADDR (R347): read-only under DHCP. -/
def wIpAddr (e v : Nat) (m : Mach) : WriteResult :=
  if m.gb (K.NET_PORT_ENABLE e) = true ∧ m.enDhcp e = true then (m, .readOnly) else (m.put (K.NET_IP_ADDR e) v, .ok)

/-- NET_STOP_ALL (R321): AX_STOP on every enabled axis, IT_STATION_HOLD 1 on every station, event 0x2F8C. -/
def Mach.stopAll (m : Mach) : Mach :=
  ((upto m.nAxes m (fun m n => m.axStop n 1)).holdAll).raise 0x2F8C []

/-! ### CAN ports, R338, R340, R347 -/

/-- NET_CAN_RESTART (R338). -/
def Mach.canRestart (m : Mach) (p : Nat) : Mach := if p = 0 then m.cf0Start else m.cf1Restart

/-- NET_CAN_RECOVER (R347): a port in bus off leaves it after the recovery sequence. -/
def Mach.canRecover (m : Mach) (p : Nat) : Mach :=
  if m.g (K.NET_CAN_STATE p) = 2 then { m with net := { m.net with recover := m.net.recover.set p true } } else m

/-- EV_CAN_ACK (R335, R340): every record up to the SEQ leaves CF0's queue. -/
def wCanAck (v : Nat) (m : Mach) : WriteResult :=
  ({ m with ev := { m.ev with cf0 := { m.ev.cf0 with queue := m.ev.cf0.queue.filter (fun r => decide (v < r.seq)) } } }, .ok)

/-! ### Process data, R341 -/

/-- COB-ID, type, route and mapping of a PDO: RPDO 1-8 as 0-7, TPDO 1-8 as 8-15. -/
def pdoCob (n : Nat) : Nat := if n < 8 then K.CIA_RPDO_COB n else K.CIA_TPDO_COB (n - 8)
def pdoMapN (n : Nat) : Nat := if n < 8 then K.CIA_RPDO_MAP_N n else K.CIA_TPDO_MAP_N (n - 8)
def pdoMap (n i : Nat) : Nat := if n < 8 then K.CIA_RPDO_MAP n i else K.CIA_TPDO_MAP (n - 8) i

/-- A PDO is enabled while bit 31 of its COB-ID is 0. -/
def Mach.pdoOn (m : Mach) (n : Nat) : Bool := !(bit (m.g (pdoCob n)) 31)
def Mach.pdoRoute (m : Mach) (n : Nat) : Nat := m.h (K.NET_PD_ROUTE n)

/-- The key and bytes of a mapping entry. -/
def entryKey (e : Nat) : Nat := e / 65536 * 256 + e / 256 % 256
def entryBytes (e : Nat) : Nat := e % 256 / 8

/-- Whether an entry can be mapped: an existing sub-index of the right access, no DOMAIN, of the length given. -/
def Mach.mappable (m : Mach) (rpdo : Bool) (e : Nat) : Bool :=
  m.objStatus (entryKey e) == .ok && (match objRow (entryKey e) with
    | none => false
    | some r => !r.ty.isDomain && r.ty.size == some (entryBytes e) && e % 8 == 0
        && (if rpdo then r.acc == .rw || r.acc == .wo else r.acc == .ro || r.acc == .rw))

/-- The most bytes a PDO maps: 8 on classic CAN, else 64. -/
def Mach.pdoLimit (m : Mach) (n : Nat) : Nat :=
  if m.g (K.NET_PD_ROUTE n) = 1 ∨ m.h (K.NET_CAN_MODE 0) = 1 then 64 else 8

/-- The entries a PDO maps now. -/
def Mach.pdoEntries (m : Mach) (n : Nat) : List Nat := (List.range (m.g (pdoMapN n))).map (fun i => m.g (pdoMap n i))

/-- Sub 00 of a mapping: only while the PDO is disabled; a number other than 0 needs entries that can be mapped and fit. -/
def wPdoMapN (n v : Nat) (m : Mach) : WriteResult :=
  if m.pdoOn n then refuseState m
  else
    let es := (List.range v).map (fun i => m.g (pdoMap n i))
    if v ≠ 0 ∧ (es.all (fun e => m.mappable (decide (n < 8)) e) = false ∨ m.pdoLimit n < (es.map entryBytes).foldl (· + ·) 0) then refuseRange m
    else (m.put (pdoMapN n) v, .ok)

/-- An entry of a mapping: only while the PDO is disabled and sub 00 is 0. -/
def wPdoMap (n i v : Nat) (m : Mach) : WriteResult :=
  if m.pdoOn n = true ∨ m.g (pdoMapN n) ≠ 0 then refuseState m
  else if v ≠ 0 ∧ m.mappable (decide (n < 8)) v = false then refuseRange m
  else (m.put (pdoMap n i) v, .ok)

/-- A COB-ID: the enable of a PDO reads its NET_PD_ROUTE. -/
def wPdoCob (n v : Nat) (m : Mach) : WriteResult :=
  let was := m.pdoOn n
  let m := m.put (pdoCob n) v
  if !was && m.pdoOn n then
    let m := m.sample [K.NET_PD_ROUTE n]
    (if n < 8 then { m with net := { m.net with rpdoHeld := m.net.rpdoHeld.set n none } }
     else { m with net := { m.net with syncCount := m.net.syncCount.set (n - 8) 0, tpdoLast := m.net.tpdoLast.set (n - 8) m.time
                                       tpdoSent := m.net.tpdoSent.set (n - 8) none, tpdoHwx := m.net.tpdoHwx.set (n - 8) none } }, .ok)
  else (m, .ok)

/-- A transmission type: those between 241 and 253 are none of R341. -/
def wPdoType (k v : Nat) (m : Mach) : WriteResult := if 241 ≤ v ∧ v ≤ 253 then refuseRange m else (m.put k v, .ok)

/-- NET_PD_ROUTE: both ways is for TPDOs only. -/
def wPdRoute (n v : Nat) (m : Mach) : WriteResult := if n < 8 ∧ v = 2 then refuseRange m else (m.put (K.NET_PD_ROUTE n) v, .ok)

/-! ### PTP, R344, R345 -/

/-- A state of PTP; a change raises event 0x2F8A. -/
def Mach.setPtp (m : Mach) (v : Nat) : Mach :=
  if m.g K.NET_PTP_STATE = v then m else (m.put K.NET_PTP_STATE v).raise 0x2F8A [v]

/-- NET_PTP_ENABLE: 1 reads port and domain and listens; 0 ends the discipline. -/
def wPtpEnable (v : Nat) (m : Mach) : WriteResult :=
  let m := m.put K.NET_PTP_ENABLE v
  if v = 1 then
    let m := m.sample [K.NET_PTP_PORT, K.NET_PTP_DOMAIN]
    (if m.g K.NET_PTP_STATE = 0 then m.setPtp 1 else m, .ok)
  else ((m.put K.NET_PTP_RATE 0).setPtp 0, .ok)

end Sys2Proof.Machine
end

