-- ==== Sys2Proof/Machine/Station.lean ====
section
/-! DEFINITION. Configuring a thermal station (R124, R165), and the conversions of the analogue subsystem that reach other units
(R300, R309, R315). -/

namespace Sys2Proof.Machine

open Sys2Proof

/-! ### TH_CONFIGURED -/

/-- The subs a station reads when TH_CONFIGURED is written to 1 (R124, R166). -/
def stationKeys (st : Nat) : List Nat :=
  [K.TH_PORTS st, K.TH_LEAD st, K.TH_FEED_AXIS st, K.TH_TRIG_SRC st, K.TH_LINE_NM st, K.TH_LINE_COUNTS st, K.TH_FORM_SYNC st,
   K.TH_MEDIA_PRES_SI st, K.TH_RIBBON st, K.TH_RIB_SUPPLY_AXIS st, K.TH_RIB_TAKEUP_AXIS st, K.TH_RIB_LIFT_AXIS st, K.TH_RIB_PRES_SI st,
   K.TH_RIB_DOWN_SI st, K.TH_RIB_COUNTS_REV st, K.TH_PANELS st, K.TH_CUT_AXIS st, K.TH_CUT_HOME_SI st, K.TH_CUT_DIST st,
   K.TH_PRES_AXIS st, K.TH_PRES_TAKEN_SI st]
   ++ (List.range 2).flatMap (fun c => [K.SNS_MODE st c, K.SNS_AIN st c, K.SNS_POLARITY st c, K.SNS_DIST st c])

/-- Whether a station may name an axis: present and owned by nobody. -/
def Mach.axisFree (m : Mach) (a : Nat) : Bool := decide (a < m.nAxes) && m.axOwner a == 0

/-- The checks of R124 and R165. -/
def Mach.stationRefused (m : Mach) (st : Nat) : Bool :=
  let mask := m.g (K.TH_PORTS st)
  let ps := bitsSet 8 mask
  let feed := m.g (K.TH_FEED_AXIS st)
  let others := [K.TH_RIB_SUPPLY_AXIS st, K.TH_RIB_TAKEUP_AXIS st, K.TH_RIB_LIFT_AXIS st, K.TH_CUT_AXIS st, K.TH_PRES_AXIS st].map m.g
  ps == [] || ps.any (fun h => decide (m.nHeads ≤ h) || (m.stationOf h).isSome) || decide (2 < ps.length)
    || (ps.length == 2 && !(ps.contains (m.g (K.TH_LEAD st))))
    || (feed != 0xFF && !(m.axisFree feed)) || m.g (K.TH_LINE_COUNTS st) == 0
    || (m.gb (K.TH_FORM_SYNC st) && (m.g (K.SNS_MODE st 0) == 0 || m.g (K.SNS_MODE st 0) == 3))
    || (m.gb (K.TH_RIBBON st) && (m.g (K.TH_RIB_SUPPLY_AXIS st) == 0xFF || m.g (K.TH_RIB_TAKEUP_AXIS st) == 0xFF))
    || (m.g (K.TH_PANELS st) != 0 && m.g (K.SNS_MODE st 1) == 0)
    || (m.g (K.TH_CUT_AXIS st) != 0xFF && m.g (K.TH_CUT_HOME_SI st) == 0xFF)
    || others.any (fun a => a != 0xFF && (a == feed || !(m.axisFree a)))

/-- The media partner is entered ABSENT, then present if its inputs show a medium (R155, R357). -/
def Mach.mediaTaken (m : Mach) (st : Nat) : Mach :=
  let m := m.put (K.TH_MEDIA_PRESENT st) 0
  if m.mediaThere st then m.mediaEval st 0 else m.partnerIs dscMedia st false

/-- The ribbon at configuration (R159, R357): fitted if its input shows one. -/
def Mach.ribbonTaken (m : Mach) (st : Nat) : Mach :=
  if m.h (K.TH_RIBBON st) = 0 then m
  else
    let si := m.h (K.TH_RIB_PRES_SI st)
    if 23 < si ∨ m.si si then m.ribbonFit st false else (m.put (K.TH_RIB_STATE st) 0).partnerIs dscRibbon st false

/-- A station becomes configured. -/
def Mach.stationOn (m : Mach) (st : Nat) : Mach :=
  let m := (m.sample (stationKeys st)).modSta st (fun _ => {})
  let ps := m.stationPorts st
  let m := m.puts [(K.TH_CONFIGURED st, 1), (K.TH_ST_MODE st, if ps.length = 2 then 1 else 0), (K.TH_ST_ACTIVE_PORTS st, m.g (K.TH_PORTS st))]
  let m := (m.stationAxes st).foldl (fun m a => (m.axDisarm a).put (K.AX_GROUP a) 0xFF) m
  let m := ((m.senseReset st 0).senseReset st 1).mediaTaken st
  (m.ribbonTaken st).refreshStations

/-- A station is no longer configured: its DEFINED items are cancelled first (R124). -/
def Mach.stationOff (m : Mach) (st : Nat) : Mach :=
  let m := (m.itemsOf st (fun it => it.state == .defined)).foldl (fun m it => m.cancel it.id 4) m
  let m := (m.puts [(K.TH_CONFIGURED st, 0), (K.TH_ST_ACTIVE_PORTS st, 0), (K.TH_ST_MODE st, 0)]).modSta st (fun _ => {})
  (m.partnerLost dscMedia st 0 0).refreshStations

/-- TH_CONFIGURED (R124, R165). -/
def wConfigured (st v : Nat) (m : Mach) : WriteResult :=
  if m.g (K.TH_CONFIGURED st) = v then accept m
  else if v = 1 then (if m.stationRefused st then refuseRange m else (m.stationOn st, .ok))
  else if m.itemsOf st Item.inFlight ≠ [] then refuseState m
  else (m.stationOff st, .ok)

/-- TH_CONFIGURED (R124, R165). -/
def execThConfigured (st v : Nat) (s : State) : Host.Outcome State Fault Refusal :=
  done s fun _ m => m.hostWrite (K.TH_CONFIGURED st) (leBytes 1 v) (wConfigured st)

/-! ### Conversions -/

/-- The converter channel of a scan conversion: I_off and I_on on HP_SCAN_AIN_I, V_on on HP_SCAN_AIN_V (R127). -/
def Mach.scanChannel (m : Mach) (h which : Nat) : Nat := if which = 2 then m.g (K.HP_SCAN_AIN_V h) else m.g (K.HP_SCAN_AIN_I h)

/-- Whether a scan conversion is due in this microsecond (R127): I_off when the step starts, I_on and V_on 0.50 µs before its strobe
ends. -/
def Mach.scanDue (m : Mach) (h which : Nat) : Bool :=
  let s := (m.head h).scan
  s.pulsing && (if which = 0 then s.lastStart == some m.time else (s.strobe.2.2 - 50) / 100 == m.time)

/-- URGENT_REQUEST (R309): at the first slot boundary at or after the request, a current sample of an axis on a CS channel with its window
in slots, or a conversion of a running scan
step of a head port at its moment of R127. -/
def execUrgentRequest (scan : Bool) (unit which chan phase window : Nat) (s : State) : Host.Outcome State Fault Refusal :=
  done s fun _ m =>
    let req := 16 * m.time + phase
    if scan && !(m.scanDue unit which) then m
    else
      let u : AnUrgent := { req, kind := if scan then .scan unit which else .current unit
                            chan := if scan then m.scanChannel unit which else chan, last := if scan then none else some (req + window) }
      { m with an := { m.an with urgent := insertBy urgentBefore u m.an.urgent } }

/-- Deliver a scan conversion to its step (R128). -/
def Mach.scanDeliver (m : Mach) (h which code : Nat) (flag : Bool) : Mach :=
  m.modHead h (fun x =>
    if !x.scan.pulsing then x
    else match which with
      | 0 => { x with scan := { x.scan with iOff := some (code, flag) } }
      | 1 => { x with scan := { x.scan with iOn := some (code, flag) } }
      | _ => { x with scan := { x.scan with vOn := some (code, flag) } })

/-- CONVERSION_COMPLETE (R300, R304, R310-R314): the conversion of a slice ends with its raw result, at a slot of the µs, and is
delivered: to its accumulator and tracker, and to the sense channels, fuser and buses that read the channel. -/
def execConversionComplete (slice raw phase : Nat) (s : State) : Host.Outcome State Fault Refusal :=
  done s fun _ m =>
    let slot := 16 * m.time + phase
    match (m.slice slice).conv with
    | none => m
    | some c =>
      if slot < c.endSlot then m
      else
        let (m, r) := m.convEnd slice raw slot
        let m := m.anLoad slot
        match r with
        | none => m
        | some r =>
          match r.kind with
          | .entry e =>
            (((m.deliverEntry slice e r.code r.flag).senseDeliver r.chan r.code r.flag).fuserDeliver r.chan r.code r.flag).busDeliver r.chan
          | .scan h w => m.scanDeliver h w r.code r.flag
          | .current _ => m
          | .check => m

/-- CONVERTER_POWER_DOWN (R315): 50 µs without a conversion, and nothing holds the converter powered. -/
def execConverterPowerDown (s : State) : Host.Outcome State Fault Refusal :=
  done s fun _ m =>
    let scanning := (List.range m.nHeads).any m.scanRuns
    let foc := (List.range m.nAxes).any (fun n => m.axEnabled n && (m.axis n).kind == 2)
    let idle := (List.range 5).all (fun i => (m.slice i).conv.isNone) && m.an.waiting == [] && m.an.urgent == []
    if idle && !scanning && !foc && !m.anShortPeriod && decide (m.an.lastEnd + 800 ≤ 16 * m.time) then
      { m with an := { m.an with powered := false } }
    else m

end Sys2Proof.Machine
end

