-- ==== Sys2Proof/Machine/Access.lean ====
section
/-! DEFINITION. One dictionary on every port (R318): the effect of a write to any sub-index, and of a read, whichever way the access
comes. A sub-index with an effect of its own has it here; every other is stored under its Sampled rule (R8). -/

namespace Sys2Proof.Machine

open Sys2Proof

/-- The effect of a write that passed its card. -/
abbrev WEff := Nat → Mach → WriteResult

/-- The boot-configuration ceilings of the pepper limits (R382). -/
def wPepperLimit (k off n v : Nat) (m : Mach) : WriteResult := if fld m.prot off n < v then refuseRange m else (m.put k v, .ok)

/-- Objects of a head port. -/
def effHead (h k : Nat) : Option WEff :=
  if k = K.HP_MODE h then some (wHpMode h)
  else if k = K.HP_PEPPER_ON_LIMIT h then some (wPepperLimit k 0x18 2)
  else if k = K.HP_PEPPER_DUTY_LIMIT h then some (wPepperLimit k 0x1A 1)
  else if k = K.HP_PEPPER_CLEAR h then some (onOne (fun m => m.pepperClear h))
  else if k = K.HP_DOT_MAP h then some (wDotMap h)
  else if k = hidingLimitKey h 0 then some (wHidingLimit h 0)
  else if k = hidingLimitKey h 1 then some (wHidingLimit h 1)
  else if k = K.HP_DOT_REF_TAKE h then some (onOne (fun m => m.dotRefTake h))
  else if k = K.HP_TRIM_UPPER h then some (wTrimBound h true)
  else if k = K.HP_TRIM_LOWER h then some (wTrimBound h false)
  else if k = K.HP_TRIM_UNFREEZE h then some (onOne (fun m => m.resumeTrim h))
  else if k = K.HP_PLAN_UNFREEZE h then some (onOne (fun m => m.planResume h))
  else if k = K.HP_GAIN_RESET h then some (wGainReset h)
  else if k = K.HP_GAIN_LOWER h ∨ k = K.HP_GAIN_UPPER h then some (wGainBound h k)
  else if renderInput k then some (wRenderInput k)
  else none

/-- Objects of a thermal station. -/
def effStation (st k : Nat) : Option WEff :=
  if k = K.TH_CONFIGURED st then some (wConfigured st)
  else if k = K.TH_TANDEM_RESTORE st then some (wTandemRestore st)
  else if k = K.TH_LEARN st then some (wLearn st)
  else if k = K.SNS_UNFREEZE st 0 then some (onOne (fun m => m.senseResume st 0))
  else if k = K.SNS_UNFREEZE st 1 then some (onOne (fun m => m.senseResume st 1))
  else if k = K.SNS_LOWER st 0 then some (wSenseBound st 0 false)
  else if k = K.SNS_UPPER st 0 then some (wSenseBound st 0 true)
  else if k = K.SNS_LOWER st 1 then some (wSenseBound st 1 false)
  else if k = K.SNS_UPPER st 1 then some (wSenseBound st 1 true)
  else if renderInput k then some (wRenderInput k)
  else none

/-- Objects of the laser station and of the calibration sets. -/
def effLaser (k : Nat) : Option WEff :=
  if k = K.LS_SCAN_MODE then some wScanMode
  else if k = K.LS_INTLK_REENABLE then some wIntlkReenable
  else if k = K.LS_INTLK_ENABLE then some wIntlkEnable
  else if k = K.LS_PWR_CLEAR then some (onOne wPwrClear)
  else if k = K.LS_PROC_MODE then some wProcMode
  else if k = K.LS_FUS_TRIP_CLEAR then some wTripClear
  else if k = K.LS_FUS_STANDBY then some wFusStandby
  else if k = K.LS_PROC_CLEAR then some wProcClear
  else if k = K.LS_JAM_CLEAR then some wJamClear
  else if k = K.LS_PURGE then some wPurge
  else if k = K.TH_CAL_CTRL then some wCalCtrl
  else if k = K.TH_CAL_ITEM then some wCalItem
  else if k = K.TH_CAL_APPLY then some wCalApply
  else if K.LS_SCREEN 0 ≤ k ∧ k ≤ K.LS_SCREEN 15 then some (wPageInput (fun it => K.LS_SCREEN it.pattern == k) k)
  else if K.LS_PAPER 0 ≤ k ∧ k ≤ K.LS_PAPER 15 then some (wPageInput (fun it => K.LS_PAPER it.mediaClass == k) k)
  else none

/-- Objects of an axis. The operands of a self-test made by a write that names none are free. -/
def effAxis (n k : Nat) : Option WEff :=
  if k = K.AX_ENABLE n then some (fun v m =>
    let (f, m) := m.freeBelow 4
    let ds := (List.range 3).map (fun i => Config.freeNat (m.fresh + i))
    wAxEnable n (if f < 3 then some f else none) ds v { m with fresh := m.fresh + 3 })
  else if k = K.AX_TARGET n then some (wAxTarget n)
  else if k = K.AX_SPEED n then some (wAxLimit n 0)
  else if k = K.AX_ACCEL n then some (wAxLimit n 1)
  else if k = K.AX_DECEL n then some (wAxLimit n 2)
  else if k = K.AX_JERK n then some (wAxLimit n 3)
  else if k = K.AX_VELOCITY n then some (wAxVelocity n)
  else if k = K.AX_CURRENT n then some (wAxCurrent n)
  else if k = K.AX_FOLLOW n then some (wAxFollow n)
  else if k = K.AX_HOME n then some (wAxHome n)
  else if k = K.AX_HALT n then some (wAxHalt n)
  else if k = K.AX_STOP n then some (wAxStop n)
  else if k = K.AX_CLEAR n then some (wAxClear n)
  else if k = K.AX_GROUP n then some (wAxGroup n)
  else none

/-- AX_REFRESH (R227): accepted, it is answered at its tick to d. -/
def wAxRefresh (x : Mem) (d : ReplyTo) (v : Nat) (m : Mach) : WriteResult :=
  if m.nAxes ≤ v then refuseRange m else (m.refreshAsk x v d, .ok)

/-- CP_LANES 4 is for even ports (R276). -/
def wCpLanes (c v : Nat) (m : Mach) : WriteResult := if v = 4 ∧ c % 2 = 1 then refuseRange m else (m.put (K.CP_LANES c) v, .ok)

/-- A camera port's objects; what memory owes a port that leaves is settled with the write. -/
def effCamera (x : Mem) (c k : Nat) : Option WEff :=
  if k = K.CP_ENABLE c then some (fun v m => let (m, st) := wCpEnable c v m; (m.inspSettle x, st))
  else if k = K.CP_RESTART c then some (wCpRestart c)
  else if k = K.CP_LANES c then some (wCpLanes c)
  else none

/-- The objects of pipelines, contexts and learning. -/
def effInspect (k : Nat) : Option WEff :=
  let i := k / 256
  if 0x2C80 ≤ i ∧ i < 0x2C84 ∧ (k = K.IP_MODE (i - 0x2C80) ∨ k = K.IP_CTX_ENABLE (i - 0x2C80)) then some (wPipe (i - 0x2C80) k)
  else if 0x2C90 ≤ i ∧ i < 0x2C98 ∧ k = K.IN_CTX_RECORD (i - 0x2C90) then some (wCtxRecord (i - 0x2C90))
  else if 0x2D10 ≤ i ∧ i < 0x2D14 ∧ k = K.IN_GAIN_UNFREEZE (i - 0x2D10) then some (wGainUnfreeze (i - 0x2D10))
  else none

/-- Analogue objects. -/
def effAnalogue (k : Nat) : Option WEff :=
  let i := k / 256
  let s := k % 256
  if k = K.AN_SEQ_TABLE then some wAnSeqTable
  else if i = 0x2E01 then some (wAnChCfg (s - 1))
  else if 0x2E10 ≤ i ∧ i < 0x2E15 then
    let sl := i - 0x2E10
    if k = K.AN_SL_UNFREEZE sl then some (onOne (fun m => m.sliceResume sl))
    else if k = sliceBoundKey sl 0 then some (wSliceBound sl 0)
    else if k = sliceBoundKey sl 1 then some (wSliceBound sl 1)
    else if k = sliceBoundKey sl 2 then some (wSliceBound sl 2)
    else if k = sliceBoundKey sl 3 then some (wSliceBound sl 3)
    else none
  else if s ≠ 0 ∧ k = K.AN_ACC_FILTER (s - 1) then some (wAnAccFilter (s - 1))
  else if s ≠ 0 ∧ k = K.AN_ACC_RESET (s - 1) then some (onOne (fun m => m.accReset (s - 1)))
  else if s ≠ 0 ∧ k = K.AN_MM_RESET (s - 1) then some (onOne (fun m => m.mmReset (s - 1)))
  else none

/-- Motor supply buses and phase ports. -/
def effDrive (k : Nat) : Option WEff :=
  let i := k / 256
  if 0x2B00 ≤ i ∧ i < 0x2B64 ∧ k = K.PP_OFS_UNFREEZE (i - 0x2B00) then some (onOne (fun m => m.offsetResume (i - 0x2B00)))
  else if 0x2BC0 ≤ i ∧ i < 0x2BC2 then
    let b := i - 0x2BC0
    if k = K.BUS_CLEAR b then some (wBusClear b)
    else if k = K.BUS_BRK_CLEAR b then some (wBusBrkClear b)
    else ((List.range 5).find? (fun w => k == busLevelKey b w)).map (fun w => wBusLevel b w)
  else none

/-- Serial ports. CTS stays at its last sampled level. -/
def effUart (x : Mem) (u k : Nat) : Option WEff :=
  if k = K.UA_MODE u then some (wUaMode x u)
  else if k = K.UA_RATE u then some (wUaRate u)
  else if k = K.UA_DATA_BITS u ∨ k = K.UA_PARITY u ∨ k = K.UA_STOP u then some (wUaFormat u k)
  else if k = K.UA_RL_DIV u then some (wUaRlDiv u)
  else if k = K.UA_RX_RD u then some (wUaRxRd u)
  else if k = K.UA_TX_WR u then some (wUaTxWr x u)
  else if k = K.UA_TX_BREAK u then some (wUaTxBreak x u)
  else if k = K.UA_RX_BASE u ∨ k = K.UA_RX_SIZE u ∨ k = K.UA_TX_BASE u ∨ k = K.UA_TX_SIZE u then some (wUaRing u k)
  else if k = K.UA_RTS_HIGH u then some (wUaRts u true)
  else if k = K.UA_RTS_LOW u then some (wUaRts u false)
  else none

/-- Items, clusters and discovery. -/
def effItems (x : Mem) (k : Nat) : Option WEff :=
  let i := k / 256
  let s := k % 256
  if k = K.IT_DEFINE_ADDR then some (wDefineAddr x)
  else if k = K.IT_DEFINE_RECORD then some wDefineRecord
  else if k = K.IT_CANCEL then some wCancel
  else if k = K.IT_RELEASE then some wRelease
  else if k = K.IT_RETIRE then some wRetire
  else if i = 0x2305 ∧ 1 ≤ s then some (wStationHold (s - 1))
  else if k = K.RD_GEN_SELECT then some wGenSelect
  else if 0x2410 ≤ i ∧ i < 0x2414 ∧ k = K.RD_CL_CTRL (i - 0x2410) then some (wClusterCtrl (i - 0x2410))
  else if k = K.DSC_CLEAR then some wDscClear
  else if k = K.DSC_LSS_ASSIGN then some wLssAssign
  else if i = 0x2211 ∧ 1 ≤ s ∧ s ≤ 127 then some (wNmtAssign s)
  else none

/-- Flash, OTP row, banks and log. The verify of an OTP program made by a write that names no outcome is free. -/
def effFlash (x : Mem) (k : Nat) : Option WEff :=
  if k = K.NV_OP_CTRL then some (wNvOp x)
  else if k = K.NV_WP_LO then some wWpLo
  else if k = K.NV_WP_HI then some wWpHi
  else if k = K.NV_PROT_CTRL then some wProtCtrl
  else if k = K.NV_OTP_CUSTOMER then some (fun v m =>
    let (b, m) := m.freeBelow 513
    wOtpCustomer (if b < 512 then some b else none) v m)
  else if k = K.NV_ATTEST_CHALLENGE then some wAttest
  else if k = K.EV_LOG_CLEAR then some wLogClear
  else if k = K.NV_BANK_CTRL then some (wBankCtrl x)
  else none

/-- Power, temperature and the network. -/
def effDevice (k : Nat) : Option WEff :=
  let i := k / 256
  let s := k % 256
  if k = K.DEV_VMON_WARN ∨ k = K.DEV_VMON_RECOVER ∨ k = K.DEV_VMON_RESET then some (wVmonLevel k)
  else if k = K.DEV_THROTTLE_FORCE then some wThrottleForce
  else if k = K.DEV_SHUTDOWN_CLEAR then some wShutdownClear
  else if k = K.NET_STOP_ALL then some (onOne Mach.stopAll)
  else if k = K.NET_PORT_ENABLE 0 then some (wPortEnable 0)
  else if k = K.NET_PORT_ENABLE 1 then some (wPortEnable 1)
  else if k = K.NET_IP_ADDR 0 then some (wIpAddr 0)
  else if k = K.NET_IP_ADDR 1 then some (wIpAddr 1)
  else if k = K.NET_CAN_RECOVER 0 then some (onOne (fun m => m.canRecover 0))
  else if k = K.NET_CAN_RECOVER 1 then some (onOne (fun m => m.canRecover 1))
  else if k = K.NET_CAN_RESTART 0 then some (onOne (fun m => m.canRestart 0))
  else if k = K.NET_CAN_RESTART 1 then some (onOne (fun m => m.canRestart 1))
  else if k = K.NET_PTP_ENABLE then some wPtpEnable
  else if k = K.EV_CAN_ACK then some wCanAck
  else if i = 0x2FA0 ∧ 1 ≤ s then some (wPdRoute (s - 1))
  else none

/-- Process data parameters of CF0. -/
def effPdo (k : Nat) : Option WEff :=
  let i := k / 256
  let s := k % 256
  let n := i % 0x200 + (if 0x1800 ≤ i then 8 else 0)
  if 0x1400 ≤ i ∧ i < 0x1408 ∨ 0x1800 ≤ i ∧ i < 0x1808 then
    (if s = 1 then some (wPdoCob n) else if s = 2 then some (wPdoType k) else none)
  else if 0x1600 ≤ i ∧ i < 0x1608 ∨ 0x1A00 ≤ i ∧ i < 0x1A08 then
    (if s = 0 then some (wPdoMapN n) else some (wPdoMap n (s - 1)))
  else none

/-- An enable of an input that reads its settings when it is written to 1 (R8). -/
def wInputEnable (k : Nat) (ks : List Nat) (v : Nat) (m : Mach) : WriteResult :=
  let m := m.put k v
  (if v = 1 then m.sample ks else m, .ok)

/-- Axes, start groups and their inputs: an enable of an encoder or step/direction input reads its settings (R8). -/
def effMotion (x : Mem) (d : ReplyTo) (k : Nat) : Option WEff :=
  let i := k / 256
  if k = K.AX_TABLE_BASE then some wAxTableBase
  else if k = K.AX_REFRESH then some (wAxRefresh x d)
  else if 0x2A40 ≤ i ∧ i < 0x2A68 then effAxis (i - 0x2A40) k
  else if 0x2A08 ≤ i ∧ i < 0x2A0C ∧ k = K.SG_START (i - 0x2A08) then some (onOne (fun m => m.askStart (i - 0x2A08) m.time))
  else if 0x2A10 ≤ i ∧ i < 0x2A18 ∧ k = K.QE_ENABLE (i - 0x2A10) then
    some (wInputEnable k [K.QE_INVERT (i - 0x2A10), K.QE_FILTER (i - 0x2A10)])
  else if 0x2A18 ≤ i ∧ i < 0x2A20 ∧ k = K.SD_ENABLE (i - 0x2A18) then
    some (wInputEnable k [K.SD_EDGE (i - 0x2A18), K.SD_DIR_INVERT (i - 0x2A18)])
  else none

/-- The effect a sub-index has of its own, if it has one. -/
def effOwn (x : Mem) (d : ReplyTo) (k : Nat) : Option WEff :=
  let i := k / 256
  if 0x2500 ≤ i ∧ i < 0x2700 then effHead ((i - 0x2500) / 0x80) k
  else if 0x2700 ≤ i ∧ i < 0x2780 then effStation ((i - 0x2700) / 0x20) k
  else if 0x2780 ≤ i ∧ i < 0x2A00 then effLaser k
  else if 0x2A00 ≤ i ∧ i < 0x2B00 then effMotion x d k
  else if 0x2B00 ≤ i ∧ i < 0x2C00 then effDrive k
  else if 0x2C00 ≤ i ∧ i < 0x2C08 then effCamera x (i - 0x2C00) k
  else if 0x2C08 ≤ i ∧ i < 0x2E00 then effInspect k
  else if 0x2E00 ≤ i ∧ i < 0x2F00 then effAnalogue k
  else if 0x2F00 ≤ i ∧ i < 0x2F08 then effUart x (i - 0x2F00) k
  else if 0x2200 ≤ i ∧ i < 0x2500 then effItems x k
  else if 0x3000 ≤ i ∧ i < 0x3100 ∨ i = 0x2120 then effFlash x k
  else if i < 0x2000 then effPdo k
  else match canWindow k with
    | some w => some (wCanData w)
    | none => effDevice k

/-- The effect of a write of any sub-index (R7, R8). -/
def effOf (x : Mem) (d : ReplyTo) (k : Nat) : WEff := (effOwn x d k).getD (storeEffect k)

/-- Whether an accepted write is answered only at its tick (R227). -/
def answersAtTick (k : Nat) : Bool := k == K.AX_REFRESH

/-- What a read does besides: the peaks and the log selection move on, a free report draws anew. -/
def readEff (k : Nat) (m : Mach) : Mach :=
  let i := k / 256
  let s := k % 256
  if k = K.EV_LOG_RECORD then m.logAdvance
  else if k = K.DEV_VMON_MIN then m.vmonMinRead
  else if k = K.DEV_TEMP_PEAK then m.tempPeakRead
  else if 0x2500 ≤ i ∧ i < 0x2700 ∧ k = K.HP_PEPPER_DUTY_MAX ((i - 0x2500) / 0x80) then m.dutyRead ((i - 0x2500) / 0x80)
  else if i = 0x2E31 ∧ 1 ≤ s then m.mmReset (s - 1)
  else if 0x2BC0 ≤ i ∧ i < 0x2BC2 ∧ k = K.BUS_PEAK (i - 0x2BC0) then m.put k (m.g (K.BUS_VOLTAGE (i - 0x2BC0)))
  else if 0x2C00 ≤ i ∧ i < 0x2C08 ∧ k = K.CP_BUF_PEAK (i - 0x2C00) then rCpBufPeak (i - 0x2C00) m
  else if openView k then { m with fresh := m.fresh + 1 }
  else m

/-- A write of any sub-index (R319): its status, none where the answer comes at its tick. -/
def Mach.writeObj (x : Mem) (d : ReplyTo) (k : Nat) (bs : List Byte) (m : Mach) : Mach × Option Status :=
  let (m, st) := m.judgeWrite k bs (effOf x d k)
  (m, if answersAtTick k && st == .ok then none else some st)

/-- A read of any sub-index (R319): n is the number of bytes wanted and corr the bit corrections, both for memory only. -/
def Mach.readObj (x : Mem) (k n : Nat) (corr : List Nat) (m : Mach) : Mach × Status × List Byte :=
  match canWindow k with
  | some w => if m.reach false = .open_ then (if m.objStatus k = .ok then m.canRead x w n corr else (m, m.objStatus k, [])) else (m, .unavailable, [])
  | none => m.judgeRead k (Mach.view k) (readEff k)

/-- OBJECT_WRITE (R319): a write made as a command of its own. -/
def execObjectWrite (index sub : Nat) (data : List Byte) (s : State) : Host.Outcome State Fault Refusal :=
  done s fun x m =>
    let k := index * 256 + sub
    if answersAtTick k then
      (if m.reach false = .silent then m
       else
        let (m, st) := m.writeObj x .local k data
        match st with
        | none => m
        | some st => m.reply st (leBytes 4 0))
    else m.hostWrite k data (effOf x .local k)

end Sys2Proof.Machine
end

