-- ==== Sys2Proof/Machine/Hywex.lean ====
section
/-! DEFINITION. Hywex Link (R320-R335): frames received, classed and queued, requests executed by class, responses, sessions,
events and heartbeats. -/

namespace Sys2Proof.Machine

open Sys2Proof

/-! ### A frame from the wire, R328-R331 -/

/-- A number of n bytes at an offset of a frame, most significant byte first; and the same, least significant first. -/
def be (bs : List Byte) (off n : Nat) : Nat := ofBe ((bs.drop off).take n)
def le (bs : List Byte) (off n : Nat) : Nat := ofLe ((bs.drop off).take n)

/-- What a received Ethernet frame is (R328): dropped and counted, an ARP request for the port, an ICMP echo request with its data,
a message of DHCP or PTP, or a Hywex Link payload with its source address and UDP port. -/
inductive EthKind where
  | bad
  | arp
  | echo (data : List Byte)
  | other
  | hywex (addr udp : Nat) (payload : List Byte)
  deriving DecidableEq, Repr

/-- Ethernet, IPv4 and UDP as R328 and R329 accept them. data is the frame from its destination address to its last byte before
the frame check sequence. -/
def Mach.ethKind (m : Mach) (e : Nat) (data : List Byte) : EthKind :=
  let mac := fld m.flash.otp (if e = 0 then 0x10 else 0x16) 6
  let mine := be data 0 6 == mac
  let ty := be data 12 2
  let ihl := be data 14 1
  let len := be data 16 2
  let proto := be data 23 1
  let src := be data 26 4
  let dst := be data 30 4
  let toMe := mine && dst == m.enIp e && m.enHasAddr e
  let ip := (data.drop 34).take (len - 20)
  if data.length < 14 ∨ 1514 < data.length then .bad
  else if ty = 0x0806 then
    (if data.length < 42 then .bad else if m.enHasAddr e && be data 38 4 == m.enIp e && be data 20 2 == 1 then .arp else .other)
  else if ty ≠ 0x0800 ∨ data.length < 34 ∨ ihl ≠ 0x45 ∨ be data 20 2 % 0x4000 ≠ 0 ∨ len < 28 ∨ data.length < 14 + len then .bad
  else if proto = 1 then
    (if toMe = true ∧ be ip 0 1 = 8 ∧ ip.length ≤ 520 then .echo (ip.drop 8) else .bad)
  else if proto ≠ 17 then .bad
  else
    let dport := be ip 2 2
    let ulen := be ip 4 2
    if dport = 68 then (if m.enDhcp e then .other else .bad)
    else if dport = 319 ∨ dport = 320 then
      (if m.gb K.NET_PTP_ENABLE = true ∧ m.h K.NET_PTP_PORT = e then .other else .bad)
    else if toMe = false ∨ dport ≠ m.net.hwxPort.getD e 0 ∨ ulen < 8 ∨ ip.length < ulen then .bad
    else .hywex src (be ip 0 2) ((ip.drop 8).take (ulen - 8))

/-- NET_HWX_ALLOW (R347): every address while all four entries are 0; else one that an entry in use takes in. -/
def Mach.hwxAllowed (m : Mach) (addr : Nat) : Bool :=
  let es := ((List.range 4).map (fun i => m.g (K.NET_HWX_ALLOW i))).filter (· ≠ 0)
  es == [] || es.any (fun x => addr &&& (x / 2 ^ 32) == (x % 2 ^ 32) &&& (x / 2 ^ 32))

/-- Whether a Hywex Link header is in range and its CHECK correct (R329-R331). -/
def hwxValid (p : List Byte) : Bool :=
  let op := le p 3 1
  decide (16 ≤ p.length) && le p 0 2 == 0x4857 && le p 2 1 % 16 == 1 && le p 2 1 / 16 % 4 != 3
    && decide (1 ≤ op ∧ op ≤ 10) && op != 5 && le p 8 2 + 16 == p.length && le p 10 1 == 0 && le p 11 1 % 2 == 0
    && (op != 9 || le p 6 2 == 0) && le p 12 4 == crc32 (p.take 12 ++ leBytes 4 0 ++ p.drop 16)

/-- Whether reserved bits of the header or of the operation's payload are set: what the frame brings about is undefined (R6,
R330-R333, R342). -/
def hwxReserved (p : List Byte) : Bool :=
  let op := le p 3 1
  let q := p.drop 16
  le p 2 1 / 64 != 0 || le p 11 1 / 4 != 0
    || ((op == 1 || op == 2) && (le q 3 1 != 0 || le q 10 2 != 0))
    || ((op == 3 || op == 4) && (le q 1 3 != 0 || le q 10 2 != 0))
    || (op == 7 && le q 1 3 != 0) || (op == 8 && le q 2 2 != 0) || (op == 9 && le q 3 1 / 2 != 0)

/-- The class a request is served in, and whether its TC0 mark is demoted (R320, R321). -/
def hwxClass (op tc : Nat) (more : Bool) (payload : List Byte) : Nat × Bool :=
  let k := le payload 0 2 * 256 + le payload 2 1
  let domain := match objRow k with
    | some r => r.ty.isDomain
    | none => false
  let natural := if op = 6 ∨ op = 7 then 0 else if op = 3 ∨ op = 4 then 2 else if op ≤ 2 ∧ domain = true then 2 else 1
  if natural = 0 then (0, false)
  else if tc = 0 then (if op = 2 ∧ urgentKey k = true ∧ more = false then (0, false) else (1, true))
  else (max natural tc, false)

/-- Places of a receive queue (R322). -/
def rxRoom (tc : Nat) : Nat := if tc = 1 then 64 else 16

/-- Drop a frame as invalid (R329). -/
def Mach.rxBad (m : Mach) (e : Nat) : Mach := m.count (K.NET_RX_BAD e)

/-- The slot of a session by its number and the source it is bound to (R334). -/
def Mach.slotOf (m : Mach) (e number addr udp : Nat) : Option Nat :=
  (List.range 4).find? (fun i => match m.session i with
    | some s => s.number == number && s.port == e && s.addr == addr && s.udp == udp
    | none => false)

/-- Queue a request; a full queue drops it, with event 0x2F8B at most once per second (R322). -/
def Mach.rxQueue (m : Mach) (e : Nat) (f : RxFrame) : Mach :=
  let q := m.net.rx.getD e []
  if rxRoom f.tc ≤ (q.filter (fun (x : RxFrame) => x.tc == f.tc)).length then
    let m := m.count (K.NET_RX_DROPS_TC0 e f.tc)
    let second := m.time / 1000000
    if m.net.rxEvent.any (fun (p : Nat × Nat × Nat) => p == (e, f.tc, second)) then m
    else
      let l := m.net.rxEvent.filter (fun (p : Nat × Nat × Nat) => !(p.1 == e && p.2.1 == f.tc))
      ({ m with net := { m.net with rxEvent := (e, f.tc, second) :: l } }).raise 0x2F8B [e, f.tc]
  else { m with net := { m.net with rx := m.net.rx.set e (q ++ [f]) } }

/-- A Hywex Link payload (R329, R330). Reserved bits that are set leave open whether the frame is taken, and its payload. -/
def Mach.rxHywex (m : Mach) (e addr udp : Nat) (p : List Byte) : Mach :=
  if !(hwxValid p) || !(m.hwxAllowed addr) then m.rxBad e
  else
    let (d, m) := if hwxReserved p then m.freeBelow 2 else (1, m)
    if d = 0 then m.rxBad e
    else
      let more := bit (le p 11 1) 1
      let (payload, m) := if hwxReserved p then let (x, m) := m.freeBelow (256 ^ (p.length - 16)); (leBytes (p.length - 16) x, m) else (p.drop 16, m)
      let (tc, demoted) := hwxClass (le p 3 1) (le p 2 1 / 16 % 4) more payload
      let m := if demoted then m.count (K.NET_TC0_DEMOTED e) else m
      let m := match m.slotOf e (le p 6 2) addr udp with
        | some i => m.sessionSeen i
        | none => m
      m.rxQueue e { tc, op := le p 3 1, seq := le p 4 2, session := le p 6 2, more, addr, udp, payload }

/-- Whether a port takes frames: enabled, with a link, and the dictionary hosted. -/
def Mach.enOpen (m : Mach) (e : Nat) : Bool :=
  decide (e < 2) && m.reach true == .open_ && m.gb (K.NET_PORT_ENABLE e) && m.g (K.NET_LINK e) != 0

/-- ETH_FRAME_RECEIVED (R328-R330). -/
def execEthFrameReceived (en : Nat) (data : List Byte) (s : State) : Host.Outcome State Fault Refusal :=
  done s fun _ m =>
    if !(m.enOpen en) then m
    else
      match m.ethKind en data with
      | .bad => m.rxBad en
      | .other => m
      | .arp => m.emit (.ethOther en 0x0806 ((data.drop 22).take 10))
      | .echo d => m.emit (.ethOther en 0x0800 d)
      | .hywex addr udp p => m.rxHywex en addr udp p

/-! ### Serving a request, R322, R325, R334 -/

/-- The request a port serves next: TC0 before TC1 before TC2, each in order of arrival. -/
def Mach.rxNext (m : Mach) (e : Nat) : Option RxFrame :=
  let q := m.net.rx.getD e []
  match q.find? (fun (f : RxFrame) => f.tc == 0) with
  | some f => some f
  | none =>
    match q.find? (fun (f : RxFrame) => f.tc == 1) with
    | some f => some f
    | none => q.head?

/-- The request leaves its queue. -/
def Mach.rxPop (m : Mach) (e : Nat) (f : RxFrame) : Mach :=
  { m with net := { m.net with rx := m.net.rx.set e ((m.net.rx.getD e []).erase f) } }

/-- What a request answers: status, data, MORE; none for one that is answered later or not at all. -/
abbrev Answer := Option (Status × List Byte × Bool)

/-- Execute a request of an open session, not one already executed (R334); its response leaves before the events it causes
(R327), but for one answered after its events. -/
def Mach.request (m : Mach) (e : Nat) (f : RxFrame) (late : Bool) (run : Nat → Mach → Mach × Answer) : Mach :=
  let silent := decide (6 ≤ f.op ∧ f.op ≤ 8)
  match m.slotOf e f.session f.addr f.udp with
  | none => if silent then m else m.emit (.hywex 0 f.session f.op f.seq .noSession [] false)
  | some i =>
    match ((m.session i).bind (fun s => s.last.getD f.tc none)) with
    | some (q, o, r) =>
      if q = f.seq ∧ o = f.op then (match r with | some r => m.emit r | none => m)
      else serveNew m silent i
    | none => serveNew m silent i
where
  serveNew (m : Mach) (silent : Bool) (i : Nat) : Mach :=
    let note := fun (m : Mach) (r : Option Out) =>
      { m with net := { m.net with sessions := m.net.sessions.modify i (fun (s : Option Session) =>
        s.map (fun (x : Session) => { x with last := x.last.set f.tc (some (f.seq, f.op, r)) })) } }
    let number := ((m.session i).map Session.number).getD 0
    let m1 := note m none
    let (m2, a) := run i m1
    match a with
    | none => m2
    | some (st, data, more) =>
      if silent then m2
      else
        let r := Out.hywex (i + 1) number f.op f.seq st data more
        let evs := m2.out.drop m1.out.length
        note { m2 with out := m1.out ++ (if late then evs ++ [r] else r :: evs) } (some r)

/-- Take a port's next request if it is of the operation, and run it. -/
def Mach.serve (m : Mach) (e op : Nat) (run : RxFrame → Mach → Mach) : Mach :=
  if !(m.enOpen e) then m
  else
    match m.rxNext e with
    | some f => if f.op = op then run f (m.rxPop e f) else m
    | none => m

/-! ### Object access, R332 -/

/-- INDEX and SUB, OFFSET, COUNT of a payload. -/
def payKey (p : List Byte) : Nat := le p 0 2 * 256 + le p 2 1
def payOffset (p : List Byte) : Nat := le p 4 4
def payCount (p : List Byte) : Nat := le p 8 2

/-- READ: a DOMAIN in parts of the frame limit from OFFSET on; anything else whole. -/
def Mach.hwxRead (x : Mem) (e : Nat) (f : RxFrame) (corr : List Nat) (m : Mach) : Mach × Answer :=
  let p := f.payload
  let k := payKey p
  let most := m.frameLimit e - 28
  if p.length < 12 then (m, some (.length, [], false))
  else
    let n := min (payCount p) most
    if (canWindow k).isSome then
      let (m, st, bs) := m.readObj x k n corr
      (m, some (st, bs, decide (most < payCount p)))
    else
      let (m', st, bs) := m.readObj x k n corr
      if st ≠ .ok then (m', some (st, [], false))
      else
        let domain := match objRow k with
          | some r => r.ty.isDomain
          | none => false
        if domain then
          let part := (bs.drop (payOffset p)).take n
          ((if payOffset p + part.length < bs.length then m else m'), some (.ok, part, decide (payOffset p + part.length < bs.length)))
        else if payOffset p ≠ 0 then (m, some (.range, [], false))
        else if payCount p < bs.length then (m, some (.length, [], false))
        else (m', some (.ok, bs, false))

/-- HWX_READ (R332). -/
def execHwxRead (en : Nat) (corr : List Nat) (s : State) : Host.Outcome State Fault Refusal :=
  done s fun x m => m.serve en 1 (fun f m => m.request en f false (fun _ m => m.hwxRead x en f corr))

/-- The DOMAIN write a session has in progress. -/
def Mach.setDomain (m : Mach) (i : Nat) (d : Option (Nat × List Byte)) : Mach :=
  { m with net := { m.net with sessions := m.net.sessions.modify i (fun (s : Option Session) => s.map (fun (x : Session) => { x with domain := d })) } }

/-- Whether more bytes have come than a type holds. -/
def ObjTy.over (t : ObjTy) (n : Nat) : Bool :=
  match t with
  | .domVar c => decide (c < n)
  | t => match t.size with
    | some c => decide (c < n)
    | none => false

/-- A write with its four data bytes of answer. -/
def Mach.hwxStore (x : Mem) (i : Nat) (f : RxFrame) (k : Nat) (bs : List Byte) (m : Mach) : Mach × Answer :=
  match m.writeObj x (.hywex i f.tc f.op f.seq) k bs with
  | (m, none) => (m, none)
  | (m, some st) => (m, some (st, m.writeAnswer k bs, false))

/-- WRITE: one value, or a segment of a DOMAIN (R332). -/
def Mach.hwxWrite (x : Mem) (i : Nat) (f : RxFrame) (m : Mach) : Mach × Answer :=
  let p := f.payload
  let k := payKey p
  let data := p.drop 12
  let no := fun (st : Status) => (m, some (st, leBytes 4 0, false))
  let ends := (m.setDomain i none, some (Status.length, leBytes 4 0, false))
  if p.length < 12 ∨ data.length ≠ payCount p then no .length
  else if m.reach (urgentKey k) ≠ .open_ then no .unavailable
  else if m.objStatus k ≠ .ok then no (m.objStatus k)
  else
    match objRow k with
    | none => no .noSub
    | some r =>
      if !r.acc.writable then no .readOnly
      else if !r.ty.isDomain then
        (if payOffset p ≠ 0 then no .range
         else if f.more then no .length
         else m.hwxStore x i f k data)
      else
        let before := if payOffset p = 0 then some [] else
          match (m.session i).bind Session.domain with
          | some (k', bs) => if k' = k ∧ bs.length = payOffset p then some bs else none
          | none => none
        match before with
        | none => ends
        | some bs =>
          let all := bs ++ data
          if r.ty.over all.length then ends
          else if f.more then (m.setDomain i (some (k, all)), some (.ok, leBytes 4 0, false))
          else (m.setDomain i none).hwxStore x i f k all

/-- HWX_WRITE (R332). -/
def execHwxWrite (en : Nat) (s : State) : Host.Outcome State Fault Refusal :=
  done s fun x m => m.serve en 2 (fun f m =>
    m.request en f (answersLate (payKey f.payload) (f.payload.drop 12)) (fun i m => m.hwxWrite x i f))

/-! ### Memory windows, R333 -/

/-- MEM_READ (R333). corr lists the bit corrections of the flash segments read, in ascending order. -/
def execMemRead (en : Nat) (corr : List Nat) (s : State) : Host.Outcome State Fault Refusal :=
  done s fun x m => m.serve en 3 (fun f m => m.request en f false (fun _ m =>
    let p := f.payload
    if p.length < 12 then (m, some (.length, [], false))
    else if m.reach false ≠ .open_ then (m, some (.unavailable, [], false))
    else if m.frameLimit en - 28 < payCount p then (m, some (.range, [], false))
    else
      let (m, st, bs) := m.memRead x (le p 0 1) (payOffset p) (payCount p) corr
      (m, some (st, bs, false))))

/-- MEM_WRITE (R333). -/
def execMemWrite (en : Nat) (s : State) : Host.Outcome State Fault Refusal :=
  done s fun _ m => m.serve en 4 (fun f m => m.request en f false (fun _ m =>
    let p := f.payload
    let data := p.drop 12
    if p.length < 12 ∨ data.length ≠ payCount p then (m, some (.length, [], false))
    else if m.reach false ≠ .open_ then (m, some (.unavailable, [], false))
    else if m.frameLimit en - 28 < payCount p then (m, some (.range, [], false))
    else
      let (m, st) := m.memWrite (le p 0 1) (payOffset p) data
      (m, some (st, [], false))))

/-! ### Events, R335 -/

/-- EVENT_ACK (R335): every record up to the SEQ it names leaves the session's queue. -/
def execEventAck (en : Nat) (s : State) : Host.Outcome State Fault Refusal :=
  done s fun _ m => m.serve en 6 (fun f m => m.request en f false (fun i m =>
    if f.payload.length < 4 then (m, none)
    else
      ({ m with ev := { m.ev with slots := m.ev.slots.modify i (fun (c : Consumer) =>
        { c with queue := c.queue.filter (fun r => decide (le f.payload 0 4 < r.seq)) }) } }, none)))

/-- Send again the TC0 records of a slot that wait for their acknowledgement, each at most 8 times, up to 16 to a frame. -/
def Mach.retrySlot (m : Mach) (i : Nat) : Mach :=
  let again := fun (r : EvRec) => (!r.tc1 || r.promoted) && decide (1 ≤ r.sent ∧ r.sent < 9)
    && decide (r.lastSent + 1000 * m.g K.NET_EV_RETRY ≤ m.time)
  let c := m.ev.slots.getD i {}
  let frames := chunks 16 16 ((c.queue.filter again).map EvRec.seq)
  let q := c.queue.map (fun r => if again r then { r with sent := r.sent + 1, lastSent := m.time } else r)
  frames.foldl (fun m u => m.emit (.eventFrame (i + 1) u))
    { m with ev := { m.ev with slots := m.ev.slots.set i { c with queue := q } } }

/-- EVENT_RETRY (R335). -/
def execEventRetry (s : State) : Host.Outcome State Fault Refusal :=
  done s fun _ m => upto 4 m (fun m i => if (m.session i).isSome then m.retrySlot i else m)

/-- EVENT_GATHER_END (R335): the gatherings begun 1 ms ago end. -/
def execEventGatherEnd (s : State) : Host.Outcome State Fault Refusal :=
  done s fun _ m => upto 4 m (fun m i =>
    match (m.ev.slots.getD i {}).gather with
    | some t => if t + 1000 ≤ m.time then m.sendGathered i else m
    | none => m)

/-! ### Sessions, R334, R342 -/

/-- A session number that is not in use, from the next on; k bounds the search. -/
def Mach.freeNumber (m : Mach) : Nat → Nat → Nat
  | 0, n => n
  | k + 1, n =>
    if n = 0 ∨ 0xFFFF < n then m.freeNumber k 1
    else if m.net.sessions.any (fun o => match o with | some (s : Session) => s.number == n | none => false) then m.freeNumber k (n + 1)
    else n

/-- OPEN (R334). -/
def execOpen (en : Nat) (s : State) : Host.Outcome State Fault Refusal :=
  done s fun _ m => m.serve en 9 (fun f m =>
    let p := f.payload
    let answer := fun (slot number : Nat) (st : Status) => Out.hywex slot number 9 f.seq st [] false
    if m.reach false ≠ .open_ then m.emit (answer 0 0 .unavailable)
    else if p.length < 4 then m.emit (answer 0 0 .length)
    else
      match (List.range 4).find? (fun i => (m.session i).isNone) with
      | none => m.emit (answer 0 0 .state)
      | some i =>
        let n := m.freeNumber 6 m.net.nextSession
        let x : Session := { number := n, port := en, addr := f.addr, udp := f.udp, timeout := le p 0 2, mask := le p 2 1
                             pd := bit (le p 3 1) 0, lastSeen := m.time }
        let m := ({ m with net := { m.net with sessions := m.net.sessions.set i (some x), nextSession := n % 0xFFFF + 1 }
                           ev := { m.ev with slots := m.ev.slots.set i {} } }).emit (answer (i + 1) n .ok)
        let m := m.raise 0x2F83 [n, i + 1, en]
        let m := m.partnerFound dscHost (i + 1) f.addr f.udp
        let m := match m.partnerFind dscHost (i + 1) f.addr f.udp with
          | some e => m.put (K.DSC_PARTNER e) (setFld (m.partner e) 0x0C 4 n)
          | none => m
        if x.timeout = 0 then m else m.hostSeen)

/-- CLOSE (R334). -/
def execClose (en : Nat) (s : State) : Host.Outcome State Fault Refusal :=
  done s fun _ m => m.serve en 10 (fun f m => m.request en f false (fun i m =>
    if m.reach false ≠ .open_ then (m, some (.unavailable, [], false))
    else (m.endSession i 1, some (.ok, [], false))))

/-- HEARTBEAT (R342): the host of a session with a timeout is seen. -/
def execHeartbeat (en : Nat) (s : State) : Host.Outcome State Fault Refusal :=
  done s fun _ m => m.serve en 7 (fun f m => m.request en f false (fun i m =>
    ((match m.session i with
      | some x => if x.timeout = 0 then m else m.hostSeen
      | none => m), none)))

/-- STATE of the heartbeats (R342); the spec gives none for recovery mode. -/
def Mach.hbState (m : Mach) : Nat × Mach :=
  match m.sup with
  | .ready => (1, m) | .restarting => (2, m) | .swapping => (2, m) | .recovery => m.freeBelow 3 | _ => (0, m)

/-- HEARTBEAT_SEND (R342): every NET_HB_PERIOD to every session. -/
def execHeartbeatSend (s : State) : Host.Outcome State Fault Refusal :=
  done s fun _ m =>
    if m.reach true ≠ .open_ ∨ m.time < m.net.hbSent + 1000 * m.g K.NET_HB_PERIOD then m
    else
      let (st, m) := m.hbState
      let m := { m with net := { m.net with hbSent := m.time } }
      upto 4 m (fun m i => if (m.session i).isSome then m.emit (.heartbeat (i + 1) st m.ev.seq m.time) else m)

/-- SESSION_TIMEOUT (R342, R343): not judged while the supervisor restarts (R346). -/
def execSessionTimeout (slot : Nat) (s : State) : Host.Outcome State Fault Refusal :=
  done s fun _ m =>
    match m.session slot with
    | none => m
    | some x =>
      if x.timeout = 0 ∨ m.time < x.lastSeen + 1000 * x.timeout ∨ m.dictUp = false then m
      else (m.endSession slot 2).hostLoss

/-! ### Ports, R328, R334, R347 -/

/-- ETH_LINK_CHANGE (R334): 0 down, 1 10, 2 100, 3 1,000 Mbit/s. A disabled port has no link. -/
def execEthLinkChange (en speed : Nat) (s : State) : Host.Outcome State Fault Refusal :=
  done s fun _ m => if m.reach true = .open_ ∧ m.gb (K.NET_PORT_ENABLE en) = true then m.setLink en speed else m

/-- ETH_ADDRESS_ASSIGNED (R328): DHCP assigns an address, or 0 where it is lost. -/
def execEthAddressAssigned (en addr : Nat) (s : State) : Host.Outcome State Fault Refusal :=
  done s fun _ m =>
    if m.reach true ≠ .open_ ∨ m.gb (K.NET_PORT_ENABLE en) = false ∨ m.enDhcp en = false then m
    else
      let m := (m.put (K.NET_IP_ADDR en) addr)
      (({ m with net := { m.net with enAddr := m.net.enAddr.set en (addr != 0) } }).raise 0x2F82 [en]).enRefresh en

/-- NET_PORT_ENABLE (R347). -/
def execNetPortEnable (en v : Nat) (s : State) : Host.Outcome State Fault Refusal :=
  done s fun _ m => m.hostWrite (K.NET_PORT_ENABLE en) (leBytes 1 v) (wPortEnable en)

/-- NET_STOP_ALL (R321). -/
def execNetStopAll (v : Nat) (s : State) : Host.Outcome State Fault Refusal :=
  done s fun _ m => m.hostWrite K.NET_STOP_ALL (leBytes 1 v) (onOne Mach.stopAll)

end Sys2Proof.Machine
end

