-- ==== Sys2Proof/Machine/Can.lean ====
section
/-! DEFINITION. CANopen on CF0 and CF1, process data, heartbeats and PTP (R336-R345). -/

namespace Sys2Proof.Machine

open Sys2Proof

/-- Whether a CAN port takes messages: hosted and not in bus off. -/
def Mach.canOpen (m : Mach) (p : Nat) : Bool := m.reach true == .open_ && m.g (K.NET_CAN_STATE p) != 2

/-! ### Process data, R341 -/

/-- Cut the data of a PDO into the pieces of its entries. -/
def pieces : List Nat → List Byte → List (Nat × List Byte)
  | [], _ => []
  | e :: es, bs => (entryKey e, bs.take (entryBytes e)) :: pieces es (bs.drop (entryBytes e))

/-- An RPDO: writes of its entries in mapping order; a refused entry is skipped, counted and reported with its place. Data that
do not fill the mapping are not processed. -/
def Mach.rpdoRun (x : Mem) (n : Nat) (bs : List Byte) (m : Mach) : Mach :=
  let es := m.pdoEntries n
  if bs.length < (es.map entryBytes).foldl (· + ·) 0 then m
  else
    (enumFrom 0 (pieces es bs)).foldl (fun m (q : Nat × Nat × List Byte) =>
      let (m, st) := m.writeObj x .quiet q.2.1 q.2.2
      match st with
      | none => m
      | some .ok => m
      | some _ => (m.count K.NET_PD_REFUSED).raise 0x2F8D [n + 1, q.1 + 1]) m

/-- The data of a TPDO: its entries sampled now. -/
def Mach.tpdoData (m : Mach) (n : Nat) : List Byte :=
  (m.pdoEntries (8 + n)).flatMap (fun e => leBytes (entryBytes e) (Mach.view (entryKey e) m))

/-- Send a TPDO on CF0 while it is Operational, and to the sessions that asked for process data, as its route says. -/
def Mach.tpdoSend (m : Mach) (n : Nat) (cf0 hwx : Bool) : Mach :=
  let bs := m.tpdoData n
  let route := m.pdoRoute (8 + n)
  let m := { m with net := { m.net with
    tpdoLast := m.net.tpdoLast.set n m.time
    tpdoSent := if cf0 then m.net.tpdoSent.set n (some bs) else m.net.tpdoSent
    tpdoHwx := if hwx then m.net.tpdoHwx.set n (some bs) else m.net.tpdoHwx } }
  let m := if cf0 && route != 1 && m.net.nmt == .operational then m.canSend 0 (m.g (pdoCob (8 + n)) % 2 ^ 29) bs else m
  if hwx && route != 0 then
    upto 4 m (fun m i => match m.session i with
      | some s => if s.pd then m.emit (.pdFrame (i + 1) (8 + n) bs) else m
      | none => m)
  else m

/-- Whether a TPDO's inhibit time (100 µs units) has passed. -/
def Mach.tpdoFree (m : Mach) (n : Nat) : Bool := decide (m.net.tpdoLast.getD n 0 + 100 * m.g (K.CIA_TPDO_INHIBIT n) ≤ m.time)

/-- The event of a TPDO: a mapped value differs from what was last sent that way, on CF0 for types 254 and 255 and on Hywex Link for every
type. The first look only takes the values. -/
def Mach.tpdoWatch (m : Mach) (n : Nat) : Mach :=
  if !(m.pdoOn (8 + n)) then m
  else
    let now := m.tpdoData n
    let changed (o : Option (List Byte)) : Bool := match o with | some old => old != now | none => false
    let seen (o : Option (List Byte)) : Option (List Byte) := some (o.getD now)
    let cf0 := changed (m.net.tpdoSent.getD n none) && decide (254 ≤ m.g (K.CIA_TPDO_TYPE n)) && m.net.nmt == .operational && m.pdoRoute (8 + n) != 1
    let hwx := changed (m.net.tpdoHwx.getD n none) && m.pdoRoute (8 + n) != 0
    let m := { m with net := { m.net with
      tpdoSent := m.net.tpdoSent.set n (seen (m.net.tpdoSent.getD n none)), tpdoHwx := m.net.tpdoHwx.set n (seen (m.net.tpdoHwx.getD n none)) } }
    if (cf0 || hwx) && m.tpdoFree n then m.tpdoSend n cf0 hwx else m

/-- What the network does as time goes on: events of TPDOs, EMCY messages whose inhibit time has passed. -/
def Mach.netTick (m : Mach) : Mach := if m.dictUp then (upto 8 m (fun m n => m.tpdoWatch n)).sendEmcy else m.sendEmcy

/-- PD (R341): an RPDO over Hywex Link, executed at once. -/
def execPd (en : Nat) (s : State) : Host.Outcome State Fault Refusal :=
  done s fun x m => m.serve en 8 (fun f m => m.request en f false (fun i m =>
    let n := le f.payload 0 1
    let len := le f.payload 1 1
    let asked := match m.session i with
      | some x => x.pd
      | none => false
    if !asked || decide (8 ≤ n) || decide (64 < len) || f.payload.length != 4 + len || !(m.pdoOn n) || m.pdoRoute n != 1 then (m, none)
    else (m.rpdoRun x n (f.payload.drop 4), none)))

/-- RPDO (R341): on CF0 while it is Operational; one of a synchronous type waits for the next SYNC. -/
def execRpdo (n : Nat) (data : List Byte) (s : State) : Host.Outcome State Fault Refusal :=
  done s fun x m =>
    if !(m.canOpen 0) || m.net.nmt != .operational || !(m.pdoOn n) || m.pdoRoute n != 0 || decide (m.pdoLimit n < data.length) then m
    else if m.g (K.CIA_RPDO_TYPE n) ≤ 240 then { m with net := { m.net with rpdoHeld := m.net.rpdoHeld.set n (some data) } }
    else m.rpdoRun x n data

/-- SYNC (R341): synchronous RPDOs are executed, then each TPDO of type 1-240 is sent at its SYNC, and one of type 0 if its event
has occurred. -/
def execSync (s : State) : Host.Outcome State Fault Refusal :=
  done s fun x m =>
    if !(m.canOpen 0) || m.net.nmt != .operational then m
    else
      let m := upto 8 m (fun m n =>
        match m.net.rpdoHeld.getD n none with
        | none => m
        | some bs => ({ m with net := { m.net with rpdoHeld := m.net.rpdoHeld.set n none } }).rpdoRun x n bs)
      upto 8 m (fun m n =>
        let ty := m.g (K.CIA_TPDO_TYPE n)
        if !(m.pdoOn (8 + n)) || m.pdoRoute (8 + n) == 1 then m
        else if ty = 0 then
          (if m.net.tpdoSent.getD n none == some (m.tpdoData n) then m else m.tpdoSend n true false)
        else if ty ≤ 240 then
          let c := m.net.syncCount.getD n 0 + 1
          let m := { m with net := { m.net with syncCount := m.net.syncCount.set n (if ty ≤ c then 0 else c) } }
          if ty ≤ c then m.tpdoSend n true false else m
        else m)

/-- TPDO_EVENT_TIMER (R341): on CF0 for types 254 and 255, on Hywex Link for every type. -/
def execTpdoEventTimer (n : Nat) (s : State) : Host.Outcome State Fault Refusal :=
  done s fun _ m =>
    let t := m.g (K.CIA_TPDO_EVENT n)
    if !m.dictUp || !(m.pdoOn (8 + n)) || t == 0 || decide (m.time < m.net.tpdoLast.getD n 0 + 1000 * t) then m
    else m.tpdoSend n (decide (254 ≤ m.g (K.CIA_TPDO_TYPE n))) true

/-! ### NMT, R339 -/

/-- A state of the CF0 node; PDOs that waited fall. -/
def Mach.setNmt (m : Mach) (x : Nmt) : Mach :=
  { m with net := { m.net with nmt := x, rpdoHeld := List.replicate 8 none, tpdoSent := List.replicate 8 none } }

/-- NMT_START (R339). -/
def execNmtStart (s : State) : Host.Outcome State Fault Refusal :=
  done s fun _ m => if m.canOpen 0 then m.setNmt .operational else m

/-- NMT_ENTER_PRE_OPERATIONAL (R339). -/
def execNmtEnterPreOperational (s : State) : Host.Outcome State Fault Refusal :=
  done s fun _ m => if m.canOpen 0 then m.setNmt .preOperational else m

/-- NMT_STOP (R339). -/
def execNmtStop (s : State) : Host.Outcome State Fault Refusal :=
  done s fun _ m => if m.canOpen 0 then m.setNmt .stopped else m

/-- NMT_RESET_COMMUNICATION (R339). -/
def execNmtResetCommunication (s : State) : Host.Outcome State Fault Refusal :=
  done s fun _ m => if m.canOpen 0 then m.cf0Start else m

/-- NMT_RESET_NODE (R339): a device reset, or a counted reset communication. -/
def execNmtResetNode (s : State) : Host.Outcome State Fault Refusal :=
  done s fun _ m =>
    if !(m.canOpen 0) then m
    else if m.gb (K.NET_NMT_RESET_ENABLE 0) then m.resetTo 2 0
    else (m.count (K.NET_NMT_RESET_IGNORED 0)).cf0Start

/-! ### SDO and USDO, TIME, R337, R345 -/

/-- Whether a port's SDO server answers: CF0's not while it is Stopped. -/
def Mach.sdoOpen (m : Mach) (p : Nat) : Bool := m.canOpen p && (p != 0 || m.net.nmt != .stopped)

/-- A transfer by SDO or USDO, whole: a download of data, or an upload of count bytes of memory or of the object's value. -/
def Mach.sdo (x : Mem) (p : Nat) (write : Bool) (k count : Nat) (data : List Byte) (corr : List Nat) (m : Mach) : Mach :=
  if !(m.sdoOpen p) then m
  else if write then
    let (m', st) := m.writeObj x (.sdo p) k data
    match st with
    | none => m'
    | some st =>
      let r := Out.sdo p st.abort (if st = .ok then m'.writeAnswer k data else [])
      let evs := m'.out.drop m.out.length
      { m' with out := m.out ++ (if answersLate k data then evs ++ [r] else r :: evs) }
  else
    let (m', st, bs) := m.readObj x k count corr
    { m' with out := m.out ++ Out.sdo p st.abort bs :: m'.out.drop m.out.length }

/-- SDO_TRANSFER (R337). -/
def execSdoTransfer (cf : Nat) (write : Bool) (index sub count : Nat) (data : List Byte) (corr : List Nat) (s : State) :
    Host.Outcome State Fault Refusal :=
  done s fun x m => m.sdo x cf write (index * 256 + sub) count data corr

/-- MEM_CAN_DATA (R347): a transfer of memory at MEM_CAN_OFFSET of a window. -/
def execMemCanData (cf win : Nat) (write : Bool) (count : Nat) (data : List Byte) (corr : List Nat) (s : State) :
    Host.Outcome State Fault Refusal :=
  done s fun x m => m.sdo x cf write (K.MEM_CAN_DATA win) count data corr

/-- TIME_MESSAGE (R345): stored, and nothing else. -/
def execTimeMessage (data : List Byte) (s : State) : Host.Outcome State Fault Refusal :=
  done s fun _ m => if m.sdoOpen 0 then m.put (K.NET_CAN_TIME 0) (ofLe (data.take 6)) else m

/-! ### Error states of the ports, R347 -/

/-- Readiness of a port after a change of its error state. -/
def Mach.canRefresh (m : Mach) (p : Nat) : Mach := if p = 0 then m.cf0Refresh else m.cf1Refresh

/-- An error state of a port: event 0x2F88 on a change, 0x2F89 on entry into bus off. -/
def Mach.setCanState (m : Mach) (p st : Nat) : Mach :=
  if m.g (K.NET_CAN_STATE p) = st then m
  else
    let m := (m.put (K.NET_CAN_STATE p) st).raise 0x2F88 [p, st]
    let m := if st = 2 then { m with net := { m.net with recover := m.net.recover.set p false } }.raise 0x2F89 [p] else m
    m.canRefresh p

/-- CAN_ERROR_STATE_CHANGE (R347): 0 error active, 1 error passive, 2 bus off, with the error counters. Bus off is left only by its
recovery. -/
def execCanErrorStateChange (cf st tec rec_ : Nat) (s : State) : Host.Outcome State Fault Refusal :=
  done s fun _ m =>
    if m.reach true ≠ .open_ ∨ m.g (K.NET_CAN_STATE cf) = 2 then m
    else (m.put (K.NET_CAN_ERR cf) (tec % 256 + 256 * (rec_ % 256))).setCanState cf st

/-- BUS_OFF_RECOVERY (R347): 128 times 11 recessive bits have passed; automatically, or after NET_CAN_RECOVER. -/
def execBusOffRecovery (cf : Nat) (s : State) : Host.Outcome State Fault Refusal :=
  done s fun _ m =>
    if m.g (K.NET_CAN_STATE cf) = 2 ∧ (m.gb (K.NET_CAN_AUTO_RECOVER cf) = true ∨ m.net.recover.getD cf false = true) then
      ((m.put (K.NET_CAN_ERR cf) 0).setCanState cf 0).sendEmcy
    else m

/-- NET_CAN_RECOVER (R347). -/
def execNetCanRecover (cf v : Nat) (s : State) : Host.Outcome State Fault Refusal :=
  done s fun _ m => m.hostWrite (K.NET_CAN_RECOVER cf) (leBytes 1 v) (onOne (fun m => m.canRecover cf))

/-- NET_CAN_RESTART (R338). -/
def execNetCanRestart (cf v : Nat) (s : State) : Host.Outcome State Fault Refusal :=
  done s fun _ m => m.hostWrite (K.NET_CAN_RESTART cf) (leBytes 1 v) (onOne (fun m => m.canRestart cf))

/-- EV_CAN_ACK (R340). -/
def execEvCanAck (v : Nat) (s : State) : Host.Outcome State Fault Refusal :=
  done s fun _ m => m.hostWrite K.EV_CAN_ACK (leBytes 4 v) wCanAck

/-! ### Heartbeats, R342, R343 -/

/-- The state byte of a CANopen heartbeat. -/
def Nmt.code : Nmt → Nat
  | .preOperational => 0x7F | .operational => 5 | .stopped => 4

/-- CAN_HEARTBEAT_SEND (R342): every period of 0x1017, on CF0 and on CF1; which state the manager's own node shows on CF1 is not
stated. -/
def execCanHeartbeatSend (s : State) : Host.Outcome State Fault Refusal :=
  done s fun _ m =>
    let t := m.g K.CIA_HB_PRODUCER
    if m.reach true ≠ .open_ ∨ t = 0 ∨ m.time < m.net.canHbLast + 1000 * t then m
    else
      let m := { m with net := { m.net with canHbLast := m.time } }
      let m := m.canSend 0 (0x700 + m.h (K.NET_CAN_NODE 0)) (leBytes 1 m.net.nmt.code)
      let (c, m) := m.freeBelow 3
      m.canSend 1 (0x700 + m.h (K.NET_CAN_NODE 1)) (leBytes 1 ([0x7F, 5, 4].getD c 5))

/-- HOST_HEARTBEAT_LAPSE (R343): the host of the first entry of 0x1016. -/
def execHostHeartbeatLapse (s : State) : Host.Outcome State Fault Refusal :=
  done s fun _ m =>
    match m.net.hbLast with
    | none => m
    | some t =>
      if m.cfHostSet = false ∨ m.net.hbLapsed = true ∨ m.time < t + 1000 * m.cfHostTime then m
      else (({ m with net := { m.net with hbLapsed := true } }).partnerLost dscHost 0 0 0).hostLoss

/-- CF0_HOST_HEARTBEAT (R343, R357). -/
def execCf0HostHeartbeat (s : State) : Host.Outcome State Fault Refusal :=
  done s fun _ m =>
    if m.canOpen 0 = false ∨ m.cfHostSet = false then m
    else (({ m with net := { m.net with hbLast := some m.time, hbLapsed := false } }).partnerFound dscHost 0 0 0).hostSeen

/-! ### PTP, R344, R345 -/

/-- Whether device time may step forward: no item in flight, every axis DISABLED, IDLE or STOPPED. -/
def Mach.mayStep (m : Mach) : Bool :=
  !(m.items.any Item.inFlight) && (List.range m.nAxes).all (fun n => [axDisabled, axIdle, axStopped].contains (m.axState n))

/-- Device time moved forward by a number of ns, with its fraction. -/
def Mach.stepTime (m : Mach) (ns : Nat) : Mach :=
  let t := m.time * 2 ^ 32 + m.net.timeFrac + ns * 2 ^ 32 / 1000
  { m with time := t / 2 ^ 32, net := { m.net with timeFrac := t % 2 ^ 32 } }

/-- PTP_MESSAGE (R344, R345): an Announce of a master, or (sync) the end of a delay request-response exchange with the offset it
gives, in ns, device time less master. A large offset behind the master is removed by one forward step where nothing runs; else the
rate applied is the discipline's own, at most 500 ppm. -/
def execPtpMessage (en domain : Nat) (sync : Bool) (offset : Int) (s : State) : Host.Outcome State Fault Refusal :=
  done s fun _ m =>
    let st := m.g K.NET_PTP_STATE
    if m.reach true ≠ .open_ ∨ m.gb K.NET_PTP_ENABLE = false ∨ m.h K.NET_PTP_PORT ≠ en ∨ m.h K.NET_PTP_DOMAIN ≠ domain then m
    else if !sync then (if st = 1 ∨ st = 4 then m.setPtp 2 else m)
    else if st ≠ 2 ∧ st ≠ 3 then m
    else
      let m := m.puti 32 K.NET_PTP_OFFSET (clampI (-2147483648) 2147483647 offset)
      let (d, m) := m.freeBelow 1000001
      let m := m.puti 32 K.NET_PTP_RATE ((d : Int) - 500000)
      let m := if offset < -(1000 * (m.g K.NET_PTP_STEP : Int)) ∧ m.mayStep = true then m.stepTime offset.natAbs else m
      m.setPtp (if offset.natAbs ≤ m.g K.NET_PTP_LOCK_TOL then 3 else 2)

/-- PTP_HOLDOVER (R345): three announce intervals missed; the last rate correction stays. -/
def execPtpHoldover (s : State) : Host.Outcome State Fault Refusal :=
  done s fun _ m => if m.g K.NET_PTP_STATE = 2 ∨ m.g K.NET_PTP_STATE = 3 then m.setPtp 4 else m

end Sys2Proof.Machine
end

