-- ==== Sys2Proof/Machine/Dispatch.lean ====
section
/-! DEFINITION. The one dispatch of commands to their meanings, arm by arm. -/

namespace Sys2Proof.Machine

open Sys2Proof

def exec (i : Instr) (s : State) : Host.Outcome State Fault Refusal :=
  match i with
  | .objectWrite index sub data => Sys2Proof.Machine.execObjectWrite index sub data s
  | .lockstepDisagree => Sys2Proof.Machine.execLockstepDisagree s
  | .supervisorReady => Sys2Proof.Machine.execSupervisorReady s
  | .itDefineAddr addr => Sys2Proof.Machine.execItDefineAddr addr s
  | .itDefineRecord data => Sys2Proof.Machine.execItDefineRecord data s
  | .itCancel id => Sys2Proof.Machine.execItCancel id s
  | .itRelease id => Sys2Proof.Machine.execItRelease id s
  | .itRetire id => Sys2Proof.Machine.execItRetire id s
  | .itStationHold st v => Sys2Proof.Machine.execItStationHold st v s
  | .itSelect id => Sys2Proof.Machine.execItSelect id s
  | .enterRendering => Sys2Proof.Machine.execEnterRendering s
  | .commit id => Sys2Proof.Machine.execCommit id s
  | .admission id => Sys2Proof.Machine.execAdmission id s
  | .enterPrinting id => Sys2Proof.Machine.execEnterPrinting id s
  | .itemDone id => Sys2Proof.Machine.execItemDone id s
  | .bandInjection => Sys2Proof.Machine.execBandInjection s
  | .bandComplete cl cv fault => Sys2Proof.Machine.execBandComplete cl cv fault s
  | .remoteStealAttempt cl cv => Sys2Proof.Machine.execRemoteStealAttempt cl cv s
  | .cloveHang cl cv => Sys2Proof.Machine.execCloveHang cl cv s
  | .cloveParityError cl cv => Sys2Proof.Machine.execCloveParityError cl cv s
  | .spareCloveInService cl => Sys2Proof.Machine.execSpareCloveInService cl s
  | .sramWordUncorrectable cl off => Sys2Proof.Machine.execSramWordUncorrectable cl off s
  | .kernelImageReloaded cl => Sys2Proof.Machine.execKernelImageReloaded cl s
  | .headroomRecompute rates => Sys2Proof.Machine.execHeadroomRecompute rates s
  | .clusterDrain cl => Sys2Proof.Machine.execClusterDrain cl s
  | .clusterDrained cl => Sys2Proof.Machine.execClusterDrained cl s
  | .clusterLoad cl => Sys2Proof.Machine.execClusterLoad cl s
  | .kernelLoadChecked cl => Sys2Proof.Machine.execKernelLoadChecked cl s
  | .clusterSelfTestDone cl failed => Sys2Proof.Machine.execClusterSelfTestDone cl failed s
  | .clusterResume cl => Sys2Proof.Machine.execClusterResume cl s
  | .rdGenSelect gen => Sys2Proof.Machine.execRdGenSelect gen s
  | .planningRoundEnd id => Sys2Proof.Machine.execPlanningRoundEnd id s
  | .renderInputWrite index sub data => Sys2Proof.Machine.execRenderInputWrite index sub data s
  | .hpTrimBounds hp upper v => Sys2Proof.Machine.execHpTrimBounds hp upper v s
  | .hpTrimUnfreeze hp v => Sys2Proof.Machine.execHpTrimUnfreeze hp v s
  | .hpPlanUnfreeze hp v => Sys2Proof.Machine.execHpPlanUnfreeze hp v s
  | .hpGainReset hp v => Sys2Proof.Machine.execHpGainReset hp v s
  | .gainBoundsWrite hp upper v => Sys2Proof.Machine.execGainBoundsWrite hp upper v s
  | .thermistorStale hp thm => Sys2Proof.Machine.execThermistorStale hp thm s
  | .hpMode hp v => Sys2Proof.Machine.execHpMode hp v s
  | .lineTrigger hp badWord => Sys2Proof.Machine.execLineTrigger hp badWord s
  | .encoderCountChange qe a b phase => Sys2Proof.Machine.execEncoderCountChange qe a b phase s
  | .pepperOnTimeTrip hp group => Sys2Proof.Machine.execPepperOnTimeTrip hp group s
  | .pepperDutyTrip hp group => Sys2Proof.Machine.execPepperDutyTrip hp group s
  | .hpPepperClear hp v => Sys2Proof.Machine.execHpPepperClear hp v s
  | .hpPepperDutyMax hp => Sys2Proof.Machine.execHpPepperDutyMax hp s
  | .headRemoved hp => Sys2Proof.Machine.execHeadRemoved hp s
  | .headPresentEdge hp => Sys2Proof.Machine.execHeadPresentEdge hp s
  | .headPowerEnable hp => Sys2Proof.Machine.execHeadPowerEnable hp s
  | .headIdReadStart hp => Sys2Proof.Machine.execHeadIdReadStart hp s
  | .headIdReadDone hp ack data => Sys2Proof.Machine.execHeadIdReadDone hp ack data s
  | .headIdReadRetry hp => Sys2Proof.Machine.execHeadIdReadRetry hp s
  | .thTandemRestore st v => Sys2Proof.Machine.execThTandemRestore st v s
  | .thConfigured st v => Sys2Proof.Machine.execThConfigured st v s
  | .scanStepStart hp => Sys2Proof.Machine.execScanStepStart hp s
  | .scanStepEnd hp => Sys2Proof.Machine.execScanStepEnd hp s
  | .hpDotRefTake hp v => Sys2Proof.Machine.execHpDotRefTake hp v s
  | .hpDotMap hp data => Sys2Proof.Machine.execHpDotMap hp data s
  | .dotHidingLimitsWrite hp which v => Sys2Proof.Machine.execDotHidingLimitsWrite hp which v s
  | .thCalItem v => Sys2Proof.Machine.execThCalItem v s
  | .thCalApply v => Sys2Proof.Machine.execThCalApply v s
  | .calLoad => Sys2Proof.Machine.execCalLoad s
  | .calSet => Sys2Proof.Machine.execCalSet s
  | .calStore => Sys2Proof.Machine.execCalStore s
  | .calSetThenStore => Sys2Proof.Machine.execCalSetThenStore s
  | .calStoreDone ok => Sys2Proof.Machine.execCalStoreDone ok s
  | .mediaAtRestReturn st => Sys2Proof.Machine.execMediaAtRestReturn st s
  | .seekLimit st => Sys2Proof.Machine.execSeekLimit st s
  | .thLearn st v => Sys2Proof.Machine.execThLearn st v s
  | .snsUnfreeze st ch v => Sys2Proof.Machine.execSnsUnfreeze st ch v s
  | .ribbonWindow st => Sys2Proof.Machine.execRibbonWindow st s
  | .cutStroke st => Sys2Proof.Machine.execCutStroke st s
  | .thCutTimeout st => Sys2Proof.Machine.execThCutTimeout st s
  | .presenterMoveDone st => Sys2Proof.Machine.execPresenterMoveDone st s
  | .thPresTimeout st => Sys2Proof.Machine.execThPresTimeout st s
  | .lsScanMode v => Sys2Proof.Machine.execLsScanMode v s
  | .scannerIdleStop => Sys2Proof.Machine.execScannerIdleStop s
  | .scannerAtLockSpeed => Sys2Proof.Machine.execScannerAtLockSpeed s
  | .sosEdge phase badWord => Sys2Proof.Machine.execSosEdge phase badWord s
  | .sosWindowMiss badWord => Sys2Proof.Machine.execSosWindowMiss badWord s
  | .sosSearchTimeout => Sys2Proof.Machine.execSosSearchTimeout s
  | .lockTimeout => Sys2Proof.Machine.execLockTimeout s
  | .slIndexPulse => Sys2Proof.Machine.execSlIndexPulse s
  | .eosEdge phase => Sys2Proof.Machine.execEosEdge phase s
  | .eosWindowEnd => Sys2Proof.Machine.execEosWindowEnd s
  | .interlockOpen => Sys2Proof.Machine.execInterlockOpen s
  | .interlockClosed => Sys2Proof.Machine.execInterlockClosed s
  | .lsIntlkReenable v => Sys2Proof.Machine.execLsIntlkReenable v s
  | .lsIntlkEnable v => Sys2Proof.Machine.execLsIntlkEnable v s
  | .lsPwrClear v => Sys2Proof.Machine.execLsPwrClear v s
  | .scannerStopped => Sys2Proof.Machine.execScannerStopped s
  | .lsProcMode v => Sys2Proof.Machine.execLsProcMode v s
  | .processIdleStop => Sys2Proof.Machine.execProcessIdleStop s
  | .processWarmupAdvance => Sys2Proof.Machine.execProcessWarmupAdvance s
  | .drumCleanEnd => Sys2Proof.Machine.execDrumCleanEnd s
  | .processStopComplete => Sys2Proof.Machine.execProcessStopComplete s
  | .hvUpdate => Sys2Proof.Machine.execHvUpdate s
  | .hvFault hv => Sys2Proof.Machine.execHvFault hv s
  | .zeroCross phase => Sys2Proof.Machine.execZeroCross phase s
  | .lsFusTripClear v => Sys2Proof.Machine.execLsFusTripClear v s
  | .heaterFault h => Sys2Proof.Machine.execHeaterFault h s
  | .mainsLost => Sys2Proof.Machine.execMainsLost s
  | .lsProcClear v => Sys2Proof.Machine.execLsProcClear v s
  | .pickStart => Sys2Proof.Machine.execPickStart s
  | .sheetAtGate => Sys2Proof.Machine.execSheetAtGate s
  | .gateRelease => Sys2Proof.Machine.execGateRelease s
  | .gateWaitExpired => Sys2Proof.Machine.execGateWaitExpired s
  | .rollerStart => Sys2Proof.Machine.execRollerStart s
  | .jamLate stage => Sys2Proof.Machine.execJamLate stage s
  | .jamStay stage => Sys2Proof.Machine.execJamStay stage s
  | .pickRetry => Sys2Proof.Machine.execPickRetry s
  | .lsJamClear v => Sys2Proof.Machine.execLsJamClear v s
  | .lsPurge v => Sys2Proof.Machine.execLsPurge v s
  | .purgeDone => Sys2Proof.Machine.execPurgeDone s
  | .axTableBase v => Sys2Proof.Machine.execAxTableBase v s
  | .axRefresh n => Sys2Proof.Machine.execAxRefresh n s
  | .planningTick => Sys2Proof.Machine.execPlanningTick s
  | .axEnable ax v fail delays => Sys2Proof.Machine.execAxEnable ax v fail delays s
  | .axTarget ax v => Sys2Proof.Machine.execAxTarget ax v s
  | .axSpeed ax v => Sys2Proof.Machine.execAxSpeed ax v s
  | .axAccel ax v => Sys2Proof.Machine.execAxAccel ax v s
  | .axDecel ax v => Sys2Proof.Machine.execAxDecel ax v s
  | .axJerk ax v => Sys2Proof.Machine.execAxJerk ax v s
  | .axVelocity ax v => Sys2Proof.Machine.execAxVelocity ax v s
  | .axCurrent ax v => Sys2Proof.Machine.execAxCurrent ax v s
  | .axFollow ax v => Sys2Proof.Machine.execAxFollow ax v s
  | .axHome ax v => Sys2Proof.Machine.execAxHome ax v s
  | .axHalt ax v => Sys2Proof.Machine.execAxHalt ax v s
  | .axStop ax v => Sys2Proof.Machine.execAxStop ax v s
  | .axClear ax v => Sys2Proof.Machine.execAxClear ax v s
  | .axGroup ax v => Sys2Proof.Machine.execAxGroup ax v s
  | .sgStart g v => Sys2Proof.Machine.execSgStart g v s
  | .senseInputEdge si high phase => Sys2Proof.Machine.execSenseInputEdge si high phase s
  | .qeIndex qe => Sys2Proof.Machine.execQeIndex qe s
  | .sdStep sd dir phase => Sys2Proof.Machine.execSdStep sd dir phase s
  | .stepperAddressUpdate => Sys2Proof.Machine.execStepperAddressUpdate s
  | .chopperComparator pp high phase => Sys2Proof.Machine.execChopperComparator pp high phase s
  | .maxOnExpired pp => Sys2Proof.Machine.execMaxOnExpired pp s
  | .cmpDelayMeasure pp d => Sys2Proof.Machine.execCmpDelayMeasure pp d s
  | .ppOfsUnfreeze pp v => Sys2Proof.Machine.execPpOfsUnfreeze pp v s
  | .phasePortFailed pp => Sys2Proof.Machine.execPhasePortFailed pp s
  | .standstill ax => Sys2Proof.Machine.execStandstill ax s
  | .dcLoopUpdate ax speed => Sys2Proof.Machine.execDcLoopUpdate ax speed s
  | .actuatorPullInEnd ax => Sys2Proof.Machine.execActuatorPullInEnd ax s
  | .pwmPeriod ax currents angle rpm => Sys2Proof.Machine.execPwmPeriod ax currents angle rpm s
  | .handoverTimeout ax => Sys2Proof.Machine.execHandoverTimeout ax s
  | .observerLost ax => Sys2Proof.Machine.execObserverLost ax s
  | .flyProbeEnd ax rpm => Sys2Proof.Machine.execFlyProbeEnd ax rpm s
  | .flyBrakeTimeout ax => Sys2Proof.Machine.execFlyBrakeTimeout ax s
  | .overCurrent pp => Sys2Proof.Machine.execOverCurrent pp s
  | .drvFltN g => Sys2Proof.Machine.execDrvFltN g s
  | .busLevelCrossing bus mv => Sys2Proof.Machine.execBusLevelCrossing bus mv s
  | .busOvCut bus => Sys2Proof.Machine.execBusOvCut bus s
  | .chopperFbTimeout bus => Sys2Proof.Machine.execChopperFbTimeout bus s
  | .chopperRiseCheck bus => Sys2Proof.Machine.execChopperRiseCheck bus s
  | .shortRelease ax => Sys2Proof.Machine.execShortRelease ax s
  | .busClear bus v => Sys2Proof.Machine.execBusClear bus v s
  | .busBrkClear bus v => Sys2Proof.Machine.execBusBrkClear bus v s
  | .busLevelWrite bus which v => Sys2Proof.Machine.execBusLevelWrite bus which v s
  | .busPeak bus => Sys2Proof.Machine.execBusPeak bus s
  | .cpEnable cp v => Sys2Proof.Machine.execCpEnable cp v s
  | .cameraProbe cp id => Sys2Proof.Machine.execCameraProbe cp id s
  | .cameraResetEnd cp => Sys2Proof.Machine.execCameraResetEnd cp s
  | .cpInitReplayDone cp fail => Sys2Proof.Machine.execCpInitReplayDone cp fail s
  | .frameTimeout cp => Sys2Proof.Machine.execFrameTimeout cp s
  | .cpRestart cp v => Sys2Proof.Machine.execCpRestart cp v s
  | .csi2FrameStart cp num vc ecc => Sys2Proof.Machine.execCsi2FrameStart cp num vc ecc s
  | .csi2LongPacket cp vc dt ecc crcBad pixels => Sys2Proof.Machine.execCsi2LongPacket cp vc dt ecc crcBad pixels s
  | .csi2FrameEnd cp vc ecc => Sys2Proof.Machine.execCsi2FrameEnd cp vc ecc s
  | .pipelineFrameStart ip => Sys2Proof.Machine.execPipelineFrameStart ip s
  | .pipelineFrameDone ip missing => Sys2Proof.Machine.execPipelineFrameDone ip missing s
  | .ipMode ip v => Sys2Proof.Machine.execIpMode ip v s
  | .ipCtxEnable ip v => Sys2Proof.Machine.execIpCtxEnable ip v s
  | .inCtxRecord ctx data => Sys2Proof.Machine.execInCtxRecord ctx data s
  | .inspectionTimeout id => Sys2Proof.Machine.execInspectionTimeout id s
  | .inGainUnfreeze hp v => Sys2Proof.Machine.execInGainUnfreeze hp v s
  | .cpBufPeak cp => Sys2Proof.Machine.execCpBufPeak cp s
  | .slotBoundary phase => Sys2Proof.Machine.execSlotBoundary phase s
  | .conversionComplete slice raw phase => Sys2Proof.Machine.execConversionComplete slice raw phase s
  | .calibrationRotation ofs gain => Sys2Proof.Machine.execCalibrationRotation ofs gain s
  | .resetCalibrationEnd ofs gain => Sys2Proof.Machine.execResetCalibrationEnd ofs gain s
  | .inServiceCheck => Sys2Proof.Machine.execInServiceCheck s
  | .sequenceEntryDue entry => Sys2Proof.Machine.execSequenceEntryDue entry s
  | .urgentRequest scan unit which chan phase window => Sys2Proof.Machine.execUrgentRequest scan unit which chan phase window s
  | .anSeqTable data => Sys2Proof.Machine.execAnSeqTable data s
  | .anChCfg ch v => Sys2Proof.Machine.execAnChCfg ch v s
  | .anAccFilter acc v => Sys2Proof.Machine.execAnAccFilter acc v s
  | .anAccReset acc v => Sys2Proof.Machine.execAnAccReset acc v s
  | .anMmReset mm v => Sys2Proof.Machine.execAnMmReset mm v s
  | .anMmMax mm => Sys2Proof.Machine.execAnMmMax mm s
  | .anSlUnfreeze sl v => Sys2Proof.Machine.execAnSlUnfreeze sl v s
  | .sliceBoundsWrite sl bound v => Sys2Proof.Machine.execSliceBoundsWrite sl bound v s
  | .converterPowerDown => Sys2Proof.Machine.execConverterPowerDown s
  | .ethFrameReceived en data => Sys2Proof.Machine.execEthFrameReceived en data s
  | .hwxRead en corr => Sys2Proof.Machine.execHwxRead en corr s
  | .hwxWrite en => Sys2Proof.Machine.execHwxWrite en s
  | .memRead en corr => Sys2Proof.Machine.execMemRead en corr s
  | .memWrite en => Sys2Proof.Machine.execMemWrite en s
  | .eventAck en => Sys2Proof.Machine.execEventAck en s
  | .heartbeat en => Sys2Proof.Machine.execHeartbeat en s
  | .pd en => Sys2Proof.Machine.execPd en s
  | .open en => Sys2Proof.Machine.execOpen en s
  | .close en => Sys2Proof.Machine.execClose en s
  | .netStopAll v => Sys2Proof.Machine.execNetStopAll v s
  | .eventRetry => Sys2Proof.Machine.execEventRetry s
  | .eventGatherEnd => Sys2Proof.Machine.execEventGatherEnd s
  | .heartbeatSend => Sys2Proof.Machine.execHeartbeatSend s
  | .sessionTimeout slot => Sys2Proof.Machine.execSessionTimeout slot s
  | .ethLinkChange en speed => Sys2Proof.Machine.execEthLinkChange en speed s
  | .ethAddressAssigned en addr => Sys2Proof.Machine.execEthAddressAssigned en addr s
  | .netPortEnable en v => Sys2Proof.Machine.execNetPortEnable en v s
  | .nmtStart => Sys2Proof.Machine.execNmtStart s
  | .nmtEnterPreOperational => Sys2Proof.Machine.execNmtEnterPreOperational s
  | .nmtStop => Sys2Proof.Machine.execNmtStop s
  | .nmtResetCommunication => Sys2Proof.Machine.execNmtResetCommunication s
  | .nmtResetNode => Sys2Proof.Machine.execNmtResetNode s
  | .sdoTransfer cf write index sub count data corr => Sys2Proof.Machine.execSdoTransfer cf write index sub count data corr s
  | .sync => Sys2Proof.Machine.execSync s
  | .timeMessage data => Sys2Proof.Machine.execTimeMessage data s
  | .rpdo n data => Sys2Proof.Machine.execRpdo n data s
  | .tpdoEventTimer n => Sys2Proof.Machine.execTpdoEventTimer n s
  | .canHeartbeatSend => Sys2Proof.Machine.execCanHeartbeatSend s
  | .hostHeartbeatLapse => Sys2Proof.Machine.execHostHeartbeatLapse s
  | .emcyReceived node data => Sys2Proof.Machine.execEmcyReceived node data s
  | .canErrorStateChange cf state tec rec => Sys2Proof.Machine.execCanErrorStateChange cf state tec rec s
  | .busOffRecovery cf => Sys2Proof.Machine.execBusOffRecovery cf s
  | .netCanRecover cf v => Sys2Proof.Machine.execNetCanRecover cf v s
  | .netCanRestart cf v => Sys2Proof.Machine.execNetCanRestart cf v s
  | .evCanAck v => Sys2Proof.Machine.execEvCanAck v s
  | .memCanData cf win write count data corr => Sys2Proof.Machine.execMemCanData cf win write count data corr s
  | .ptpMessage en domain sync offset => Sys2Proof.Machine.execPtpMessage en domain sync offset s
  | .ptpHoldover => Sys2Proof.Machine.execPtpHoldover s
  | .powerOn => Sys2Proof.Machine.execPowerOn s
  | .resetN lowNs => Sys2Proof.Machine.execResetN lowNs s
  | .resetRelease mv => Sys2Proof.Machine.execResetRelease mv s
  | .bootComplete => Sys2Proof.Machine.execBootComplete s
  | .dscClear v => Sys2Proof.Machine.execDscClear v s
  | .dscLssAssign v => Sys2Proof.Machine.execDscLssAssign v s
  | .lssAssignmentEnd result => Sys2Proof.Machine.execLssAssignmentEnd result s
  | .dscNmtAssign node v => Sys2Proof.Machine.execDscNmtAssign node v s
  | .nodeBootUp node => Sys2Proof.Machine.execNodeBootUp node s
  | .nodeHeartbeat node nmt => Sys2Proof.Machine.execNodeHeartbeat node nmt s
  | .nodeIdentifyResponse node vendor product revision serial => Sys2Proof.Machine.execNodeIdentifyResponse node vendor product revision serial s
  | .nodeIdentifyTimeout node => Sys2Proof.Machine.execNodeIdentifyTimeout node s
  | .nodeIdentifyRetry node => Sys2Proof.Machine.execNodeIdentifyRetry node s
  | .nmtBootTimeExpired => Sys2Proof.Machine.execNmtBootTimeExpired s
  | .nodeHeartbeatLapse node => Sys2Proof.Machine.execNodeHeartbeatLapse node s
  | .bankProgram => Sys2Proof.Machine.execBankProgram s
  | .bankProgramDone ok fails => Sys2Proof.Machine.execBankProgramDone ok fails s
  | .bankSwap => Sys2Proof.Machine.execBankSwap s
  | .bankConfirm => Sys2Proof.Machine.execBankConfirm s
  | .trialTimeout => Sys2Proof.Machine.execTrialTimeout s
  | .flashProgramDone seg => Sys2Proof.Machine.execFlashProgramDone seg s
  | .flashEraseDone fail => Sys2Proof.Machine.execFlashEraseDone fail s
  | .blockReplaced spareFails bad => Sys2Proof.Machine.execBlockReplaced spareFails bad s
  | .nvOpErase => Sys2Proof.Machine.execNvOpErase s
  | .nvOpProgram => Sys2Proof.Machine.execNvOpProgram s
  | .nvWpLo v => Sys2Proof.Machine.execNvWpLo v s
  | .nvWpHi v => Sys2Proof.Machine.execNvWpHi v s
  | .protLoad => Sys2Proof.Machine.execProtLoad s
  | .protStore => Sys2Proof.Machine.execProtStore s
  | .nvOtpCustomer data bad => Sys2Proof.Machine.execNvOtpCustomer data bad s
  | .nvAttestChallenge data => Sys2Proof.Machine.execNvAttestChallenge data s
  | .evLogRecord => Sys2Proof.Machine.execEvLogRecord s
  | .evLogClear v => Sys2Proof.Machine.execEvLogClear v s
  | .uaMode ua v => Sys2Proof.Machine.execUaMode ua v s
  | .uartCharacterReceived ua samples => Sys2Proof.Machine.execUartCharacterReceived ua samples s
  | .uartRingStore ua => Sys2Proof.Machine.execUartRingStore ua s
  | .uartCharacterSent ua cts => Sys2Proof.Machine.execUartCharacterSent ua cts s
  | .uaRate ua v => Sys2Proof.Machine.execUaRate ua v s
  | .uaDataBits ua v => Sys2Proof.Machine.execUaDataBits ua v s
  | .uaParity ua v => Sys2Proof.Machine.execUaParity ua v s
  | .uaStop ua v => Sys2Proof.Machine.execUaStop ua v s
  | .uaRlDiv ua v => Sys2Proof.Machine.execUaRlDiv ua v s
  | .uaRxRd ua v => Sys2Proof.Machine.execUaRxRd ua v s
  | .uaTxWr ua v cts => Sys2Proof.Machine.execUaTxWr ua v cts s
  | .uaTxBreak ua v => Sys2Proof.Machine.execUaTxBreak ua v s
  | .vmonWarning mv => Sys2Proof.Machine.execVmonWarning mv s
  | .vmonRecover mv => Sys2Proof.Machine.execVmonRecover mv s
  | .vmonWindowExpired => Sys2Proof.Machine.execVmonWindowExpired s
  | .vmonReset mv => Sys2Proof.Machine.execVmonReset mv s
  | .devVmonMin => Sys2Proof.Machine.execDevVmonMin s
  | .dieTempReading reading outOfRange => Sys2Proof.Machine.execDieTempReading reading outOfRange s
  | .sensorNoReading => Sys2Proof.Machine.execSensorNoReading s
  | .throttleGraceEnd => Sys2Proof.Machine.execThrottleGraceEnd s
  | .throttleRelease => Sys2Proof.Machine.execThrottleRelease s
  | .devThrottleForce v => Sys2Proof.Machine.execDevThrottleForce v s
  | .devShutdownClear v => Sys2Proof.Machine.execDevShutdownClear v s
  | .devTempPeak => Sys2Proof.Machine.execDevTempPeak s
  | .clockFailure cause => Sys2Proof.Machine.execClockFailure cause s
  | .powerEstimate rates => Sys2Proof.Machine.execPowerEstimate rates s
  | .cf0HostHeartbeat => Sys2Proof.Machine.execCf0HostHeartbeat s
  | .uartStartEdge ua sample => Sys2Proof.Machine.execUartStartEdge ua sample s
  | .uartCtsLow ua => Sys2Proof.Machine.execUartCtsLow ua s
  | .sosSearchResume => Sys2Proof.Machine.execSosSearchResume s
  | .powerLoss => Sys2Proof.Machine.execPowerLoss s

end Sys2Proof.Machine
end

