-- ==== Sys2Proof/Machine/Tick.lean ====
section
/-! DEFINITION. The block's clock: what one microsecond of device time does when no command waits (log entry 4), and where the
words of the opcode table would stand. -/

namespace Sys2Proof.Machine

open Sys2Proof

/-- One microsecond of device time (R344): the clock counts, a waiting sequence table takes force at its tick (R307), and
lines whose last strobe has ended are settled (R106); the pepper timers watch the strobes (R115); APC windows and shortest decay phases end (R189, R256); the network sends what has come due (R340, R341). -/
def Mach.micro (m : Mach) : Mach := ({ m with time := m.time + 1 }.anTick).settleLines.pepperTick.apcTick.chopTick.netTick

/-- What the block does on an empty queue. -/
def State.idle (s : State) : State := s.run (fun _ m => m.micro)

end Sys2Proof.Machine
end

