-- ==== Sys2Proof/Machine/Pins.lean ====
section
/-! DEFINITION. What the output balls carry (R427-R429, R436, R439): the reset state of each ball, and the level its function gives it
(R100, R102, R106, R115, R118 head ports; R168, R173, R175, R177, R186-R188, R198 laser station; R250, R256, R269 drives; R274, R287
cameras; R393, R399, R405 UARTs). Every level follows from the state; nothing here changes it (log entry 290). -/

namespace Sys2Proof.Machine

open Sys2Proof

/-- What a ball carries: released, held by its internal pull, a level, a PWM of a duty, the bits of a load with its clock, the
video edges put out for a sweep (Out.video), the character in progress, or the traffic of its interface. -/
inductive Level where
  | released | pullDown | pullUp | low | high
  | pwm (duty : Rat)
  | shift (bits : List Bool)
  | clock | video
  | frame (bits : Nat)
  | bus
  deriving DecidableEq, Repr

/-- The output balls of a head port (R100). -/
inductive HeadBall where
  | d (lane : Nat) | clk | ld (lane : Nat) | lck | lat | stb (n : Nat) | pwrEn | scl | sda
  deriving DecidableEq, Repr

/-- The output balls of the laser station (R168, R198). -/
inductive LaserBall where
  | vid (beam : Nat) | lden (beam : Nat) | apc (beam : Nat) | pref (beam : Nat) | hv (chan : Nat) | fus (heater : Nat)
  deriving DecidableEq, Repr

/-- The output balls (R427). -/
inductive Ball where
  | head (port : Nat) (b : HeadBall)
  | laser (b : LaserBall)
  | in1 (port : Nat) | in2 (port : Nat) | brk (bus : Nat)
  | camScl (port : Nat) | camSda (port : Nat) | camPwrEn (port : Nat) | camRstN (port : Nat) | camTrig (port : Nat)
  | txd (uart : Nat) | rtsN (uart : Nat)
  | canTx (port : Nat)
  | ethOut (port : Nat) | phyRstN (port : Nat) | mdc | mdio
  | tdo
  deriving DecidableEq, Repr

/-- The reset state of a ball (R427, R439). -/
def Ball.resetLevel : Ball → Level
  | .head _ b => match b with
    | .d _ => .pullDown | .clk => .pullDown | .lat => .pullDown | .stb _ => .pullDown | .pwrEn => .pullDown
    | .ld _ => .released | .lck => .released | .scl => .released | .sda => .released
  | .laser b => match b with
    | .vid _ => .released
    | .lden _ => .low | .apc _ => .low | .pref _ => .low | .hv _ => .low | .fus _ => .low
  | .in1 _ => .low | .in2 _ => .low | .brk _ => .low
  | .camScl _ => .released | .camSda _ => .released | .camPwrEn _ => .low | .camRstN _ => .low | .camTrig _ => .low
  | .txd _ => .pullUp | .rtsN _ => .pullUp | .canTx _ => .pullUp
  | .ethOut _ => .low | .phyRstN _ => .low | .mdc => .low | .mdio => .released
  | .tdo => .released

/-- Whether a ball belongs to a unit of the variant (R3, R4). -/
def Mach.ballPresent (m : Mach) : Ball → Bool
  | .head h _ => decide (h < m.nHeads)
  | .laser _ => m.hasSL
  | .in1 p => decide (p < m.nPhasePorts)
  | .in2 p => decide (p < m.nPhasePorts)
  | .camScl p => decide (p < m.nCameras)
  | .camSda p => decide (p < m.nCameras)
  | .camPwrEn p => decide (p < m.nCameras)
  | .camRstN p => decide (p < m.nCameras)
  | .camTrig p => decide (p < m.nCameras)
  | .brk _ => true | .txd _ => true | .rtsN _ => true | .canTx _ => true | .ethOut _ => true | .phyRstN _ => true
  | .mdc => true | .mdio => true | .tdo => true

/-- Whether a ball carries one of the networks that run in recovery mode (R351): CF0, EN0 and EN1. -/
def Ball.network : Ball → Bool
  | .canTx p => p == 0
  | .ethOut _ => true | .phyRstN _ => true | .mdc => true | .mdio => true
  | .head _ _ => false | .laser _ => false | .in1 _ => false | .in2 _ => false | .brk _ => false | .camScl _ => false
  | .camSda _ => false | .camPwrEn _ => false | .camRstN _ => false | .camTrig _ => false | .txd _ => false | .rtsN _ => false
  | .tdo => false

/-! ### Head ports -/

/-- A level that is active high or active low. -/
def polarLevel (activeHigh on : Bool) : Level := if on == activeHigh then .high else .low

/-- Whether a port drives its strobes and its latch: enabled, or not yet 1 µs after HPn_PWR_EN has fallen (R429). -/
def Mach.strobesHeld (m : Mach) (h : Nat) : Bool :=
  m.g (K.HP_MODE h) != 0 || (match (m.head h).pwrFell with | some t => decide (m.time ≤ t + 1) | none => false)

/-- Whether a strobe output is on: a line or a scan step drives it at this moment (R106, R126). -/
def Mach.strobeOn (m : Mach) (h n : Nat) : Bool :=
  !(m.strobesForced h) && (m.liveStrobes h (m.now10 + 1)).any (fun p => p.1 == n && decide (p.2.1 ≤ m.now10 ∧ m.now10 < p.2.1 + p.2.2))

/-- Whether the latch pulse of an entry of the line in progress stands (R106). -/
def Mach.latchOn (m : Mach) (h : Nat) : Bool :=
  match (m.head h).firing with
  | none => false
  | some l => !(m.strobesForced h) && l.entries.any (fun e =>
      decide (e.start ≤ m.now10 + m.h (K.HP_LATCH_SETUP h) + m.h (K.HP_LATCH_WIDTH h) ∧ m.now10 + m.h (K.HP_LATCH_SETUP h) < e.start))

/-- The load in progress, as the dots it carries (R106): that of entry 0 from 1.00 µs after the trigger, that of the next entry from the
strobe of the one before. -/
def Mach.loading (m : Mach) (h : Nat) : Option Nat :=
  match (m.head h).firing with
  | none => none
  | some l =>
    if m.strobesForced h then none
    else
      let starts := (l.trigger + 100) :: l.entries.map (fun e => e.start)
      match (starts.zip l.loads).find? (fun p => decide (p.1 ≤ m.now10 ∧ m.now10 < p.1 + m.loadTime h)) with
      | some p => some p.2
      | none => none

/-- A data lane: the bits of the load in progress, else low (R100, R118); lanes that the mode or HP_LANES does not use are low. -/
def Mach.laneLevel (m : Mach) (h lane mode : Nat) : Level :=
  if m.g (K.HP_MODE h) = mode ∧ lane < m.h (K.HP_LANES h) then
    match m.loading h with
    | some x => .shift (m.laneBits h lane x)
    | none => .low
  else .low

/-- The shift clock of a mode. -/
def Mach.clockLevel (m : Mach) (h mode : Nat) : Level :=
  if m.g (K.HP_MODE h) = mode ∧ (m.loading h).isSome = true then .clock else .low

/-- The balls of a head port (R100-R102, R106, R115, R118, R120, R429). A disabled port's are in their reset state, which is low for all
but the LVDS pairs (R101; DEDUCED, log entry 290). -/
def Mach.headBall (m : Mach) (h : Nat) (b : HeadBall) : Level :=
  let x := m.head h
  let on := m.g (K.HP_MODE h) != 0
  let rest : Level := Ball.resetLevel (.head h b)
  match b with
  | .stb n => if m.strobesHeld h then polarLevel (bit (m.h (K.HP_POLARITY h)) 1) (m.strobeOn h n) else rest
  | .lat => if m.strobesHeld h then polarLevel (bit (m.h (K.HP_POLARITY h)) 0) (m.latchOn h) else rest
  | .d i => if on then m.laneLevel h i 1 else rest
  | .clk => if on then m.clockLevel h 1 else rest
  | .ld i => if on then m.laneLevel h i 2 else rest
  | .lck => if on then m.clockLevel h 2 else rest
  | .pwrEn => if on then (if x.pwrEn then .high else .low) else rest
  | .scl => if x.fit = .reading then .bus else rest
  | .sda => if x.fit = .reading then .bus else rest

/-! ### Laser station -/

/-- A moment in steps of 31.25 ps. -/
def Mach.stampNow (m : Mach) : Nat := stampMicro * m.time

/-- Whether the scanner may light its beams: LOCKING or LOCKED with the diodes free (R173, R187, R189, R190). -/
def Mach.beamsFree (m : Mach) : Bool := !m.diodesOff && (m.scanState == scLocking || m.scanState == scLocked)

/-- Whether a beam's APC window stands (R186). -/
def Mach.apcOn (m : Mach) (b : Nat) : Bool :=
  let a := m.scanRt.last + 320 * (m.h K.LS_APC_START + b * m.h K.LS_APC_WIN)
  m.beamsFree && m.scanRt.acquired && decide (b < m.beams ∧ a ≤ m.stampNow ∧ m.stampNow < a + 320 * m.h K.LS_APC_WIN)

/-- Whether beam 0 is lit for SOS: continuously in the search, then only in its window (R173, R175). -/
def Mach.sosOn (m : Mach) : Bool :=
  let p := m.nextSos
  m.beamsFree && (if m.scanRt.acquired then
      decide (p ≤ m.stampNow + 320 * m.h K.LS_SOS_LEAD ∧ m.stampNow < p + 320 * m.h K.LS_SOS_LATE)
    else m.scanRt.pausedAt.isNone)

/-- Whether beam 0 is lit for EOS (R177). -/
def Mach.eosLit (m : Mach) : Bool :=
  m.eosOn && decide (m.eosDue ≤ ((m.stampNow + 320 * m.h K.LS_SOS_LEAD : Nat) : Rat))
    && decide (((m.stampNow : Nat) : Rat) < m.eosDue + ((320 * m.h K.LS_SOS_LATE : Nat) : Rat))

/-- The balls of the laser station (R168, R186-R188, R198). The video of a page's sweep is what Out.video put out for it. -/
def Mach.laserBall (m : Mach) : LaserBall → Level
  | .vid b =>
    if m.apcOn b || (b == 0 && (m.sosOn || m.eosLit)) then .high
    else if m.beamsFree && m.scanRt.page.isSome && decide (b < m.beams) then .video else .low
  | .lden b => if m.beamsFree && decide (b < m.beams) then .high else .low
  | .apc b => if m.apcOn b then .high else .low
  | .pref b => .pwm ((m.sl.pref.getD b 0 : Rat) / 4096)
  | .hv c => .pwm ((m.g (K.HV_DUTY c) : Rat) / 4096)
  | .fus h =>
    let (a, w) := (m.sl.heaters.getD h {}).pulse
    if m.g K.DEV_SHUTDOWN = 0 ∧ a ≤ m.now10 ∧ m.now10 < a + w then .high else .low

/-! ### Drives -/

/-- IN1 and IN2 of an H-bridge (R250). -/
def hBridge (drive : Int) : Level × Level := if 0 < drive then (.high, .low) else if drive < 0 then (.low, .high) else (.low, .low)

/-- What a chopped winding's port gives (R250, R256): the sign of its set-point while it drives; in decay the low sides, or the reverse
drive of a fast decay and of the first CHOP_FAST_TIME of a mixed one. -/
def Mach.chopLevels (m : Mach) (n p : Nat) : Level × Level :=
  let x := m.port p
  let sign : Int := if x.lastSet < 0 then -1 else 1
  let decay := (m.axis n).f 0x87 1 % 4
  let fast := decay == 1 || (decay == 2 && decide (1000 * m.time < x.since + 10 * (m.axis n).f 0x8C 2))
  if x.driving then hBridge sign
  else if fast && decide (0 < (m.thresholds n p).2) then hBridge (-sign)
  else (.high, .high)

/-- The levels of a driven port: the duty of its phase (R260), or the chopper's. -/
def Mach.driveLevels (m : Mach) (n : Nat) (half : Bool) (p : Nat) : Level × Level :=
  if half then
    let d := (m.axis n).drive.duty.getD ((m.axis n).ports.idxOf p) 0
    (.pwm d, .pwm (1 - d))
  else m.chopLevels n (m.phys p)

/-- IN1 and IN2 of a port's balls (R224, R250): those of the axis whose entry names the port; the spare that serves it works for it. -/
def Mach.portLevels (m : Mach) (p : Nat) : Level × Level :=
  match m.portAxis p with
  | none => (.low, .low)
  | some n =>
    let half := (m.axis n).kind == 2
    if !(m.axEnabled n) ∧ (m.bridge n != .shorted) = true then (.low, .low)
    else match m.bridge n with
      | .highZ => (.low, .low)
      | .shorted => if half then (.low, .high) else (.high, .high)
      | .driven => m.driveLevels n half p
      | .standstill => m.driveLevels n half p

/-! ### The others -/

/-- CPn_TRIG: its pulse of CP_TRIG_WIDTH (R287). -/
def Mach.trigLevel (m : Mach) (p : Nat) : Level :=
  match (m.cam p).trigAt with
  | some t => if m.now10 < 100 * t + m.h (K.CP_TRIG_WIDTH p) then .high else .low
  | none => .low

/-- Un_TXD (R393, R405). -/
def Mach.txdLevel (m : Mach) (u : Nat) : Level :=
  let y := m.uart u
  match y.sending with
  | some c => .frame (uaFrame y.txSet c.toNat)
  | none => if m.g (K.UA_MODE u) = 0 then .pullUp else if y.breaking then .low else .high

/-- The level of a ball whose unit is present and free of reset. -/
def Mach.ballRuns (m : Mach) (b : Ball) : Level :=
  let up := m.sup != .reset && m.sup != .booting
  match b with
  | .head h x => m.headBall h x
  | .laser x => m.laserBall x
  | .in1 p => (m.portLevels p).1
  | .in2 p => (m.portLevels p).2
  | .brk k => if (m.motion.buses.getD k {}).braking then .high else .low
  | .camScl p => if m.g (K.CP_ENABLE p) = 0 then .released else .bus
  | .camSda p => if m.g (K.CP_ENABLE p) = 0 then .released else .bus
  | .camPwrEn p => if m.g (K.CP_ENABLE p) = 0 then .low else .high
  | .camRstN p => if m.g (K.CP_ENABLE p) = 0 ∨ (m.cam p).step = .reset then .low else .high
  | .camTrig p => m.trigLevel p
  | .txd u => m.txdLevel u
  | .rtsN u => if m.g (K.UA_MODE u) = 0 then .pullUp else if (m.uart u).rtsHigh then .high else .low
  | .canTx p => if !up then .pullUp else if m.g (K.NET_CAN_STATE p) = 2 then .high else .bus
  | .ethOut e => if up && m.gb (K.NET_PORT_ENABLE e) then .bus else .low
  | .phyRstN _ => .high
  | .mdc => if up then .bus else .low
  | .mdio => if up then .bus else .released
  | .tdo => if m.test.trstN then .bus else .released

/-- What an output ball carries (R428): its reset state in reset, where its unit is absent, and in recovery mode but for the networks
that run there; else what its function gives it. EN_PHY_RST_N is released with the reset, at step 3 of R350 (R436). -/
def Mach.ball (m : Mach) (b : Ball) : Level :=
  if m.ballPresent b = false ∨ m.sup = .reset ∨ (m.sup = .recovery ∧ b.network = false) then b.resetLevel else m.ballRuns b

end Sys2Proof.Machine
end

