-- ==== Sys2Proof/Safety.lean ====
section
/-! DEFINITION. What a safe step and a safe state are, in the terms the statements use. -/

namespace Sys2Proof.Machine

/-- A step that goes on: neither a fault nor a refusal. -/
def Goes (o : Host.Outcome State Fault Refusal) : Prop := ∃ t, o = .next t

/-- The invariant every step keeps: device memory in its canonical form, and no store left pending. -/
def Sound (s : State) : Prop := s.mem.wf = true ∧ s.m.stores = []

/-- The machine as a command's meaning finds it: nothing put out yet. -/
def State.quiet (s : State) : Mach := { s.m with out := [] }

/-- The state with the machine a command leaves; queue and memory as before. -/
def State.after (s : State) (m : Mach) : State := { s with m := m }

/-- A command that goes on to a state of which P holds. -/
def Runs (o : Host.Outcome State Fault Refusal) (P : State → Prop) : Prop := ∃ t, o = .next t ∧ P t

/-- The stored number of a write that passes its card (R319): the dictionary answers, the sub-index exists on the variant, its
access, length and range admit the bytes, and its reserved fields are 0 (R6); none for a write that is refused or whose reserved
fields leave its value undefined. -/
def State.admits (s : State) (k : Nat) (bs : List Byte) : Option Nat :=
  if s.m.reach (urgentKey k) = .open_ ∧ s.m.objStatus k = .ok then
    match objRow k with
    | some r => if r.judge bs = .ok ∧ r.ty.encode bs &&& s.m.reservedBits k (r.ty.encode bs) = 0 then some (r.ty.encode bs) else none
    | none => none
  else none

/-- The state an accepted write leaves whose effect leaves the machine m: its answer comes before what the effect put out (R319,
R332), but for a bank swap's, which comes after it (R365). -/
def State.answered (s : State) (k : Nat) (bs : List Byte) (m : Mach) : State :=
  s.settle { m with out := if answersLate k bs then m.out ++ [.reply .ok (m.writeAnswer k bs)] else .reply .ok (m.writeAnswer k bs) :: m.out }

/-- The type of a sub-index that a read finds (R319): the dictionary answers, the sub-index exists and is not write-only. -/
def State.reads (s : State) (k : Nat) : Option ObjTy :=
  if s.m.reach false = .open_ ∧ s.m.objStatus k = .ok then
    match objRow k with
    | some r => if r.acc = .wo then none else some r.ty
    | none => none
  else none

/-- The state a read leaves that answers a value and leaves the machine m. -/
def State.shown (s : State) (ty : ObjTy) (v : Nat) (m : Mach) : State :=
  s.settle { m with out := .reply .ok (ty.decode v) :: m.out }

/-- What a session remembers of its last request of f's class (R326): its request number, operation and response. -/
def Mach.remember (m : Mach) (i : Nat) (f : RxFrame) (r : Option Out) : Mach :=
  { m with net := { m.net with sessions := m.net.sessions.modify i (fun (s : Option Session) =>
    s.map (fun (x : Session) => { x with last := x.last.set f.tc (some (f.seq, f.op, r)) })) } }

/-- Port e is open, its next request is f, of operation op, and f is no repeat but a new request of the session x in slot i; m1 is
the machine with f taken from its queue and remembered (R320, R325, R326). -/
def Mach.Asks (m : Mach) (e op : Nat) (f : RxFrame) (i : Nat) (x : Session) (m1 : Mach) : Prop :=
  m.enOpen e = true ∧ m.rxNext e = some f ∧ f.op = op ∧ (m.rxPop e f).slotOf e f.session f.addr f.udp = some i
  ∧ (m.rxPop e f).session i = some x ∧ (∀ q o r, x.last.getD f.tc none = some (q, o, r) → ¬ (q = f.seq ∧ o = f.op))
  ∧ m1 = (m.rxPop e f).remember i f none

/-- The machine after a request: its work found m1 and left m2; the response goes out before what the work put out, and the session
remembers it (R326). -/
def Mach.responds (m1 m2 : Mach) (i : Nat) (x : Session) (f : RxFrame) (st : Status) (data : List Byte) (more : Bool) : Mach :=
  let r := Out.hywex (i + 1) x.number f.op f.seq st data more
  Mach.remember { m2 with out := m1.out ++ r :: m2.out.drop m1.out.length } i f (some r)

end Sys2Proof.Machine
end

