-- ==== Sys2Proof/Certificates/Slice0/Obligations.lean ====
section
/-! DEFINITION. The statements for the provers. In every statement about a command, m is the machine as the command finds it
(State.quiet), settle applies the command's stores to device memory (none: memory stays), answered is what an accepted write
leaves and shown what a read leaves. -/

open Sys2Proof Sys2Proof.Machine

/-! ### The block as a whole -/

/-- A step with a command at the front of the queue is exactly that command on the machine with the rest of the queue. -/
def Obligations.StepRunsFront : Prop :=
  ∀ (s : State) (c : Instr), step { s with pending := c :: s.pending } = exec c s

/-- A step on an empty queue is one microsecond of device time: device time one further, the 1 MHz tick of the analogue subsystem, the
lines and pepper timers of the head ports, the APC windows, the choppers and the network block. That the idle step is this tick is the
model's choice (log entry 4). -/
def Obligations.IdleStepTicks : Prop :=
  ∀ (s : State), s.pending = [] → step s = 
    .next (s.settle (Mach.anTick { s.quiet with time := s.quiet.time + 1 }).settleLines.pepperTick.apcTick.chopTick.netTick)

/-- After reset nothing waits, no item is in the table, device memory is canonical, and every object reads the default of its card,
but for the eight readinesses of the serial ports, which read STARTING, and the roles of the five converter slices, which are in
calibration. The variant is the model's choice (log entry 5). -/
def Obligations.ResetState : Prop :=
  Sound State.reset ∧ State.reset.pending = [] ∧ State.reset.m.items = [] ∧ State.reset.m.time = 0 ∧ State.reset.m.ev.seq = 0
  ∧ (∀ k, (∀ u, u < 8 → k ≠ 0x201030 + u) → (∀ i, i < 5 → k ≠ K.AN_SL_ROLE i) → State.reset.m.g k = objDefault k)
  ∧ (∀ u, u < 8 → State.reset.m.g (0x201030 + u) = 1) ∧ (∀ i, i < 5 → State.reset.m.g (K.AN_SL_ROLE i) = 1)

/-- Every command goes on, in every state and with every operand, and leaves the queue as it was. -/
def Obligations.EveryCommandGoes : Prop :=
  ∀ (c : Instr) (s : State), ∃ t, exec c s = .next t ∧ t.pending = s.pending

/-- Device memory after a step is in its canonical form and no store is left pending, whatever ran: an invariant of every step. -/
def Obligations.StepKeepsSound : Prop :=
  ∀ (s t : State), Sound s → step s = .next t → Sound t

/-- What settling a machine does, the frame of every statement that ends in it: a byte of device memory is the last one stored to it
and stays where nothing was stored; the queue, every object, the values in use and the outputs stay, and so do the items but for the
mark of those RENDERING whose input was stored to. -/
def Obligations.SettleStoresOnly : Prop :=
  ∀ (s : State) (m : Mach),
    (∀ a, (∀ w, w ∈ m.stores → w.1 ≠ a) → (s.settle m).mem.byte a = s.mem.byte a)
    ∧ (∀ a b before after, m.stores = before ++ (a, b) :: after → (∀ w, w ∈ after → w.1 ≠ a) → (s.settle m).mem.byte a = b)
    ∧ (s.settle m).pending = s.pending ∧ (∀ k, (s.settle m).m.g k = m.g k) ∧ (s.settle m).m.out = m.out
    ∧ (m.stores = [] → (s.settle m).m.items = m.items) ∧ (s.settle m).m.held = m.held
    ∧ (s.settle m).m.items.map (fun it => { it with touched := false }) = m.items.map (fun it => { it with touched := false })

/-- Recording an event takes the next SEQ (32 bits), and raising one leaves device time, items, heads, axes, stations, sessions, stores
and every object but EV_LOG_DROPPED as they were; a consumer's queue never grows beyond 256 records, and a record that finds it full
puts out one record, which is counted (R327). -/
def Obligations.EventsRecorded : Prop :=
  (∀ (m : Mach) (code : Nat) (data : List Nat) (time : Nat), (m.record code data time).1.ev.seq = (m.ev.seq + 1) % 2 ^ 32)
  ∧ (∀ (m : Mach) (code : Nat) (data : List Nat),
    (∀ k, k ≠ K.EV_LOG_DROPPED → (m.raise code data).g k = m.g k) ∧ (m.raise code data).held = m.held
    ∧ (m.raise code data).time = m.time ∧ (m.raise code data).items = m.items ∧ (m.raise code data).heads = m.heads
    ∧ (m.raise code data).axes = m.axes ∧ (m.raise code data).stations = m.stations
    ∧ (m.raise code data).net.sessions = m.net.sessions ∧ (m.raise code data).stores = m.stores)
  ∧ (∀ (c : Consumer) (r : EvRec), c.queue.length ≤ 256 →
    (c.push r).queue.length ≤ 256 ∧ (c.push r).queue.getLast? = some r
    ∧ (c.queue.length < 256 → (c.push r).queue = c.queue ++ [r] ∧ (c.push r).lost = c.lost)
    ∧ (c.queue.length = 256 → (c.push r).queue.length = 256 ∧ (c.push r).lost = (c.lost + 1) % 2 ^ 32))

/-! ### Accesses, ch. 0 and 14 -/

/-- A write to an RO or CONST sub-index is refused with abort code 0x0601 0002 and changes nothing; a read of a WO sub-index returns
0 (R7). -/
def Obligations.AccessRights : Prop :=
  ∀ (s : State) (m : Mach) (cf index sub : Nat) (r : ObjRow), s.quiet = m → m.sdoOpen cf = true → m.reach false = .open_ →
    m.objStatus (index * 256 + sub) = .ok → objRow (index * 256 + sub) = some r →
    (r.acc = .ro ∨ r.acc = .const → ∀ count data corr,
      exec (.sdoTransfer cf true index sub count data corr) s = .next (s.settle { m with out := [.sdo cf 0x06010002 []] }))
    ∧ (r.acc = .wo → ∀ count data corr,
      exec (.sdoTransfer cf false index sub count data corr) s = .next (s.settle { m with out := [.sdo cf 0 (r.ty.decode 0)] }))

/-- A write that does not pass its card is answered with the status that says why, and nothing else changes: nothing at all before the
dictionary is up, UNAVAILABLE while the supervisor restarts or swaps, NO_OBJECT and NO_SUB for what the variant lacks, LENGTH for the
wrong number of bytes whatever they hold, RANGE for a value its card does not allow (R4, R10, R319). -/
def Obligations.RefusedWritesChangeNothing : Prop :=
  ∀ (s : State) (m : Mach) (index sub k : Nat) (data : List Byte), s.quiet = m → k = index * 256 + sub → answersAtTick k = false →
    answersLate k data = false →
    (m.sup = .reset ∨ m.sup = .booting → exec (.objectWrite index sub data) s = .next (s.settle m))
    ∧ (∀ st : Status,
      ((m.sup = .restarting ∨ m.sup = .swapping) ∧ urgentKey k = false ∧ st = .unavailable
        ∨ m.reach (urgentKey k) = .open_ ∧ m.objStatus k ≠ .ok ∧ st = m.objStatus k
        ∨ m.reach (urgentKey k) = .open_ ∧ m.objStatus k = .ok ∧ (∃ r, objRow k = some r ∧ r.acc.writable = true
            ∧ r.ty.lengthOk data.length = false) ∧ st = .length
        ∨ m.reach (urgentKey k) = .open_ ∧ m.objStatus k = .ok ∧ (∃ r, objRow k = some r ∧ r.acc.writable = true
            ∧ r.ty.lengthOk data.length = true ∧ r.rng.allows r.ty (r.ty.encode data) = false) ∧ st = .range) →
      exec (.objectWrite index sub data) s = .next (s.settle { m with out := [.reply st (m.writeAnswer k data)] }))

/-! ### Rules of single units -/

/-- The slots in use are the entries before the first 0, at byte offset 2k, an entry of 1-9 used as 10; a table whose entry 0 is 0 fires
nothing; in each phase of a line the entries fire in the order of the table (R103). -/
def Obligations.SlotTable : Prop :=
  (∀ table : Nat, (slotsInUse table).length ≤ 64
    ∧ (∀ k, k < (slotsInUse table).length → fld table (2 * k) 2 ≠ 0 ∧ (slotsInUse table)[k]? = some (max 10 (fld table (2 * k) 2)))
    ∧ ((slotsInUse table).length < 64 → fld table (2 * (slotsInUse table).length) 2 = 0))
  ∧ (∀ (mem : Mem) (m : Mach) (h a line : Nat) (it : Item),
    (fld (it.s (K.HP_SLOT_TABLE h)) 0 2 = 0 → (m.lineEntries mem h it a line).1 = [])
    ∧ (m.lineEntries mem h it a line).1.Pairwise (fun x y => x.1 = y.1 → x.2.1 < y.2.1))
  ∧ (∀ (off load lat s : Nat) (l : List (Nat × Nat × Nat)),
    (entryTimes off load lat s l).map (fun e => (e.phase, e.slot, e.dur)) = l
    ∧ (entryTimes off load lat s l).Pairwise (fun x y => x.start + x.dur ≤ y.start))

/-- The fired time of a dot is DOT_WORD × BLOCK_SCALE / 128 × (1024 + trim) / 1024 units of 10 ns, rounded to the nearest and limited
to 65535 of them (R94). -/
def Obligations.FiredTime : Prop :=
  ∀ (word scale : Nat) (trim : Int), -1024 ≤ trim →
    (2 * ((word * scale : Nat) * (1024 + trim)) < 131072 * (2 * 65535 + 1) →
      2 * ((firedTime word scale trim * 131072 : Nat) - (word * scale : Nat) * (1024 + trim) : Int).natAbs ≤ 131072
      ∧ firedTime word scale trim ≤ 65535)
    ∧ (131072 * (2 * 65535 + 1) ≤ 2 * ((word * scale : Nat) * (1024 + trim)) → firedTime word scale trim = 65535)

/-- A tracker keeps the minimum, the maximum, the count and the flags of what it was fed since its last reset; reading AN_MM_MAX also
resets it, in the same access, and AN_MM_RESET resets without reading (R314). -/
def Obligations.Trackers : Prop :=
  (∀ (m : Mach) (t code : Nat) (flag : Bool),
    (m.mmFeed t code flag).g (K.AN_MM_MIN t) = min (m.g (K.AN_MM_MIN t)) code
    ∧ (m.mmFeed t code flag).g (K.AN_MM_MAX t) = max (m.g (K.AN_MM_MAX t)) code
    ∧ (m.mmFeed t code flag).g (K.AN_MM_COUNT t) = (m.g (K.AN_MM_COUNT t) + 1) % 2 ^ 32
    ∧ (m.mmFeed t code flag).g (K.AN_MM_FLAGS t) = m.g (K.AN_MM_FLAGS t) ||| b2n flag)
  ∧ (∀ (m : Mach) (t code : Nat) (flag : Bool), code ≤ 4095 →
    ((m.mmReset t).mmFeed t code flag).g (K.AN_MM_MIN t) = code ∧ ((m.mmReset t).mmFeed t code flag).g (K.AN_MM_MAX t) = code
    ∧ ((m.mmReset t).mmFeed t code flag).g (K.AN_MM_COUNT t) = 1
    ∧ ((m.mmReset t).mmFeed t code flag).g (K.AN_MM_FLAGS t) = b2n flag)
  ∧ (∀ (s : State) (m : Mach) (t : Nat) (ty : ObjTy), s.quiet = m → s.reads (K.AN_MM_MAX t) = some ty →
    exec (.anMmMax t) s = .next (s.shown ty (m.g (K.AN_MM_MAX t)) (m.mmReset t)))
  ∧ (∀ (s : State) (m : Mach) (t : Nat), s.quiet = m → s.admits (K.AN_MM_RESET t) (leBytes 1 1) = some 1 →
    exec (.anMmReset t 1) s = .next (s.answered (K.AN_MM_RESET t) (leBytes 1 1) (m.mmReset t)))

/-- DEVICE_KEY reads as 0 in NV_OTP_VENDOR and the other bytes as programmed; a challenge of 32 bytes sets the response, before it is
acknowledged, to the HMAC keyed with DEVICE_KEY over the challenge and SERIAL in 8 little-endian bytes (R387). -/
def Obligations.Attestation : Prop :=
  (∀ (s : State) (m : Mach) (cf count v : Nat) (corr : List Nat), s.quiet = m → m.sdoOpen cf = true → m.reach false = .open_ →
    m.objStatus K.NV_OTP_VENDOR = .ok → v = setFld (m.flash.otp % 256 ^ 448) 0x60 32 0 →
    exec (.sdoTransfer cf false 0x3010 1 count [] corr) s = .next (s.settle { m with out := [.sdo cf 0 (leBytes 448 v)] })
    ∧ fld v 0x60 32 = 0 ∧ (∀ i, i < 448 → (i < 0x60 ∨ 0x80 ≤ i) → fld v i 1 = fld m.flash.otp i 1))
  ∧ (∀ (s : State) (m : Mach) (data : List Byte) (v : Nat), s.quiet = m → s.admits K.NV_ATTEST_CHALLENGE data = some v →
    exec (.nvAttestChallenge data) s = .next (s.answered K.NV_ATTEST_CHALLENGE data (m.put K.NV_ATTEST_RESPONSE
      (ofLe (Crypto.hmac (leBytes 32 (fld m.flash.otp 0x60 32)) (leBytes 32 v ++ leBytes 8 (fld m.flash.otp 8 8)))))))

/-! ### Print items, ch. 2 -/

/-- A definition that no check of R31 refuses adds the item, DEFINED and youngest in definition order, and answers OK, through both
sub-indices (R30, R31, R32). Of a record whose reserved fields are not all 0 the free record is taken (R6). The definition of the item
an armed calibration print waits for acts on that print (R138), that of an SL item on the laser station; nothing else changes. -/
def Obligations.ItemDefined : Prop :=
  (∀ (s : State) (m m1 : Mach) (data : List Byte) (v w : Nat) (it : Item), s.quiet = m →
    s.admits K.IT_DEFINE_RECORD data = some v → m.takenRecord (recordReserved (fld v 2 1 == 0x10)) 128 v = (w, m1) →
    it = { id := fld w 0 2, record := w, order := m1.order } → m1.defineRefusal it = none →
    exec (.itDefineRecord data) s = .next (s.answered K.IT_DEFINE_RECORD data
      (if it.station = 0x10 then ({ m1 with items := m1.items ++ [it], order := m1.order + 1 }.calDefined it).slDefined
       else { m1 with items := m1.items ++ [it], order := m1.order + 1 }.calDefined it)))
  ∧ (∀ (s : State) (m m1 : Mach) (a v w : Nat) (it : Item), s.quiet = m →
    s.admits K.IT_DEFINE_ADDR (leBytes 8 a) = some a → a + 128 ≤ 0xC0000000 → v = s.mem.read a 128 →
    m.takenRecord (recordReserved (fld v 2 1 == 0x10)) 128 v = (w, m1) →
    it = { id := fld w 0 2, record := w, order := m1.order } → m1.defineRefusal it = none →
    exec (.itDefineAddr a) s = .next (s.answered K.IT_DEFINE_ADDR (leBytes 8 a)
      (if it.station = 0x10 then ({ m1 with items := m1.items ++ [it], order := m1.order + 1 }.calDefined it).slDefined
       else { m1 with items := m1.items ++ [it], order := m1.order + 1 }.calDefined it)))
  ∧ (∀ (m : Mach) (mask v : Nat), v &&& mask = 0 → m.takenRecord mask 128 v = (v, m))

/-- A refused definition, its reserved fields 0, leaves its code and offset in IT_REFUSE_CODE and IT_REFUSE_OFFSET and raises 0x2308; nothing is added
(R30, R31). -/
def Obligations.ItemDefinitionRefused : Prop :=
  ∀ (s : State) (m : Mach) (data : List Byte) (v code off : Nat) (it : Item), Sound s → s.quiet = m →
    s.admits K.IT_DEFINE_RECORD data = some v → it = { id := fld v 0 2, record := v, order := m.order } →
    m.defineRefusal it = some (code, off) → v &&& recordReserved it.isSL = 0 →
    ∃ t, exec (.itDefineRecord data) s = .next t ∧ t.mem = s.mem ∧ t.m.items = m.items ∧ t.m.order = m.order
      ∧ t.m.g K.IT_REFUSE_CODE = code ∧ t.m.g K.IT_REFUSE_OFFSET = off
      ∧ (∀ j, j ≠ K.IT_REFUSE_CODE → j ≠ K.IT_REFUSE_OFFSET → j ≠ K.EV_LOG_DROPPED → t.m.g j = m.g j)
      ∧ t.m.out.head? = some (.reply .refused (leBytes 4 0))

/-- What cancelling, releasing, retiring, holding a station and selecting leave, where the item's state allows them (R32, R43, R44,
R52). -/
def Obligations.ItemCommandsComplete : Prop :=
  (∀ (s : State) (m : Mach) (id : Nat) (it : Item), s.quiet = m → s.admits K.IT_CANCEL (leBytes 2 id) = some id →
    m.item? id = some it → it.final = false → it.state ≠ .printing → it.state ≠ .admitted →
    exec (.itCancel id) s = .next (s.answered K.IT_CANCEL (leBytes 2 id) (m.cancel id 1).itemsMoved))
  ∧ (∀ (s : State) (m : Mach) (id : Nat) (it : Item), s.quiet = m → s.admits K.IT_CANCEL (leBytes 2 id) = some id →
    m.item? id = some it → it.state = .printing → it.station ≠ 0x10 →
    exec (.itCancel id) s = .next (s.answered K.IT_CANCEL (leBytes 2 id) (m.spoil id 1).itemsMoved))
  ∧ (∀ (s : State) (m : Mach) (id : Nat) (it : Item), s.quiet = m → s.admits K.IT_RELEASE (leBytes 2 id) = some id →
    m.item? id = some it → it.hold = true →
    exec (.itRelease id) s = .next (s.answered K.IT_RELEASE (leBytes 2 id)
      { m with items := m.items.map (fun x => if x.id = id then { x with released := true } else x) }))
  ∧ (∀ (s : State) (m : Mach) (id : Nat) (it : Item), s.quiet = m → s.admits K.IT_RETIRE (leBytes 2 id) = some id →
    m.item? id = some it → it.final = true →
    exec (.itRetire id) s = .next (s.answered K.IT_RETIRE (leBytes 2 id)
      { m with items := m.items.filter (fun x => x.id != id) }))
  ∧ (∀ (s : State) (m : Mach) (st : Nat), s.quiet = m → s.admits (K.IT_STATION_HOLD st) (leBytes 1 1) = some 1 →
    exec (.itStationHold st 1) s = .next (s.answered (K.IT_STATION_HOLD st) (leBytes 1 1)
      ((m.put (K.IT_STATION_HOLD st) 1).returnAdmitted st)))
  ∧ (∀ (s : State) (m : Mach) (st : Nat), s.quiet = m → s.admits (K.IT_STATION_HOLD st) (leBytes 1 0) = some 0 → st < 4 →
    exec (.itStationHold st 0) s = .next (s.answered (K.IT_STATION_HOLD st) (leBytes 1 0) (m.put (K.IT_STATION_HOLD st) 0)))
  ∧ (∀ (s : State) (m : Mach) (id : Nat), s.quiet = m → s.admits K.IT_SELECT (leBytes 2 id) = some id →
    exec (.itSelect id) s = .next (s.answered K.IT_SELECT (leBytes 2 id) (m.put K.IT_SELECT id)))

/-- The oldest DEFINED item enters RENDERING when flight has room, its memory can be reserved and its speed is high enough; its commit,
admission, start and end follow when their conditions hold (R33-R37, R41, R42). -/
def Obligations.ItemFlowCompletes : Prop :=
  (∀ (s : State) (m m1 : Mach) (it : Item), s.quiet = m → m.sup = .ready → (∃ k, k < m.nClusters ∧ m.clusterUp k = true) →
    m.retryStarved = m → m.items.find? (fun x => x.state == .defined) = some it → m.inFlightCount < m.flightRoom →
    (m.modItem it.id (fun _ => m.renderingReads it)).reserve (m.renderingReads it) = some m1 →
    (it.station = 0x10 ∨ m1.speedFloor (m.renderingReads it) ≤ m1.initialSpeed (m.renderingReads it)) →
    exec .enterRendering s = .next (s.settle (m1.beginBands it.id).pump))
  ∧ (∀ (s : State) (m : Mach) (id : Nat) (it : Item), s.quiet = m → m.item? id = some it → m.sup = .ready →
    m.rendered it = true → (it.vwinCount = 0 ∨ m.badIn it.vwinList (16 * it.vwinCount) = false) →
    exec (.commit id) s = .next (s.settle (m.commit s.mem it)))
  ∧ (∀ (s : State) (m : Mach) (id : Nat) (it : Item), s.quiet = m → m.item? id = some it → m.admissible it = true →
    exec (.admission id) s = .next (s.settle
      (if it.station = 0x10 then m.modItem id (fun x => { x with state := .admitted })
       else (m.modItem id (fun x => { x with state := .admitted })).admitThermal s.mem it)))
  ∧ (∀ (s : State) (m : Mach) (id a : Nat) (it : Item) (o : Rat), s.quiet = m → m.item? id = some it → it.station ≠ 0x10 →
    it.state = .admitted → m.feedAxis it.station = some a → (m.axis a).begun = some (id, o) →
    exec (.enterPrinting id) s = .next (s.settle (m.beginPrinting s.mem it a o)))
  ∧ (∀ (s : State) (m : Mach) (id : Nat) (it : Item), s.quiet = m → m.item? id = some it → it.station = 0x10 → it.state = .printing →
    it.feedDone = true → it.endDone = true → it.length ≤ it.linesFired → (it.inspect = false ∨ it.inspected = true) →
    exec (.itemDone id) s = .next (s.settle
      (((((m.finish id .done 0).itemEvent 0x2303 id).publishGains it).calItemDone it).itemsMoved)))

/-! ### Render engines, ch. 3 -/

/-- Bands move, and cloves fail and return: injection, a band's output accepted or a discarded band's dropped, a clove fenced with its
event, a spare taking bands (R58, R60, R66, R67).
An idle clove of a cluster that is up steals the deeper half of the fullest deque of the busiest other cluster of its generation
(R62); without another such cluster only the attempt's moment changes. -/
def Obligations.CloveCommandsComplete : Prop :=
  (∀ (s : State) (m : Mach), s.quiet = m → m.sup = .ready →
    exec .bandInjection s = .next (s.settle m.issuePlans.injectAll))
  ∧ (∀ (s : State) (m m1 : Mach) (cl cv : Nat) (b : Band) (f : EccFault), s.quiet = m →
    ((m.cluster cl).cloves.getD cv { state := .off }).cur = some b →
    m1 = (m.modCluster cl (fun c => { c with cloves := c.cloves.modify cv (fun x => { x with
      cur := none, bands := (x.bands + 1) % 2 ^ 32, lastMark := m.time }) })).count (K.RD_CLOVE_BANDS (17 * cl + cv)) →
    b.discard = true →
    exec (.bandComplete cl cv f) s = .next (s.settle (m1.itemsMoved.inspSettle s.mem)))
  ∧ (∀ (s : State) (m m1 : Mach) (cl cv : Nat) (b : Band) (it : Item), s.quiet = m →
    ((m.cluster cl).cloves.getD cv { state := .off }).cur = some b →
    m1 = (m.modCluster cl (fun c => { c with cloves := c.cloves.modify cv (fun x => { x with
      cur := none, bands := (x.bands + 1) % 2 ^ 32, lastMark := m.time }) })).count (K.RD_CLOVE_BANDS (17 * cl + cv)) →
    b.discard = false → m.ledger.any (fun x => x.same b) = true → m.item? b.item = some it → m1.bandInputBad it b = false →
    exec (.bandComplete cl cv .none) s = .next (s.settle
      ((Mach.bandOutput s.mem (m1.unledger b) b).itemsMoved.inspSettle s.mem)))
  ∧ (∀ (s : State) (m : Mach) (cl cv : Nat), s.quiet = m → cl < m.nClusters →
    ((m.cluster cl).cloves.getD cv { state := .off }).lastMark + 200 ≤ m.time →
    exec (.cloveHang cl cv) s = .next (s.settle (m.fence cl cv .fencedHang 0x2401)))
  ∧ (∀ (s : State) (m : Mach) (cl cv : Nat), s.quiet = m → cl < m.nClusters →
    exec (.cloveParityError cl cv) s = .next (s.settle (m.fence cl cv .fencedParity 0x2402)))
  ∧ (∀ (s : State) (m : Mach) (cl : Nat), s.quiet = m →
    ((m.cluster cl).cloves.getD 16 { state := .off }).state = .inService →
    ((m.cluster cl).cloves.getD 16 { state := .off }).loading = true → ∀ m1 : Mach,
    m1 = m.modCluster cl (fun c => { c with cloves := c.cloves.modify 16 (fun x => { x with loading := false, lastMark := m.time }) }) →
    exec (.spareCloveInService cl) s = .next (s.settle
      ((m1.raise 0x2403 [17 * cl + 16, (m1.cluster cl).spareOf]).runCluster cl)))
  ∧ (∀ (s : State) (m m1 m2 m3 : Mach) (cl cv k j : Nat) (v : Clove), s.quiet = m → m.runCluster cl = m1 →
    (m1.cluster cl).cloves.getD cv { state := .off } = v → v.serving = true → v.cur = none → v.deque = [] →
    (m1.cluster cl).reloading = false → m1.clusterUp cl = true → (∀ t, v.lastRemote = some t → t + 2 ≤ m1.time) →
    m2 = m1.modCluster cl (fun c => { c with cloves := c.cloves.modify cv (fun x => { x with lastRemote := some m1.time }) }) →
    (((List.range m2.nClusters).filter (fun k => k != cl && m2.clusterUp k && (m2.cluster k).gen == (m1.cluster cl).gen)) = [] →
      exec (.remoteStealAttempt cl cv) s = .next (s.settle m2))
    ∧ ((List.range m2.nClusters).filter (fun k => k != cl && m2.clusterUp k && (m2.cluster k).gen == (m1.cluster cl).gen) = [k] →
      (m2.cluster k).backlog ≠ 0 → (m2.cluster k).deepest = some j → m2.steal k j cl cv = (m3, true) →
      exec (.remoteStealAttempt cl cv) s = .next (s.settle (((m3.count K.RD_STEAL_REMOTE).cloveTake cl cv).runCluster k))))

/-- SRAM faults, the reload of a kernel image, and the headroom with its warning (R65, R69).
Draining, loading, testing and resuming a cluster, and the choice of the generation (R71, R72, R73). -/
def Obligations.ClusterCommandsComplete : Prop :=
  (∀ (s : State) (m : Mach) (cl off home : Nat), s.quiet = m → cl < m.nClusters → off < 0x100000 →
    home = (m.cluster cl).serves (off / 256) →
    (off / 256 ∈ (m.cluster cl).retired → exec (.sramWordUncorrectable cl off) s = .next (s.settle m))
    ∧ (off / 256 ∉ (m.cluster cl).retired → ∀ m1 : Mach,
      m1 = ((m.modCluster cl (fun c => c.retire (off / 256))).put (K.RD_CL_SRAM_RETIRED cl)
        (min 255 (m.g (K.RD_CL_SRAM_RETIRED cl) + 1))).raise 0x2404 [cl, off / 256 * 256] →
      (home < 0x400 → exec (.sramWordUncorrectable cl off) s = .next (s.settle
        (((((m1.modCluster cl (fun c => { c with reloading := true })).reissueRunning cl).clusterHealth cl).pump).runCluster cl)))
      ∧ (0x400 ≤ home → home < 0x510 →
        exec (.sramWordUncorrectable cl off) s = .next (s.settle (((m1.clusterHealth cl).pump).runCluster cl)))
      ∧ (0x510 ≤ home → (∀ n, ((m1.cluster cl).cloves.getD n { state := .off }).cur = none) →
        exec (.sramWordUncorrectable cl off) s = .next (s.settle (((m1.clusterHealth cl).pump).runCluster cl)))))
  ∧ (∀ (s : State) (m : Mach) (cl : Nat), s.quiet = m → (m.cluster cl).reloading = true →
    exec (.kernelImageReloaded cl) s = .next (s.settle ((m.modCluster cl (fun c => { c with
      reloading := false, cloves := c.cloves.map (fun v => { v with lastMark := m.time }) })).runCluster cl)))
  ∧ (∀ (s : State) (m : Mach) (rates : List Nat) (v : Nat), s.quiet = m →
    v = (if m.renderDemand rates = 0 then 0xFFFF
         else min 0xFFFE (m.clovesInService * m.cloveRate * 1000000 * 100 / m.renderDemand rates)) →
    exec (.headroomRecompute rates) s = .next (s.settle
      (if m.g K.RD_HEADROOM_WARN ≤ m.g K.RD_HEADROOM ∧ v < m.g K.RD_HEADROOM_WARN
       then (m.put K.RD_HEADROOM v).raise 0x2407 [v] else m.put K.RD_HEADROOM v)))
  ∧ (∀ (s : State) (m : Mach) (cl : Nat), s.quiet = m → s.admits (K.RD_CL_CTRL cl) (leBytes 1 1) = some 1 →
    (m.ready (rdyCluster cl) = vReady ∨ m.ready (rdyCluster cl) = vDegraded) →
    exec (.clusterDrain cl) s = .next (s.answered (K.RD_CL_CTRL cl) (leBytes 1 1)
      ((((m.modCluster cl (fun c => { c with phase := .draining })).setCluster cl vUpdating).returnEntries cl).regenerate).pump))
  ∧ (∀ (s : State) (m : Mach) (cl : Nat), s.quiet = m → m.drained cl = true →
    exec (.clusterDrained cl) s = .next (s.settle ((m.modCluster cl (fun c => { c with phase := .idle })).setCluster cl vOff)))
  ∧ (∀ (s : State) (m : Mach) (cl : Nat), s.quiet = m → s.admits (K.RD_CL_CTRL cl) (leBytes 1 2) = some 2 →
    (m.ready (rdyCluster cl) = vOff ∨ m.ready (rdyCluster cl) = vFault) →
    exec (.clusterLoad cl) s = .next (s.answered (K.RD_CL_CTRL cl) (leBytes 1 2)
      ((m.modCluster cl (fun c => { c with phase := .copying, loadSel := m.g (K.RD_CL_IMAGE_SEL cl) })).setCluster cl vUpdating)))
  ∧ (∀ (s : State) (m : Mach) (cl k : Nat), s.quiet = m → (m.cluster cl).phase = .copying → k = 2 * (m.cluster cl).loadSel + 1 →
    exec (.kernelLoadChecked cl) s = .next (s.settle
      (if m.flash.slots.getD k 0 = 1 then
        (m.modCluster cl (fun c => { c with
          phase := .selfTest, loadGen := fld (m.slotHeader k) 8 4
          kernel := m.slotBytes k (256 + fld (m.slotHeader k) 0xC 4) })).setCluster cl vStarting
       else ((m.modCluster cl (fun c => { c with phase := .idle, verified := false })).raise 0x240A [cl]).setCluster cl vOff)))
  ∧ (∀ (s : State) (m m1 : Mach) (cl failed sp n : Nat) (cs : List Clove), s.quiet = m → (m.cluster cl).phase = .selfTest →
    selfTestCloves m.hasSpares (m.cluster cl).spareOf failed m.time (m.cluster cl).cloves = (cs, sp) →
    n = (cs.filter (fun v => v.state == .inService)).length →
    m1 = (m.modCluster cl (fun c => { c with
      cloves := cs, spareOf := sp, phase := .idle, retired := [], replaced := [], reloading := false
      verified := true, gen := c.loadGen })).put (K.RD_CL_SRAM_RETIRED cl) 0 →
    exec (.clusterSelfTestDone cl failed) s = .next (s.settle
      ((m1.setCluster cl (if n = 0 then vFault else if n < 16 then vDegraded else vReady)).regenerate.pump)))
  ∧ (∀ (s : State) (m : Mach) (cl n : Nat), s.quiet = m → s.admits (K.RD_CL_CTRL cl) (leBytes 1 3) = some 3 →
    m.ready (rdyCluster cl) = vOff → (m.cluster cl).verified = true →
    n = ((m.cluster cl).cloves.filter (fun v => v.state == .inService)).length → ∀ m1 : Mach,
    m1 = m.modCluster cl (fun c => { c with phase := .idle, cloves := c.cloves.map (fun v => { v with lastMark := m.time }) }) →
    exec (.clusterResume cl) s = .next (s.answered (K.RD_CL_CTRL cl) (leBytes 1 3)
      ((m1.setCluster cl (if n = 0 then vFault else if n < 16 ∨ 32 ≤ (m1.cluster cl).retired.length then vDegraded
        else vReady)).regenerate.pump)))
  ∧ (∀ (s : State) (m : Mach) (gen cl : Nat), s.quiet = m → s.admits K.RD_GEN_SELECT (leBytes 4 gen) = some gen →
    cl < m.nClusters → m.isUp (rdyCluster cl) = true → (m.cluster cl).gen = gen →
    exec (.rdGenSelect gen) s = .next (s.answered K.RD_GEN_SELECT (leBytes 4 gen) (m.put K.RD_GEN_SELECT gen).regenerate.pump))

/-! ### The thermal energy model, ch. 4 -/

/-- The end of a planning round, a write of a rendering input, the bounds of the trim and gain loops with the resuming of frozen
values, and a thermistor without a valid result (R25, R26, R88, R92, R95, R96, R295, R296). -/
def Obligations.EnergyCommandsComplete : Prop :=
  (∀ (s : State) (m : Mach) (id : Nat) (it : Item), s.quiet = m → m.item? id = some it → it.state = .rendering → it.station ≠ 0x10 →
    it.plan.complete = false → it.plan.heads ≠ [] → it.plan.heads.all HeadPlan.reported = true →
    exec (.planningRoundEnd id) s = .next (s.settle (m.roundEnd it)))
  ∧ (∀ (s : State) (m : Mach) (index sub v st : Nat) (data : List Byte), s.quiet = m → s.admits (index * 256 + sub) data = some v →
    renderInput (index * 256 + sub) = true → 0x2700 ≤ index → sub < 256 → (index - 0x2700) % 0x20 ≠ 0x01 →
    (m.put (index * 256 + sub) v).inputStation (index * 256 + sub) = some st →
    exec (.renderInputWrite index sub data) s = .next (s.answered (index * 256 + sub) data
      ((m.put (index * 256 + sub) v).restartStation st)))
  ∧ (∀ (s : State) (m : Mach) (hp v : Nat), s.quiet = m → s.admits (K.HP_TRIM_UPPER hp) (leBytes 2 v) = some v →
    sext 16 (m.g (K.HP_TRIM_LOWER hp)) ≤ sext 16 v →
    exec (.hpTrimBounds hp true v) s = .next (s.answered (K.HP_TRIM_UPPER hp) (leBytes 2 v)
      ((m.put (K.HP_TRIM_UPPER hp) v).resumeTrim hp)))
  ∧ (∀ (s : State) (m : Mach) (hp v : Nat), s.quiet = m → s.admits (K.HP_TRIM_LOWER hp) (leBytes 2 v) = some v →
    sext 16 v ≤ sext 16 (m.g (K.HP_TRIM_UPPER hp)) →
    exec (.hpTrimBounds hp false v) s = .next (s.answered (K.HP_TRIM_LOWER hp) (leBytes 2 v)
      ((m.put (K.HP_TRIM_LOWER hp) v).resumeTrim hp)))
  ∧ (∀ (s : State) (m : Mach) (hp : Nat), s.quiet = m → s.admits (K.HP_TRIM_UNFREEZE hp) (leBytes 1 1) = some 1 →
    exec (.hpTrimUnfreeze hp 1) s = .next (s.answered (K.HP_TRIM_UNFREEZE hp) (leBytes 1 1) (m.resumeTrim hp)))
  ∧ (∀ (s : State) (m : Mach) (hp : Nat), s.quiet = m → s.admits (K.HP_PLAN_UNFREEZE hp) (leBytes 1 1) = some 1 →
    exec (.hpPlanUnfreeze hp 1) s = .next (s.answered (K.HP_PLAN_UNFREEZE hp) (leBytes 1 1)
      (if m.g (K.HP_PLAN_LOOP hp) = 3 then (m.put (K.HP_PLAN_LOOP hp) 0).modHead hp (fun x => { x with planPinned := 0 }) else m)))
  ∧ (∀ (s : State) (m : Mach) (hp : Nat), s.quiet = m → s.admits (K.HP_GAIN_RESET hp) (leBytes 1 1) = some 1 →
    exec (.hpGainReset hp 1) s = .next (s.answered (K.HP_GAIN_RESET hp) (leBytes 1 1)
      ((((m.put (K.HP_GAIN_PUBLISHED hp) (packLe 2 (List.replicate 4096 4096))).put (K.IN_GAIN_PENDING hp)
        (packLe 2 (List.replicate 4096 4096))).modHead hp (fun x => { x with gainStatus := [], gainPinned := [] })).gainStatus hp)))
  ∧ (∀ (s : State) (m : Mach) (hp v k : Nat) (upper : Bool), s.quiet = m →
    k = (if upper then K.HP_GAIN_UPPER hp else K.HP_GAIN_LOWER hp) → s.admits k (leBytes 2 v) = some v →
    exec (.gainBoundsWrite hp upper v) s = .next (s.answered k (leBytes 2 v) ((m.put k v).gainResume hp)))
  ∧ (∀ (s : State) (m : Mach) (hp thm t : Nat) (it : Item), s.quiet = m → (m.head hp).thmBad.getD thm none = some t →
    m.item? (m.g (K.HP_ITEM hp)) = some it → (m.head hp).thmRaised.getD thm false = false →
    t + 1000 * it.s (K.THM_STALE hp) < m.time → thm < it.s (K.THM_COUNT hp) →
    exec (.thermistorStale hp thm) s = .next (s.settle
      ((m.modHead hp (fun x => { x with thmRaised := x.thmRaised.set thm true })).raise (0x2542 + 0x80 * hp) [thm])))

/-! ### Head ports and firing, ch. 5 -/

/-- The mode of a head port: an enable from off stores the mode, reads the port's settings, computes its load time and starts the
insertion sequence or leaves the port waiting for a head; a disable of a port without items at work turns it off (R101, R107, R120). -/
def Obligations.HeadModeCompletes : Prop :=
  ∀ (s : State) (m : Mach) (hp v : Nat), s.quiet = m → s.admits (K.HP_MODE hp) (leBytes 1 v) = some v →
    (m.g (K.HP_MODE hp) = 0 → (v = 2 ∨ v = 1 ∧ m.g (K.HP_LANES hp) ≤ 8) → ∀ m1 m2 : Mach,
      m1 = (m.put (K.HP_MODE hp) v).sample (hpConfigKeys hp) → m2 = m1.put (K.HP_LOAD_TIME hp) (m1.loadTime hp) →
      exec (.hpMode hp v) s = .next (s.answered (K.HP_MODE hp) (leBytes 1 v)
        (if (m2.head hp).presN then m2.refreshHead hp else m2.fitStart hp)))
    ∧ (m.g (K.HP_MODE hp) ≠ 0 → v = 0 → m.portBusy hp = false →
      exec (.hpMode hp v) s = .next (s.answered (K.HP_MODE hp) (leBytes 1 v) (m.portDisable hp)))

/-- A due trigger of a head port fires its line (R105-R109); a trip of its pepper timer turns the strobes off, latches the cause and the
group, counts, raises the event and spoils what prints on its station; the latch is released by HP_PEPPER_CLEAR (R115, R116, R123). -/
def Obligations.FiringCommandsComplete : Prop :=
  (∀ (s : State) (m : Mach) (hp r t : Nat) (due : List (Nat × Nat)) (bad : Bool) (it : Item), s.quiet = m →
    (m.head hp).due = (r, t) :: due → hp < m.nHeads → t ≤ m.now10 + 99 → m.item? (m.g (K.HP_ITEM hp)) = some it →
    exec (.lineTrigger hp bad) s = .next (s.settle
      ((if m.countingHead it = hp then m.saveAction it.station (m.g (K.HP_ITEM hp)) r else m).trigger s.mem hp bad)))
  ∧ (∀ (s : State) (m m1 : Mach) (hp g st c : Nat), s.quiet = m → hp < m.nHeads → (m.head hp).pepper = false →
    m.g (K.HP_MODE hp) ≠ 0 →
    m1 = (((((m.strobesOff hp).modHead hp (fun x => { x with pepper := true })).puts
      [(K.HP_PEPPER_STATE hp, c), (K.HP_PEPPER_GROUP hp, g)]).count (K.HP_PEPPER_TRIPS hp)).raise (0x2500 + 0x80 * hp + c) [g]).refreshHead hp →
    m1.stationOf hp = some st →
    (c = 1 → exec (.pepperOnTimeTrip hp g) s = .next (s.settle (m1.spoilStation st 3)))
    ∧ (c = 2 → m.g (K.HP_PEPPER_DUTY_LIMIT hp) < 100 → exec (.pepperDutyTrip hp g) s = .next (s.settle (m1.spoilStation st 3))))
  ∧ (∀ (s : State) (m : Mach) (hp : Nat), s.quiet = m → s.admits (K.HP_PEPPER_CLEAR hp) (leBytes 1 1) = some 1 →
    (m.head hp).pepper = true →
    exec (.hpPepperClear hp 1) s = .next (s.answered (K.HP_PEPPER_CLEAR hp) (leBytes 1 1)
      ((((m.modHead hp (fun x => { x with pepper := false, strobes := [] })).put (K.HP_PEPPER_STATE hp) 0).refreshHead hp).raise
        (0x250A + 0x80 * hp) [])))
  ∧ (∀ (s : State) (m : Mach) (hp : Nat) (ty : ObjTy), s.quiet = m → s.reads (K.HP_PEPPER_DUTY_MAX hp) = some ty →
    exec (.hpPepperDutyMax hp) s = .next (s.shown ty (m.g (K.HP_PEPPER_DUTY_MAX hp)) (m.put (K.HP_PEPPER_DUTY_MAX hp) 0)))

/-- The insertion sequence of a head port, from the edge of its presence pin to the fitted head or the failed one, and a removal
(R118, R120, R121). -/
def Obligations.HeadInsertionCompletes : Prop :=
  (∀ (s : State) (m m1 : Mach) (hp : Nat), s.quiet = m → hp < m.nHeads →
    m1 = (m.modHead hp (fun x => { x with presN := false, presSince := m.time })).put (K.HP_PRESENT hp) 1 →
    exec (.headPresentEdge hp) s = .next (s.settle
      (if m1.g (K.HP_MODE hp) ≠ 0 ∧ ((m1.head hp).fit = .none ∨ (m1.head hp).fit = .seen) then m1.fitStart hp else m1)))
  ∧ (∀ (s : State) (m : Mach) (hp : Nat), s.quiet = m → (m.head hp).fit = .seen → (m.head hp).fitEdge + 50000 ≤ m.time →
    exec (.headPowerEnable hp) s = .next (s.settle (m.modHead hp (fun x => { x with fit := .powered, pwrEn := true }))))
  ∧ (∀ (s : State) (m : Mach) (hp : Nat), s.quiet = m → (m.head hp).fit = .powered → (m.head hp).fitEdge + 70000 ≤ m.time →
    exec (.headIdReadStart hp) s = .next (s.settle
      (if m.h (K.HP_ID_LEN hp) = 0 then m.headFitted hp [] else m.modHead hp (fun x => { x with fit := .reading }))))
  ∧ (∀ (s : State) (m : Mach) (hp : Nat) (data : List Byte), s.quiet = m → (m.head hp).fit = .reading →
    data.length = m.h (K.HP_ID_LEN hp) →
    exec (.headIdReadDone hp true data) s = .next (s.settle (m.headFitted hp data)))
  ∧ (∀ (s : State) (m : Mach) (hp : Nat) (data : List Byte), s.quiet = m → (m.head hp).fit = .reading →
    exec (.headIdReadDone hp false data) s = .next (s.settle
      (if (m.head hp).idTries < 3 then
        m.modHead hp (fun x => { x with fit := .waitRetry, idTries := x.idTries + 1, fitNext := m.time + 10000 })
       else ((((m.modHead hp (fun x => { x with fit := .failed, pwrEn := false, pwrFell := some m.time, idKnown := false })).raise (0x2508 + 0x80 * hp) []).refreshHead hp).partnerLost
        dscHead hp 0 0))))
  ∧ (∀ (s : State) (m : Mach) (hp : Nat), s.quiet = m → (m.head hp).fit = .waitRetry → (m.head hp).fitNext ≤ m.time →
    exec (.headIdReadRetry hp) s = .next (s.settle (m.modHead hp (fun x => { x with fit := .reading }))))
  ∧ (∀ (s : State) (m : Mach) (hp : Nat), s.quiet = m → hp < m.nHeads →
    ((m.head hp).fit = .powered ∨ (m.head hp).fit = .reading ∨ (m.head hp).fit = .waitRetry ∨ (m.head hp).fit = .scanning
      ∨ (m.head hp).fit = .done ∨ (m.head hp).fit = .failed) →
    exec (.headRemoved hp) s = .next (s.settle (m.removeHead hp)))

/-- A tandem pair restored to both heads, and a station configured or taken out (R98, R122). -/
def Obligations.StationConfigurationCompletes : Prop :=
  (∀ (s : State) (m : Mach) (st : Nat), s.quiet = m → s.admits (K.TH_TANDEM_RESTORE st) (leBytes 1 1) = some 1 →
    m.g (K.TH_ST_MODE st) = 2 → (∀ h, h ∈ m.stationPorts st → m.isUp (rdyHead h) = true) →
    exec (.thTandemRestore st 1) s = .next (s.answered (K.TH_TANDEM_RESTORE st) (leBytes 1 1)
      ((m.stationPorts st).foldl Mach.refreshHead
        ((((((m.put (K.TH_ST_MODE st) 1).put (K.TH_ST_ACTIVE_PORTS st) (m.h (K.TH_PORTS st))).raise (0x2702 + 0x20 * st) []).refreshStations).restartHeads st)))))
  ∧ (∀ (s : State) (m : Mach) (st : Nat), s.quiet = m → s.admits (K.TH_CONFIGURED st) (leBytes 1 1) = some 1 →
    m.g (K.TH_CONFIGURED st) = 0 → m.stationRefused st = false →
    exec (.thConfigured st 1) s = .next (s.answered (K.TH_CONFIGURED st) (leBytes 1 1) (m.stationOn st)))
  ∧ (∀ (s : State) (m : Mach) (st : Nat), s.quiet = m → s.admits (K.TH_CONFIGURED st) (leBytes 1 0) = some 0 →
    m.g (K.TH_CONFIGURED st) = 1 → m.itemsOf st Item.inFlight = [] →
    exec (.thConfigured st 0) s = .next (s.answered (K.TH_CONFIGURED st) (leBytes 1 0) (m.stationOff st)))

/-! ### Dots and calibration, ch. 6 -/

/-- The resistance scan of a head, the reference copy, the dot map and the hiding limits (R126-R132, R136). -/
def Obligations.DotCommandsComplete : Prop :=
  (∀ (s : State) (m : Mach) (hp d g on st : Nat), s.quiet = m → hp < m.nHeads → m.scanMayStart hp = true →
    nextDot (m.headDots hp) (m.head hp).scan.dot (m.head hp).scan.valid = some d → m.scanTimes hp = (on, st) →
    g = groupOf ((List.range (m.g (K.HP_SG_GROUPS hp))).map (fun i => m.g (K.HP_SG_START hp i))) d → m.strobesForced hp = false →
    exec (.scanStepStart hp) s = .next (s.settle ((m.modHead hp (fun x => { x with scan := { x.scan with
      dot := d, pulsing := true, strobe := (g, m.now10 + on, m.now10 + on + m.g (K.HP_SCAN_PULSE hp)), iOff := none, iOn := none
      vOn := none, cut := false, lastStart := some m.time, stepEnd := m.now10 + st
      lineTag := some (m.g (K.HP_ITEM hp), x.nextLine) } })).noteStrobes hp m.now10
        [(g, m.now10 + on, m.g (K.HP_SCAN_PULSE hp))])))
  ∧ (∀ (s : State) (m : Mach) (hp : Nat), s.quiet = m → hp < m.nHeads → (m.head hp).scan.pulsing = true →
    (m.head hp).scan.stepEnd ≤ m.now10 →
    exec (.scanStepEnd hp) s = .next (s.settle (m.scanEnd hp)))
  ∧ (∀ (s : State) (m : Mach) (hp : Nat), s.quiet = m → s.admits (K.HP_DOT_REF_TAKE hp) (leBytes 1 1) = some 1 →
    exec (.hpDotRefTake hp 1) s = .next (s.answered (K.HP_DOT_REF_TAKE hp) (leBytes 1 1)
      (m.put (K.HP_DOT_REF hp) (m.g (K.HP_DOT_MEASURED hp)))))
  ∧ (∀ (s : State) (m : Mach) (hp v : Nat) (data : List Byte), s.quiet = m → s.admits (K.HP_DOT_MAP hp) data = some v →
    (∀ d, d < (if m.g (K.HP_MODE hp) = 0 then m.g (K.HP_DOTS hp) else m.headDots hp) → dotClass v d < 6) →
    exec (.hpDotMap hp data) s = .next (s.answered (K.HP_DOT_MAP hp) data
      (((((m.put (K.HP_DOT_MAP hp) v).showDrift hp).refreshPair hp).mapTaken hp).dotDataWritten hp)))
  ∧ (∀ (s : State) (m : Mach) (hp which v : Nat) (bs : List Byte), s.quiet = m → bs = leBytes (if which = 0 then 1 else 2) v →
    s.admits (hidingLimitKey hp which) bs = some v →
    exec (.dotHidingLimitsWrite hp which v) s = .next (s.answered (hidingLimitKey hp which) bs
      ((m.put (hidingLimitKey hp which) v).refreshPair hp)))

/-- Calibration: the item of a measurement, applying a result, and loading, setting and storing the set TH_CAL_SET names
(R138, R140-R145). -/
def Obligations.CalibrationCompletes : Prop :=
  (∀ (s : State) (m m1 : Mach) (v : Nat), s.quiet = m → s.admits K.TH_CAL_ITEM (leBytes 2 v) = some v →
    m1 = ((m.put K.TH_CAL_ITEM v).put K.TH_CAL_STATE 1).put K.TH_CAL_FAIL 0 →
    (m1.item? v = none ∨ ∃ it, m1.item? v = some it ∧ m1.calGate it = true) →
    exec (.thCalItem v) s = .next (s.answered K.TH_CAL_ITEM (leBytes 2 v) m1))
  ∧ (∀ (s : State) (m : Mach) (v off : Nat), s.quiet = m → s.admits K.TH_CAL_APPLY (leBytes 1 v) = some v →
    m.g K.TH_CAL_STATE = 3 → m.calResult.1 = 2 →
    (off : Int) = clampI 0 1048575 ((m.g (K.TH_TANDEM_OFFSET m.calResult.2.2) : Int) - m.gi 32 K.TH_CAL_TANDEM_ERR) →
    exec (.thCalApply v) s = .next (s.answered K.TH_CAL_APPLY (leBytes 1 v)
      ((m.put (K.TH_TANDEM_OFFSET m.calResult.2.2) off).restartStation m.calResult.2.2)))
  ∧ (∀ (s : State) (m : Mach), s.quiet = m → s.admits K.TH_CAL_CTRL [1#8] = some 1 →
    exec .calLoad s = .next (s.answered K.TH_CAL_CTRL [1#8] m.calLoad))
  ∧ (∀ (s : State) (m : Mach), s.quiet = m → s.admits K.TH_CAL_CTRL [2#8] = some 2 →
    exec .calSet s = .next (s.answered K.TH_CAL_CTRL [2#8] m.calSet))
  ∧ (∀ (s : State) (m : Mach), s.quiet = m → s.admits K.TH_CAL_CTRL [3#8] = some 3 →
    exec .calStore s = .next (s.answered K.TH_CAL_CTRL [3#8] m.calStore))
  ∧ (∀ (s : State) (m : Mach), s.quiet = m → s.admits K.TH_CAL_CTRL [4#8] = some 4 →
    exec .calSetThenStore s = .next (s.answered K.TH_CAL_CTRL [4#8] m.calSet.calStore))
  ∧ (∀ (s : State) (m : Mach) (n x y seq : Nat) (rest : List (Nat × Nat)), s.quiet = m → m.calStoring = (n, x) :: rest →
    seq = fld (m.calSets.getD n 0) 0 4 + 1 → y = calSealed (setFld x 0 4 seq) →
    exec (.calStoreDone true) s = .next (s.settle (((({ m with
      calStoring := rest, calSets := m.calSets.set n (calSealed (setFld (m.calSets.getD n 0) 0 4 seq))
      calFlash := m.calFlash.set n y }.calStored n y).put
        K.TH_CAL_STORE_STATE (if rest = [] then 2 else 1)).raise 0x2781 [n]).flashStart))
    ∧ exec (.calStoreDone false) s = .next (s.settle
      (({ m with calStoring := rest }.put K.TH_CAL_STORE_STATE (if rest = [] then 3 else 1)).raise 0x2782 [n])))

/-! ### Media path, ch. 7 -/

/-- Senses and ribbon: a medium that has come back, the limit of a seek, a learning feed, frozen loops resumed, and a ribbon window
measured (R149, R153-R155, R158). -/
def Obligations.MediaCommandsComplete : Prop :=
  (∀ (s : State) (m : Mach) (st t : Nat), s.quiet = m → (m.chan st 0).restBack = some t → (m.chan st 0).out = true →
    m.feedAtRest st = true → m.configured st = true → t + 100000 ≤ m.time →
    exec (.mediaAtRestReturn st) s = .next (s.settle ((m.modChan st 0 (fun c => { c with
      out := false, inMark := false, back := none, restBack := none })).mediaEval st 0)))
  ∧ (∀ (s : State) (m m1 : Mach) (st : Nat) (r : AlignRun), s.quiet = m → m.configured st = true → m.seekOver st = true →
    (m.sta st).aligns.find? (fun r => r.seek.isSome) = some r →
    m1 = (m.stationHalt st).modSta st (fun x => { x with aligns := x.aligns.filter (fun r => r.seek.isNone) }) →
    exec (.seekLimit st) s = .next (s.settle ((m1.mediaOut st (m1.linePos st)).setHold st r.item)))
  ∧ (∀ (s : State) (m : Mach) (st a : Nat) (v : Rat), s.quiet = m → s.admits (K.TH_LEARN st) (leBytes 1 1) = some 1 →
    m.feedAxis st = some a → m.itemsOf st (fun it => it.state == .admitted || it.state == .printing) = [] →
    (m.sta st).cut = .none → m.configured st = true → m.axEnabled a = true →
    v = m.feedSpeed st (m.g (K.TH_LEARN_SPEED st)) →
    exec (.thLearn st 1) s = .next (s.answered (K.TH_LEARN st) (leBytes 1 1)
      ((((m.modSta st (fun x => { x with learn := some (m.linePos st, 0) })).modChan st 0 (fun c => { c with
        lo := 4095, hi := 0, learned := false, medium := [] })).put (K.TH_LEARN_STATE st) 1).axQueue a (mkProfile .learn
          (joinPieces [rampPiece (m.accelOf st none) (m.jerkOf st none) 0 0 0 v]
            [flatPiece 0 0 (m.linesToPos st seekTravel) v])))))
  ∧ (∀ (s : State) (m : Mach) (st ch : Nat), s.quiet = m → s.admits (K.SNS_UNFREEZE st ch) (leBytes 1 1) = some 1 →
    exec (.snsUnfreeze st ch 1) s = .next (s.answered (K.SNS_UNFREEZE st ch) (leBytes 1 1)
      (if m.g (K.SNS_LOOP_STATUS st ch) = 3
       then (m.modChan st ch (fun x => { x with pinned := 0 })).put (K.SNS_LOOP_STATUS st ch) 0 else m)))
  ∧ (∀ (s : State) (m : Mach) (st : Nat) (p : Int) (a b : Rat), s.quiet = m → m.hasRibbon st = true → m.ribbonThere st = true →
    (m.sta st).heldAt = none → (m.sta st).window = some (p, a, b) → 16 * (m.g (K.TH_RIB_WIN st) : Int) ≤ m.linePos st - p →
    exec (.ribbonWindow st) s = .next (s.settle (m.ribbonWindow st)))

/-- The cutter strokes out when its item's cut point is at the blade and the feed rests, a stroke that takes too long spoils the item,
and a presented item ends, is taken back and counted (R162-R164). -/
def Obligations.CutterAndPresenterComplete : Prop :=
  (∀ (s : State) (m : Mach) (st id : Nat) (it : Item), s.quiet = m → m.configured st = true → (m.sta st).cut = .ready id →
    m.item? id = some it → it.state = .printing → m.feedAtRest st = true → (it.endAction = 1 ∨ m.presenter st = none) →
    exec (.cutStroke st) s = .next (s.settle ((m.modSta st (fun x => { x with
      cut := .out id, cutHome := m.axPos (m.h (K.TH_CUT_AXIS st)), cutDeadline := m.time + 1000 * x.cutTimeout })).axGo
        (m.h (K.TH_CUT_AXIS st)) (if it.endAction = 1 then (m.sta st).cutPart else (m.sta st).cutFull : Int))))
  ∧ (∀ (s : State) (m : Mach) (st id : Nat), s.quiet = m → (m.sta st).cut = .out id → (m.sta st).cutDeadline ≤ m.time →
    exec (.thCutTimeout st) s = .next (s.settle
      (((m.modSta st (fun x => { x with cut := .none })).raise (0x271C + 0x20 * st) [1]).spoil id 9)))
  ∧ (∀ (s : State) (m : Mach) (st a : Nat) (it : Item), s.quiet = m → m.configured st = true → m.presenter st = some a →
    m.axState a = axIdle →
    (m.g (K.TH_PRES_STATE st) = 1 → m.item? (m.sta st).presItem = some it → it.endAction = 3 →
      exec (.presenterMoveDone st) s = .next (s.settle
        ((((((m.put (K.TH_PRES_STATE st) 2).put (K.TH_PRES_ITEM st) (m.sta st).presItem).modSta st (fun x => { x with
          presSince := m.time })).endDone (m.sta st).presItem).raise (0x271D + 0x20 * st) []))))
    ∧ (m.g (K.TH_PRES_STATE st) = 3 →
      exec (.presenterMoveDone st) s = .next (s.settle
        ((((m.put (K.TH_PRES_STATE st) 0).put (K.TH_PRES_ITEM st) 0).raise (0x271F + 0x20 * st) [(m.sta st).presItem]).count
          (K.TH_PRES_RETRACTS st)))))
  ∧ (∀ (s : State) (m : Mach) (st a : Nat), s.quiet = m → m.presenter st = some a → m.g (K.TH_PRES_STATE st) = 2 →
    (m.sta st).presTimeout ≠ 0 → (m.sta st).presSince + 1000000 * (m.sta st).presTimeout ≤ m.time →
    exec (.thPresTimeout st) s = .next (s.settle ((m.put (K.TH_PRES_STATE st) 3).axGo a
      (m.axPos a + ((-(m.sta st).presRetract : Int) : Rat)))))

/-! ### Laser imaging, ch. 8 -/

/-- The scanner: its mode, the stop after idling, the search for the start of scan and its pauses, the lock and its timeout, and its
release at rest (R172-R174, R266).
Start-of-scan and end-of-scan edges, missed ones, and the index pulse (R173-R177, R186, R190). -/
def Obligations.ScannerCommandsComplete : Prop :=
  (∀ (s : State) (m : Mach) (v : Nat), s.quiet = m → s.admits K.LS_SCAN_MODE (leBytes 1 v) = some v → v ≠ 0 →
    m.scanState = scStopped → (v = 2 ∨ m.itemsOf 4 (fun it => !it.final) ≠ []) → m.scanRefused = false →
    exec (.lsScanMode v) s = .next (s.answered K.LS_SCAN_MODE (leBytes 1 v) (m.put K.LS_SCAN_MODE v).scanBegin))
  ∧ (∀ (s : State) (m : Mach), s.quiet = m → s.admits K.LS_SCAN_MODE (leBytes 1 0) = some 0 → m.slBusy = false →
    exec (.lsScanMode 0) s = .next (s.answered K.LS_SCAN_MODE (leBytes 1 0) (m.put K.LS_SCAN_MODE 0).scanStop))
  ∧ (∀ (s : State) (m : Mach) (t : Nat), s.quiet = m → m.sl.scan.idleAt = some t → m.g K.LS_SCAN_MODE = 1 →
    (m.scanState = scSpinup ∨ m.scanState = scLocking ∨ m.scanState = scLocked) → t + 1000000 * m.g K.LS_SCAN_IDLE ≤ m.time →
    exec .scannerIdleStop s = .next (s.settle m.scanStop))
  ∧ (∀ (s : State) (m : Mach), s.quiet = m → m.scanState = scSpinup →
    exec .scannerAtLockSpeed s = .next (s.settle ((m.modScan (fun x => { x with
      searchAt := m.time, pausedAt := none, acquired := false, found := false, intervals := List.replicate 12 none })).setScan scLocking)))
  ∧ (∀ (s : State) (m : Mach), s.quiet = m → m.scanState = scLocking → m.sl.scan.found = false → m.sl.scan.pausedAt = none →
    m.sl.scan.searchAt + 1000 * m.h K.LS_SOS_SEARCH ≤ m.time →
    exec .sosSearchTimeout s = .next (s.settle (m.modScan (fun x => { x with pausedAt := some m.time, acquired := false }))))
  ∧ (∀ (s : State) (m : Mach) (t : Nat), s.quiet = m → m.scanState = scLocking → m.sl.scan.pausedAt = some t → t + 10000 ≤ m.time →
    exec .sosSearchResume s = .next (s.settle (m.modScan (fun x => { x with pausedAt := none, searchAt := m.time }))))
  ∧ (∀ (s : State) (m : Mach), s.quiet = m → (m.scanState = scSpinup ∨ m.scanState = scLocking) → m.lockSuspended = false →
    m.sl.scan.startAt + 1000000 * m.h K.LS_LOCK_TIMEOUT ≤ m.time →
    exec .lockTimeout s = .next (s.settle (((m.axRun m.scanAxis 0).setScan scFault).raise 0x2804 [1])))
  ∧ (∀ (s : State) (m n : Mach), s.quiet = m → m.scanState = scStopping → m.axVel m.scanAxis = 0 →
    n = (m.axDisableCore m.scanAxis).setScan scStopped →
    exec .scannerStopped s = .next (s.settle
      (if n.scanState = scStopped ∧ (n.g K.LS_SCAN_MODE = 2 ∨ n.g K.LS_SCAN_MODE = 1 ∧ n.itemsOf 4 (fun it => !it.final) ≠ [])
       then n.scanAuto else n)))
  ∧ (∀ (s : State) (m : Mach) (phase t : Nat) (bad : Bool), s.quiet = m → m.hasSL = true → m.diodesOff = false →
    (m.scanState = scLocking ∨ m.scanState = scLocked) → m.sl.scan.pausedAt = none → m.sl.scan.acquired = false →
    t = stampMicro * m.time + phase →
    exec (.sosEdge phase bad) s = .next (s.settle (((m.skipSweeps t).modScan (fun x => { x with
      acquired := true, found := true, last := t, predicted := false, measured := none, facet := m.facets - 1, good := 0
      missRun := 0, edges := 0, missed := false, revStart := none })).sweepBegins s.mem t bad)))
  ∧ (∀ (s : State) (m : Mach) (phase t : Nat) (bad : Bool), s.quiet = m → m.hasSL = true → m.diodesOff = false →
    (m.scanState = scLocking ∨ m.scanState = scLocked) → m.sl.scan.pausedAt = none → m.sl.scan.acquired = true →
    m.layoutBad = false → t = stampMicro * m.time + phase → m.sl.scan.last < t → m.nextSos ≤ t + 320 * m.h K.LS_SOS_LEAD →
    t ≤ m.nextSos + 320 * m.h K.LS_SOS_LATE →
    exec (.sosEdge phase bad) s = .next (s.settle ((m.modScan (fun y => { y with
      intervals := if m.sl.scan.predicted then y.intervals else y.intervals.set m.sl.scan.facet (some (t - m.sl.scan.last))
      measured := if m.sl.scan.predicted then y.measured else some (t - m.sl.scan.last)
      found := true, last := t, predicted := false, missRun := 0 })).showIntervals.sweepBegins s.mem t bad)))
  ∧ (∀ (s : State) (m m1 : Mach) (bad : Bool), s.quiet = m → m.hasSL = true → m.sl.scan.acquired = true → m.lockSuspended = false →
    (m.scanState = scLocking ∨ m.scanState = scLocked) → m.nextSos + 320 * m.h K.LS_SOS_LATE ≤ stampMicro * m.time →
    m.vmonLow = false →
    m1 = (((m.count K.LS_SOS_MISSED).raiseIf (m.sl.scan.missRun == 0) 0x2803 []).modScan (fun x => { x with
      missRun := x.missRun + 1, missed := true })).modScan (fun x => { x with last := m.nextSos, predicted := true }) →
    exec (.sosWindowMiss bad) s = .next (s.settle
      ((if m1.scanState = scLocked ∧ m1.h K.LS_SOS_FLY < m1.sl.scan.missRun then m1.loseLock 2 .next else m1).sweepBegins s.mem m.nextSos bad)))
  ∧ (∀ (s : State) (m : Mach), s.quiet = m → m.h K.LS_FACET_SYNC = 1 → (m.scanState = scLocking ∨ m.scanState = scLocked) →
    m.sl.scan.acquired = true → (m.scanState = scLocking ∨ m.sl.scan.revStart = none ∨ m.sl.scan.sinceIndex = m.facets) →
    exec .slIndexPulse s = .next (s.settle (m.modScan (fun x => { x with indexed := true }))))
  ∧ (∀ (s : State) (m m1 : Mach) (phase t v : Nat), s.quiet = m → m.eosOn = true → t = stampMicro * m.time + phase →
    m.eosDue ≤ (t : Rat) + ((320 * m.h K.LS_SOS_LEAD : Nat) : Rat) → (t : Rat) ≤ m.eosDue + ((320 * m.h K.LS_SOS_LATE : Nat) : Rat) →
    v = (roundRat (((t - m.sl.scan.last : Nat) : Rat) * 16 / m.pixelPeriod)).toNat →
    m1 = m.modScan (fun x => { x with eosSeen := true }) →
    v ≤ m1.h K.LS_SOS_EOS_NOM + m1.h K.LS_EOS_TOL → m1.h K.LS_SOS_EOS_NOM ≤ v + m1.h K.LS_EOS_TOL →
    exec (.eosEdge phase) s = .next (s.settle
      (m1.put K.LS_EOS_MEASURED (setFld (m1.g K.LS_EOS_MEASURED) (4 * m.sl.scan.facet) 4 v))))
  ∧ (∀ (s : State) (m : Mach), s.quiet = m → m.eosOn = true →
    m.eosDue + ((320 * m.h K.LS_SOS_LATE : Nat) : Rat) ≤ ((stampMicro * m.time : Nat) : Rat) →
    exec .eosWindowEnd s = .next (s.settle (m.modScan (fun x => { x with eosSeen := true })).eosBad))

/-- The interlock opens, closes and is enabled again, and the latch of a beam's power is cleared (R187, R189, R382). -/
def Obligations.InterlockCommandsComplete : Prop :=
  (∀ (s : State) (m m1 : Mach), s.quiet = m → m.hasSL = true → m.sl.scan.intlkOpen = false →
    m1 = (m.modScan (fun x => { x with intlkOpen := true })).count K.LS_INTLK_OPENINGS →
    exec .interlockOpen s = .next (s.settle
      (if m1.gb K.LS_INTLK_ENABLE then ((((m1.put K.LS_INTLK_STATE 1).hvOff).raise 0x2806 []).spoilPages 7 .now).refreshSL else m1)))
  ∧ (∀ (s : State) (m : Mach), s.quiet = m → m.hasSL = true → m.g K.LS_INTLK_STATE = 1 →
    exec .interlockClosed s = .next (s.settle
      (((m.modScan (fun x => { x with intlkOpen := false })).put K.LS_INTLK_STATE 2).refreshSL)))
  ∧ (∀ (s : State) (m : Mach), s.quiet = m → s.admits K.LS_INTLK_REENABLE (leBytes 1 1) = some 1 → m.g K.LS_INTLK_STATE = 2 →
    exec (.lsIntlkReenable 1) s = .next (s.answered K.LS_INTLK_REENABLE (leBytes 1 1)
      (((m.put K.LS_INTLK_STATE 0).raise 0x2807 []).intlkResume)))
  ∧ (∀ (s : State) (m : Mach) (v : Nat), s.quiet = m → s.admits K.LS_INTLK_ENABLE (leBytes 1 v) = some v →
    (v = 0 → m.intlkForce = false) → m.scanState = scStopped →
    exec (.lsIntlkEnable v) s = .next (s.answered K.LS_INTLK_ENABLE (leBytes 1 v)
      (((m.put K.LS_INTLK_ENABLE v).put K.LS_INTLK_STATE (if v = 0 then 3 else if m.sl.scan.intlkOpen then 1 else 2)).refreshSL)))
  ∧ (∀ (s : State) (m : Mach), s.quiet = m → s.admits K.LS_PWR_CLEAR (leBytes 1 1) = some 1 → m.g K.LS_PWR_LATCH ≠ 0xFF →
    exec (.lsPwrClear 1) s = .next (s.answered K.LS_PWR_CLEAR (leBytes 1 1)
      (((((m.put K.LS_PWR_LATCH 0xFF).modScan (fun x => { x with pmonBad := List.replicate 4 0 })).raise 0x2809 []).relock true).refreshSL)))

/-! ### Laser process control, ch. 9 -/

/-- The process: a start from OFF by run mode, a stop from READY, the stop after idling, the warm-up's first and fourth steps, the end
of drum cleaning and the rest that follows (R200-R203). -/
def Obligations.ProcessCommandsComplete : Prop :=
  (∀ (s : State) (m : Mach), s.quiet = m → s.admits K.LS_PROC_MODE (leBytes 1 3) = some 3 → m.procState = prOff →
    exec (.lsProcMode 3) s = .next (s.answered K.LS_PROC_MODE (leBytes 1 3) (m.put K.LS_PROC_MODE 3).procStart))
  ∧ (∀ (s : State) (m m1 : Mach) (v : Nat), s.quiet = m → s.admits K.LS_PROC_MODE (leBytes 1 v) = some v → (v = 0 ∨ v = 2) →
    m.slBusy = false → (m.procState = prWarming ∨ m.procState = prReady) → m1 = m.put K.LS_PROC_MODE v →
    exec (.lsProcMode v) s = .next (s.answered K.LS_PROC_MODE (leBytes 1 v)
      ((m1.modSl (fun x => { x with stop := 1, stopAt := m1.time })).setProc prStopping)))
  ∧ (∀ (s : State) (m : Mach) (t : Nat), s.quiet = m → m.sl.idleAt = some t → m.g K.LS_PROC_MODE = 1 → m.procState = prReady →
    t + 1000000 * m.g K.LS_PROC_IDLE ≤ m.time →
    exec .processIdleStop s = .next (s.settle ((m.modSl (fun x => { x with stop := 1, stopAt := m.time })).setProc prStopping)))
  ∧ (∀ (s : State) (m : Mach), s.quiet = m → m.procState = prWarming →
    (m.sl.warm = 1 → (sext 16 (m.g K.LS_FUS_ROTATE) : Rat) ≤ m.fuserTemp 0 →
      exec .processWarmupAdvance s = .next (s.settle ((m.modSl (fun x => { x with warm := 2 })).axRun (m.h K.LS_FUSER_AXIS)
        (pathSpeed (m.h K.LS_FUSER_AXIS) (m.g K.LS_FUS_WARM_SPEED)))))
    ∧ (m.sl.warm = 4 → m.g (K.HV_STATE 0) = 2 →
      exec .processWarmupAdvance s = .next (s.settle (m.modSl (fun x => { x with warm := 5 })))))
  ∧ (∀ (s : State) (m : Mach), s.quiet = m → m.procState = prStopping → m.sl.stop = 1 →
    m.sl.stopAt + 1000 * m.g K.LS_DRUM_CLEAN ≤ m.time →
    exec .drumCleanEnd s = .next (s.settle
      (if m.sl.hv.all (fun x => !x.active) then ((m.modSl (fun x => { x with stop := 2 })).modSl (fun x => { x with stop := 3 })).procHalt
       else m.modSl (fun x => { x with stop := 2 }))))
  ∧ (∀ (s : State) (m : Mach), s.quiet = m → m.procState = prStopping → m.sl.stop = 3 →
    (∀ a, a ∈ m.procAxes → m.axVel a = 0) → m.procRest.g K.LS_PROC_MODE = 0 →
    exec .processStopComplete s = .next (s.settle m.procRest))

/-- High voltage every 100 µs, its fault, zero crossings of the mains, heater and mains faults, and the clearing of the trip and of the
process fault (R205-R210). -/
def Obligations.FuserAndHighVoltageComplete : Prop :=
  (∀ (s : State) (m : Mach), s.quiet = m → m.hasSL = true → m.sl.hvAt + 100 ≤ m.time →
    exec .hvUpdate s = .next (s.settle
      (upto 4 ((m.modSl (fun x => { x with hvAt := m.time })).hvPlan) (fun m c => m.hvStep c)).procRamped.procAdvance))
  ∧ (∀ (s : State) (m : Mach) (hv c : Nat), s.quiet = m → m.hvFaultDue hv = some c → m.hasSL = true → m.g (K.HV_STATE hv) ≠ 4 →
    exec (.hvFault hv) s = .next (s.settle (((m.hvOff.put (K.HV_STATE hv) 4).raise 0x2812 [hv, c]).procFault)))
  ∧ (∀ (s : State) (m m1 : Mach) (phase : Nat), s.quiet = m → m.hasSL = true → m.sl.zc = none → m.procState ≠ prWarming →
    m1 = upto 3 m (fun m n => m.put (K.LS_FUS_TEMP n) (ofInt 16 (roundRat (m.fuserTemp n)))) → m1.sl.zc = none →
    ∀ m2 : Mach, m2 = m1.modSl (fun x => { x with zc := some (m.now10 + phase) }) → m2.procState ≠ prWarming →
    exec (.zeroCross phase) s = .next (s.settle m2))
  ∧ (∀ (s : State) (m m1 : Mach) (phase t : Nat), s.quiet = m → m.hasSL = true →
    m1 = upto 3 m (fun m n => m.put (K.LS_FUS_TEMP n) (ofInt 16 (roundRat (m.fuserTemp n)))) → m1.sl.zc = some t →
    ∀ m2 : Mach, m2 = (m1.modSl (fun x => { x with zc := some (m.now10 + phase) })).put K.LS_MAINS_HALF
      (min 65535 (roundDiv (m.now10 + phase - t) 100)) → m2.heating = true →
    (769000 ≤ m.now10 + phase - t → m.now10 + phase - t ≤ 1111000 →
      exec (.zeroCross phase) s = .next (s.settle
        (m2.heatStep (m.now10 + phase) (((m.now10 + phase - t : Nat) : Rat) / 100000000)).procAdvance))
    ∧ (m.now10 + phase - t < 769000 →
      exec (.zeroCross phase) s = .next (s.settle ((((m2.put K.LS_FUS_STATE 5).raise 0x2816 []).procFault).procAdvance))))
  ∧ (∀ (s : State) (m : Mach), s.quiet = m → s.admits K.LS_FUS_TRIP_CLEAR (leBytes 1 1) = some 1 →
    (∀ n, n < 3 → m.sl.fusCodes.getD n 0 ≠ 0 ∧ m.sl.fusCodes.getD n 0 ≠ 4095 ∧
      if m.h K.LS_FUS_THM_POL = 1 then m.g (K.LS_FUS_RESET n) < m.sl.fusCodes.getD n 0
      else m.sl.fusCodes.getD n 0 < m.g (K.LS_FUS_RESET n)) →
    exec (.lsFusTripClear 1) s = .next (s.answered K.LS_FUS_TRIP_CLEAR (leBytes 1 1)
      (((if m.g K.LS_FUS_STATE = 3 then m.put K.LS_FUS_STATE 0 else m).put K.LS_FUS_TRIPPED 0).raise 0x2817 [])))
  ∧ (∀ (s : State) (m : Mach) (h t : Nat) (q : Rat), s.quiet = m → (m.sl.heaters.getD h {}).rise = some (t, q) → m.heating = true →
    t + 1000000 * m.g K.LS_FUS_RISE_TIME ≤ m.time → m.fuserTemp h - q < (m.g K.LS_FUS_RISE_MIN : Rat) →
    exec (.heaterFault h) s = .next (s.settle (((m.put K.LS_FUS_STATE 4).raise 0x2815 [h]).procFault)))
  ∧ (∀ (s : State) (m : Mach) (t : Nat), s.quiet = m → m.sl.zc = some t → m.heating = true → t + 2500000 ≤ m.now10 →
    exec .mainsLost s = .next (s.settle (((m.put K.LS_FUS_STATE 5).raise 0x2816 []).procFault)))
  ∧ (∀ (s : State) (m : Mach), s.quiet = m → s.admits K.LS_PROC_CLEAR (leBytes 1 1) = some 1 → m.procState = prFault →
    m.g K.LS_FUS_TRIPPED = 0 → m.g K.LS_PATH_STATE ≠ 2 →
    exec (.lsProcClear 1) s = .next (s.answered K.LS_PROC_CLEAR (leBytes 1 1)
      m.procResume))

/-- Sheets: a pick that begins, a sheet that stands at the gate, its release or the end of its wait, the roller's start, jams, a pick
tried again, and the clearing and purging of the path (R208, R213-R218). -/
def Obligations.SheetPathCompletes : Prop :=
  (∀ (s : State) (m : Mach) (it : Item) (t : Nat), s.quiet = m → m.nextPick = some it → m.pickDue it = true →
    m.g K.LS_FUS_TARGET = m.fuserSet it.mediaClass → m.sl.bandSince = some t → t + 1000 * m.g K.LS_FUS_SETTLE ≤ m.time →
    m.residual = none → exec .pickStart s = .next (s.settle (m.pickBegin it 0)))
  ∧ (∀ (s : State) (m : Mach) (x : SheetRt), s.quiet = m →
    m.sl.sheets.find? (fun x => x.gate.isNone && x.released.isNone && x.missedAt.isNone) = some x → x.plan.end10 ≤ m.now10 →
    m.si (m.h (K.LS_SI 2)) = true →
    exec .sheetAtGate s = .next (s.settle (m.modSheet x.item (fun y => { y with gate := some m.time }))))
  ∧ (∀ (s : State) (m : Mach) (x : SheetRt), s.quiet = m → m.gateSheet = some x → m.g K.LS_PATH_STATE ≤ 1 → m.sl.causeHold = false →
    m.releaseMin ≤ m.time → m.ready rdySL = vReady →
    exec .gateRelease s = .next (s.settle (m.gateRelease s.mem x none)))
  ∧ (∀ (s : State) (m : Mach) (x : SheetRt), s.quiet = m → m.gateSheet = some x → m.g K.LS_PATH_STATE ≤ 1 → m.ready rdySL ≠ vReady →
    max (x.gate.getD m.time) m.releaseMin + 1000 * m.g K.LS_GATE_WAIT ≤ m.time →
    exec .gateWaitExpired s = .next (s.settle ((m.gateRelease s.mem x (some 7)).raise 0x281F [x.item])))
  ∧ (∀ (s : State) (m m1 : Mach) (x : SheetRt) (t : Int) (v : Rat), s.quiet = m →
    m.sl.sheets.find? (fun x => x.released.isSome && !x.rolled) = some x → m.rollAt x = some t → t ≤ (m.time : Int) →
    m.g K.LS_PATH_STATE ≤ 1 → v = m.hvPlan.procV →
    m1 = m.hvPlan.modSheet x.item (fun y => { y with
      rolled := true
      plan := { pieces := joinPieces [rampPiece (10 * (m.hvPlan.h K.LS_PATH_ACCEL : Rat)) 0 0 0 0 v] [flatPiece 0 0 1000000 v]
                start10 := m.hvPlan.now10, origin := 0 } }) →
    exec .rollerStart s = .next (s.settle (m1.axRunUnder (m1.h K.LS_REG_AXIS)
      (mmToPos (m1.h K.LS_REG_AXIS) (m1.h K.LS_PATH_ACCEL : Rat)) (pathSpeed (m1.h K.LS_REG_AXIS) m1.procV))))
  ∧ (∀ (s : State) (m : Mach) (i : Nat) (x : SheetRt), s.quiet = m → m.g K.LS_PATH_STATE ≤ 1 →
    m.sl.sheets.find? (fun x => !(x.lead.contains i) && x.missedAt.isNone
      && decide (m.stagePos i + (m.g K.LS_JAM_LATE : Rat) ≤ m.sheetPos x)) = some x →
    exec (.jamLate i) s = .next (s.settle (if i = 0 then
      (m.modSheet x.item (fun y => { y with missedAt := some m.time })).axHalt (m.h K.LS_PICK_AXIS) (m.axis (m.h K.LS_PICK_AXIS)).dStop
      else m.jamStop 1 i x.item)))
  ∧ (∀ (s : State) (m : Mach) (i : Nat) (x : SheetRt), s.quiet = m → m.g K.LS_PATH_STATE ≤ 1 →
    m.sl.sheets.find? (fun x => x.lead.contains i && !(x.trail.contains i)
      && decide (m.stagePos i + (x.length : Rat) + (m.g K.LS_JAM_LATE : Rat) ≤ m.sheetPos x)) = some x →
    exec (.jamStay i) s = .next (s.settle (m.jamStop 3 i x.item)))
  ∧ (∀ (s : State) (m : Mach) (x : SheetRt) (it : Item), s.quiet = m → m.g K.LS_PATH_STATE ≤ 1 →
    m.sl.sheets.find? (fun x => match x.missedAt with | some t => decide (t + 100000 ≤ m.time) | none => false) = some x →
    m.item? x.item = some it →
    exec .pickRetry s = .next (s.settle
      (if x.tries < m.g K.LS_PICK_RETRIES then (m.raise 0x281E []).pickBegin it (x.tries + 1) else m.jamStop 6 0 x.item)))
  ∧ (∀ (s : State) (m m1 : Mach), s.quiet = m → s.admits K.LS_JAM_CLEAR (leBytes 1 1) = some 1 → m.g K.LS_PATH_STATE = 2 →
    (∀ i, i < 7 → m.si (m.h (K.LS_SI i)) = false ∧ m.motion.siAt.getD (m.h (K.LS_SI i)) 0 + 1000000 ≤ m.time) →
    m1 = ((m.modSl (fun x => { x with sheets := [], wins := [], pages := x.pages.filter (fun p => p.blank.isNone) })).put K.LS_PATH_STATE 0).put
      K.LS_SHEETS 0 → m1.g K.LS_FUS_TRIPPED = 0 →
    exec (.lsJamClear 1) s = .next (s.answered K.LS_JAM_CLEAR (leBytes 1 1)
      (m1.procResume.raise 0x2819 [])))
  ∧ (∀ (s : State) (m m1 : Mach), s.quiet = m → s.admits K.LS_PURGE (leBytes 1 1) = some 1 → m.g K.LS_PATH_STATE = 0 →
    m.itemsOf 4 (fun it => it.state == .admitted || it.state == .printing) = [] →
    m1 = ((m.put K.LS_PATH_STATE 3).put K.LS_PURGED 0).modSl (fun x => { x with purgeAt := m.time }) →
    exec (.lsPurge 1) s = .next (s.answered K.LS_PURGE (leBytes 1 1)
      ([m1.h K.LS_REG_AXIS, m1.h K.LS_DRUM_AXIS, m1.h K.LS_FUSER_AXIS, m1.h K.LS_EXIT_AXIS].foldl
        (fun m a => m.axRun a (pathSpeed a m.procV)) m1)))
  ∧ (∀ (s : State) (m m1 : Mach), s.quiet = m → m.g K.LS_PATH_STATE = 3 →
    m.sl.purgeAt + ceilDiv (m.g K.LS_PURGE_DIST * 1000000) m.procV ≤ m.time → m1 = m.put K.LS_PATH_STATE 0 →
    ∀ m2 : Mach, m2 = ((if m1.procState = prReady ∨ m1.procState = prWarming then [m1.h K.LS_REG_AXIS]
      else [m1.h K.LS_REG_AXIS, m1.h K.LS_DRUM_AXIS, m1.h K.LS_FUSER_AXIS, m1.h K.LS_EXIT_AXIS]).foldl (fun m a => m.axRun a 0) m1).raise
        0x281A [m1.g K.LS_PURGED] → m2.residual = none →
    exec .purgeDone s = .next (s.settle m2))

/-! ### Motion, ch. 10 -/

/-- The axis table and its refresh, enabling and disabling an axis, and the commands that move or stop it: each is judged at its write
and waits for its tick, armed where the axis is in a start group (R226-R239, R241, R244, R247).
The limits of an axis in use, each up to its entry's maximum, wait for the next tick (R231). -/
def Obligations.AxisSetupCompletes : Prop :=
  (∀ (s : State) (m : Mach) (v : Nat), s.quiet = m → s.admits K.AX_TABLE_BASE (leBytes 8 v) = some v → v % 256 = 0 →
    v + 10240 ≤ 0xC0000000 → (∀ n, n < m.nAxes → m.axState n = axDisabled) →
    exec (.axTableBase v) s = .next (s.answered K.AX_TABLE_BASE (leBytes 8 v) (m.put K.AX_TABLE_BASE v)))
  ∧ (∀ (s : State) (m : Mach) (n : Nat), s.quiet = m → s.admits K.AX_REFRESH (leBytes 1 n) = some n → n < m.nAxes →
    exec (.axRefresh n) s = .next (s.settle (m.modAxis n (fun a => { a with
      waiting := a.waiting ++ [(m.time, .refresh (s.mem.read (m.g K.AX_TABLE_BASE + 256 * n) 256) .local)] }))))
  ∧ (∀ (s : State) (m m1 : Mach) (ax : Nat) (ds : List Nat), s.quiet = m → s.admits (K.AX_ENABLE ax) (leBytes 1 1) = some 1 →
    m.axState ax = axDisabled → (m.axis ax).kind ≠ 0 →
    m1 = (List.range (m.axis ax).ports.length).foldl
      (fun m' i => m'.put (K.PP_CMP_DELAY (m'.phys ((m.axis ax).ports.getD i 0))) (ds.getD i 0 % 2 ^ 16)) ((m.axEnableCore ax).commanded ax) →
    exec (.axEnable ax 1 none ds) s = .next (s.answered (K.AX_ENABLE ax) (leBytes 1 1)
      (if (m.axis ax).ports.any m1.portDead then m1.axStop ax 8 else m1)))
  ∧ (∀ (s : State) (m : Mach) (ax : Nat) (f : Option Nat) (ds : List Nat), s.quiet = m →
    s.admits (K.AX_ENABLE ax) (leBytes 1 0) = some 0 → m.axState ax ≠ axDisabled → m.axState ax ≠ axStopped → m.axVel ax = 0 →
    exec (.axEnable ax 0 f ds) s = .next (s.answered (K.AX_ENABLE ax) (leBytes 1 0) (m.axDisableCore ax)))
  ∧ (∀ (s : State) (m : Mach) (ax : Nat), s.quiet = m → s.admits (K.AX_CLEAR ax) (leBytes 1 1) = some 1 →
    m.axState ax = axStopped → m.causePersists ax = false →
    exec (.axClear ax 1) s = .next (s.answered (K.AX_CLEAR ax) (leBytes 1 1) (m.axDisableCore ax)))
  ∧ (∀ (s : State) (m : Mach) (ax v : Nat), s.quiet = m → s.admits (K.AX_GROUP ax) (leBytes 1 v) = some v → m.axOwner ax = 0 →
    exec (.axGroup ax v) s = .next (s.answered (K.AX_GROUP ax) (leBytes 1 v) ((m.axDisarm ax).put (K.AX_GROUP ax) v)))
  ∧ (∀ (s : State) (m : Mach) (g : Nat), s.quiet = m → s.admits (K.SG_START g) (leBytes 1 1) = some 1 →
    exec (.sgStart g 1) s = .next (s.answered (K.SG_START g) (leBytes 1 1)
      { m with motion := { m.motion with starts := m.motion.starts ++ [(g, m.time)] } }))
  ∧ (∀ (s : State) (m : Mach) (ax v : Nat), s.quiet = m → m.axOwner ax = 0 → (m.axis ax).kind ≠ 4 →
    (s.admits (K.AX_SPEED ax) (leBytes 4 v) = some v → v ≤ (m.axis ax).vMax →
      exec (.axSpeed ax v) s = .next (s.answered (K.AX_SPEED ax) (leBytes 4 v)
        ((m.put (K.AX_SPEED ax) v).modAxis ax (fun a => { a with waiting := a.waiting ++ [(m.time, .speed v)] }))))
    ∧ (s.admits (K.AX_ACCEL ax) (leBytes 4 v) = some v → v ≤ (m.axis ax).aMax →
      exec (.axAccel ax v) s = .next (s.answered (K.AX_ACCEL ax) (leBytes 4 v)
        ((m.put (K.AX_ACCEL ax) v).modAxis ax (fun a => { a with waiting := a.waiting ++ [(m.time, .accel v)] }))))
    ∧ (s.admits (K.AX_DECEL ax) (leBytes 4 v) = some v → v ≤ (m.axis ax).dMax →
      exec (.axDecel ax v) s = .next (s.answered (K.AX_DECEL ax) (leBytes 4 v)
        ((m.put (K.AX_DECEL ax) v).modAxis ax (fun a => { a with waiting := a.waiting ++ [(m.time, .decel v)] }))))
    ∧ (s.admits (K.AX_JERK ax) (leBytes 4 v) = some v → ((m.axis ax).jMax = 0 ∨ v ≤ (m.axis ax).jMax) →
      exec (.axJerk ax v) s = .next (s.answered (K.AX_JERK ax) (leBytes 4 v)
        ((m.put (K.AX_JERK ax) v).modAxis ax (fun a => { a with waiting := a.waiting ++ [(m.time, .jerk v)] })))))

/-- A motion command of a free axis is accepted: armed in a start group, else waiting for its tick (R231-R236, R241, R244, R255). -/
def Obligations.AxisCommandsComplete : Prop :=
  ∀ (s : State) (m : Mach) (ax : Nat), s.quiet = m → (m.axis ax).kind ≠ 4 → m.axFree ax = true →
    ((m.axis ax).homeRequired = false ∨ m.g (K.AX_POS_LOST ax) = 0) →
    (∀ v : Nat, s.admits (K.AX_TARGET ax) (leBytes 4 v) = some v → m.softApply ax = false →
      (∀ d : Int, m.limitAhead ax d 0xFF = false) →
      exec (.axTarget ax v) s = .next (s.answered (K.AX_TARGET ax) (leBytes 4 v)
        ((m.put (K.AX_TARGET ax) v).axAccept ax (.target (sext 32 v)))))
    ∧ (∀ v : Nat, s.admits (K.AX_VELOCITY ax) (leBytes 4 v) = some v → m.limitAhead ax (sext 32 v) 0xFF = false →
      exec (.axVelocity ax v) s = .next (s.answered (K.AX_VELOCITY ax) (leBytes 4 v)
        ((m.put (K.AX_VELOCITY ax) v).axAccept ax (.velocity (sext 32 v)))))
    ∧ (∀ v : Nat, s.admits (K.AX_CURRENT ax) (leBytes 2 v) = some v → ((m.axis ax).kind ≠ 1 ∨ (m.axis ax).enc ≠ 0xFF) →
      m.limitAhead ax (sext 16 v) 0xFF = false →
      exec (.axCurrent ax v) s = .next (s.answered (K.AX_CURRENT ax) (leBytes 2 v)
        ((m.put (K.AX_CURRENT ax) v).axAccept ax (.current (sext 16 v)))))
    ∧ (s.admits (K.AX_FOLLOW ax) (leBytes 1 1) = some 1 → (m.axis ax).sd ≠ 0xFF →
      exec (.axFollow ax 1) s = .next (s.answered (K.AX_FOLLOW ax) (leBytes 1 1)
        ((m.put (K.AX_FOLLOW ax) 1).axAccept ax (.follow true))))
    ∧ (s.admits (K.AX_HOME ax) (leBytes 1 1) = some 1 → (∀ d : Int, m.limitAhead ax d (m.axis ax).homeSi = false) →
      exec (.axHome ax 1) s = .next (s.answered (K.AX_HOME ax) (leBytes 1 1) (m.axAccept ax .home)))

/-- A halt waits for its tick and discards the armed command; a stop acts at once, on owned axes too, and the axis keeps its
position (R236, R237, R239). -/
def Obligations.AxisStopsComplete : Prop :=
  (∀ (s : State) (m : Mach) (ax : Nat), s.quiet = m → s.admits (K.AX_HALT ax) (leBytes 1 1) = some 1 → m.axOwner ax = 0 →
    m.axEnabled ax = true → (m.axis ax).kind ≠ 4 →
    exec (.axHalt ax 1) s = .next (s.answered (K.AX_HALT ax) (leBytes 1 1)
      (((m.axDisarm ax).modAxis ax (fun a => { a with waiting := a.waiting ++ [((m.axDisarm ax).time, .halt)] })).commanded ax)))
  ∧ (∀ (s : State) (m : Mach) (ax : Nat), s.quiet = m → s.admits (K.AX_STOP ax) (leBytes 1 1) = some 1 → m.axEnabled ax = true →
    (m.axOwner ax = 0 → exec (.axStop ax 1) s = .next (s.answered (K.AX_STOP ax) (leBytes 1 1) (m.axCut ax 1)))
    ∧ (1 ≤ m.axOwner ax → m.axOwner ax ≤ 4 → exec (.axStop ax 1) s = .next (s.answered (K.AX_STOP ax) (leBytes 1 1)
      ((m.axCut ax 1).stationAxisStop (m.axOwner ax - 1) ax 1)))
    ∧ (m.axOwner ax = 5 → exec (.axStop ax 1) s = .next (s.answered (K.AX_STOP ax) (leBytes 1 1) ((m.axCut ax 1).jamStop 7 0 0))))

/-- At a moment that is a multiple of 20 µs the planning tick runs once: the waiting commands and starts are taken and the axes planned
(Mach.tick), the short-circuit check of both buses, the camera triggers and the inspection boundaries follow (R223, R227, R272). -/
def Obligations.PlanningTickCompletes : Prop :=
  ∀ (s : State) (m : Mach), s.quiet = m → m.time % 20 = 0 → m.motion.lastTick ≠ some m.time →
    exec .planningTick s = .next (s.settle
      ((((m.tick s.mem).shortRegen 0).shortRegen 1).camTriggers).inspBoundary)

/-- Encoder counts, with their illegal changes, the index latch, step/direction inputs and sense inputs: an edge not yet accepted and one
that is (R240, R243, R244). -/
def Obligations.MotionInputsComplete : Prop :=
  (∀ (s : State) (m m1 : Mach) (qe phase old new d : Nat) (a b : Bool), s.quiet = m → m.gb (K.QE_ENABLE qe) = true →
    old = m.motion.qePhase.getD qe 0 → new = b2n a + 2 * b2n b → d = grayMoved old new →
    m1 = { m with motion := { m.motion with qePhase := m.motion.qePhase.set qe new } } →
    (d = 0 → exec (.encoderCountChange qe a b phase) s = .next (s.settle m1))
    ∧ (∀ m2 : Mach, m2 = (m1.count (K.QE_ERRORS qe)).raise 0x2A07 [qe] → d = 2 →
      exec (.encoderCountChange qe a b phase) s = .next (s.settle
        (upto m2.nAxes m2 (fun m n =>
          if (m.axis n).enc = qe ∧ ((m.axis n).followCheck = true ∨ (m.axis n).kind = 3) then m.axStop n 4 else m))))
    ∧ (∀ (m2 m3 : Mach) (t : Nat) (c : Int), d = 1 ∨ d = 3 → c = m.gi 32 (K.QE_COUNT qe) → t = m.now10 + phase →
      m2 = { m1 with motion := { m1.motion with
        qeHist := (t, qe, c) :: m1.motion.qeHist.filter (fun (e : Nat × Nat × Int) => decide (t < e.1 + 2000000)) } }.puti
          32 (K.QE_COUNT qe) (c + (if (d = 1) = (m.h (K.QE_INVERT qe) = 0) then 1 else -1)) →
      m3 = upto m2.nStations m2 (fun m st =>
        if m.configured st && m.h (K.TH_TRIG_SRC st) == qe + 1
        then (m.stationPorts st).foldl (fun m' h => m'.encoderAt h (m2.gi 32 (K.QE_COUNT qe) * 65536) t) m else m) →
      exec (.encoderCountChange qe a b phase) s = .next (s.settle m3.camTriggers.inspBoundary)))
  ∧ (∀ (s : State) (m : Mach) (qe : Nat), s.quiet = m → m.gb (K.QE_ENABLE qe) = true →
    exec (.qeIndex qe) s = .next (s.settle (m.put (K.QE_INDEX_LATCH qe) (m.g (K.QE_COUNT qe)))))
  ∧ (∀ (s : State) (m m1 : Mach) (sd phase : Nat) (dir : Bool), s.quiet = m → m.gb (K.SD_ENABLE sd) = true →
    m1 = { m with motion := { m.motion with sdLast := m.motion.sdLast.set sd (some (m.now10 + phase)) } }.puti 32
      (K.SD_COUNT sd) (m.gi 32 (K.SD_COUNT sd) + (if dir != (m.h (K.SD_DIR_INVERT sd) == 1) then 1 else -1)) →
    (∀ t, m.motion.sdLast.getD sd none = some t → t + 20 ≤ m.now10 + phase) →
    exec (.sdStep sd dir phase) s = .next (s.settle
      (upto m1.nAxes m1 (fun m' n => match (m'.axis n).mode with
        | .follow false => if (m'.axis n).sd = sd
          then m'.followStep n (if dir != (m.h (K.SD_DIR_INVERT sd) == 1) then 1 else -1) (m.now10 + phase) else m'
        | _ => m'))))
  ∧ (∀ (s : State) (m : Mach) (si phase : Nat) (high : Bool), s.quiet = m → m.si si = (high != bit (m.g (K.SI_CFG si)) 0) →
    exec (.senseInputEdge si high phase) s = .next (s.settle m))
  ∧ (∀ (s : State) (m m1 m2 m3 : Mach) (si phase st : Nat) (high active : Bool), s.quiet = m →
    active = (high != bit (m.g (K.SI_CFG si)) 0) → m.si si ≠ active → st = m.siStamp si phase →
    m1 = ((m.put K.SI_STATE (withBit (m.g K.SI_STATE) si active)).count (K.SI_EDGES si)).sampleSi si →
    m2 = upto m1.nStations m1 (fun m' x => m'.mediaEdge x si active (m'.linePosAt x st)) →
    m3 = (m2.pathEdge si active).axisEdge si active st →
    exec (.senseInputEdge si high phase) s = .next (s.settle
      (if active then upto 4 m3 (fun m' g => if m'.g (K.SG_TRIG_SI g) = si then m'.askStart g (ceilDiv st 100) else m') else m3)))

/-! ### Motor drives, ch. 11 -/

/-- Stepper drives and choppers: the micro-step address follows the planned position, the chopper turns off at its upper and on at its
lower threshold with its times reported, a conduction longer than MAX_ON faults the axis, a measured comparator delay is kept, an
offset loop resumes, and a port whose readback differs hands over (R224, R251, R254, R256, R257, R267). -/
def Obligations.ChopperCommandsComplete : Prop :=
  (∀ (s : State) (m m1 : Mach), s.quiet = m → upto m.nAxes m (fun m' n => m'.stepperUpdate n) = m1 →
    exec .stepperAddressUpdate s = .next (s.settle m1))
  ∧ (∀ (m m1 : Mach) (n pa pb ad : Nat) (ps : List Nat), (m.axis n).kind = 1 → m.axEnabled n = true →
    (∀ ma, (m.axis n).mode ≠ .current ma) → (m.axis n).ports = pa :: pb :: ps →
    ad = (if (m.axis n).dirInvert then (512 - (m.axis n).addrOf (m.axPos n)) % 512 else (m.axis n).addrOf (m.axPos n)).toNat →
    m1 = m.put (K.AX_ADDR n) ad → m1.drives n = true →
    m.stepperUpdate n = (m1.setWinding (m1.phys pa)
        ((m.axis n).stepAmp * (sfld (m.axis n).drive.table (2 * ((ad + 128) % 512)) 2 : Rat) / 32767)).setWinding (m1.phys pb)
        ((m.axis n).stepAmp * (sfld (m.axis n).drive.table (2 * (ad % 512)) 2 : Rat) / 32767))
  ∧ (∀ (s : State) (m m0 : Mach) (pp n phase ns : Nat), s.quiet = m → ns = 1000 * m.time + 2 * phase → m0 = m.decayDue pp ns →
    m0.chopAxis pp = some n →
    ((m0.port pp).driving = true →
      exec (.chopperComparator pp true phase) s = .next (s.settle
        ((m0.modPort pp (fun x => { x with driving := false, since := ns })).put (K.PP_T_ON pp) ((ns - (m0.port pp).since) % 2 ^ 32))))
    ∧ (∀ m1 : Mach, (m0.port pp).driving = false → (m0.port pp).changed = true → 10 * (m0.axis n).f 0x8A 2 ≤ ns - (m0.port pp).since →
      m1 = (m0.modPort pp (fun x => { x with driving := true, since := ns, lowSeen := false })).put (K.PP_T_OFF pp)
        ((ns - (m0.port pp).since) % 2 ^ 32) →
      exec (.chopperComparator pp false phase) s = .next (s.settle (m1.modPort pp (fun x => { x with changed := false }))))
    ∧ ((m0.port pp).driving = false → ns - (m0.port pp).since < 10 * (m0.axis n).f 0x8A 2 →
      exec (.chopperComparator pp false phase) s = .next (s.settle (m0.modPort pp (fun x => { x with lowSeen := true })))))
  ∧ (∀ (s : State) (m : Mach) (pp n : Nat), s.quiet = m → m.chopAxis pp = some n → (m.port pp).driving = true →
    (m.port pp).since + 1000 * (m.axis n).f 0x8E 2 ≤ 1000 * m.time →
    exec (.maxOnExpired pp) s = .next (s.settle (m.drvFault n 3)))
  ∧ (∀ (s : State) (m : Mach) (pp n d : Nat), s.quiet = m → m.chopAxis pp = some n → (m.port pp).driving = false →
    exec (.cmpDelayMeasure pp d) s = .next (s.settle (m.put (K.PP_CMP_DELAY pp) d)))
  ∧ (∀ (s : State) (m : Mach) (pp : Nat), s.quiet = m → s.admits (K.PP_OFS_UNFREEZE pp) (leBytes 1 1) = some 1 →
    exec (.ppOfsUnfreeze pp 1) s = .next (s.answered (K.PP_OFS_UNFREEZE pp) (leBytes 1 1)
      (if m.g (K.PP_OFS_STATUS pp) = 3 then (m.modPort pp (fun x => { x with pinned := 0 })).put (K.PP_OFS_STATUS pp) 0 else m)))
  ∧ (∀ (s : State) (m m1 : Mach) (pp n : Nat), s.quiet = m → pp < m.nPortsAll → pp < 96 → (m.port pp).failed = false →
    m1 = (m.modPort pp (fun x => { x with failed := true })).raise 0x2B01 [pp, 1] → m1.portAxis pp = some n →
    exec (.phasePortFailed pp) s = .next (s.settle ((m1.axStop n 8).takeOver pp)))

/-- An axis at rest takes its standstill action, a DC axis's current follows its speed loop, an actuator goes over to its hold current,
and the sensorless start, its handover and the flying start end as the measured speed says (R258, R259, R264, R265). -/
def Obligations.DriveLoopsComplete : Prop :=
  (∀ (s : State) (m : Mach) (ax : Nat), s.quiet = m → (m.axis ax).kind = 1 → m.axEnabled ax = true → m.axVel ax = 0 →
    (m.axis ax).queue = [] → (∀ ma, (m.axis ax).mode ≠ .current ma) → (m.axis ax).focHeld = false →
    (m.axis ax).restSince + 1000 * (m.axis ax).f 0x84 2 ≤ m.time →
    ((m.axis ax).f 0x86 1 % 4 = 0 → exec (.standstill ax) s = .next (s.settle (m.modAxis ax (fun a => { a with
      drive := { a.drive with bridge := .standstill, level := .hold } }))))
    ∧ ((m.axis ax).f 0x86 1 % 4 = 2 → exec (.standstill ax) s = .next (s.settle (m.modAxis ax (fun a => { a with
      drive := { a.drive with bridge := .shorted, level := .none, foc := .off } }))))
    ∧ ((m.axis ax).f 0x86 1 % 4 = 1 → exec (.standstill ax) s = .next (s.settle (m.modAxis ax (fun a => { a with
      drive := { a.drive with bridge := .highZ, level := .none, foc := .off } })))))
  ∧ (∀ (s : State) (m : Mach) (ax p : Nat) (ps : List Nat) (v : Int) (i z : Rat), s.quiet = m → (m.axis ax).kind = 3 →
    m.drives ax = true → m.currentRef ax (v : Rat) (m.axVel ax) (m.axFollowErr ax) (1 / 100000) = (i, z) → (m.axis ax).ports = p :: ps →
    ∀ m1 : Mach, m1 = m.modAxis ax (fun a => { a with drive := { a.drive with iq := i, speedInt := z } }) →
    exec (.dcLoopUpdate ax v) s = .next (s.settle (m1.setWinding (m1.phys p) (if (m.axis ax).dirInvert then -i else i))))
  ∧ (∀ (s : State) (m : Mach) (ax : Nat), s.quiet = m → (m.axis ax).kind = 4 → (m.axis ax).drive.energised = true →
    m.axEnabled ax = true → (m.axis ax).drive.pullSince + 1000 * (m.axis ax).f 0x84 2 ≤ m.time →
    exec (.actuatorPullInEnd ax) s = .next (s.settle (m.modAxis ax (fun a => { a with
      drive := { a.drive with level := .hold } }))))
  ∧ (∀ (s : State) (m : Mach) (ax : Nat), s.quiet = m → ((m.axis ax).drive.foc = .align ∨ (m.axis ax).drive.foc = .openLoop) →
    (m.axis ax).drive.focSince + 1000 * ((m.axis ax).f 0xCA 2 + (m.axis ax).f 0xCC 2 + 100) ≤ m.time →
    exec (.handoverTimeout ax) s = .next (s.settle (m.drvFault ax 5)))
  ∧ (∀ (s : State) (m : Mach) (ax : Nat), s.quiet = m → (m.axis ax).sensorless = true → (m.axis ax).drive.foc = .closed →
    (((m.axis ax).f 0xC6 2 : Rat) ≤ (m.axis ax).toRpm (m.axVel ax) ∨ ((m.axis ax).f 0xC6 2 : Rat) ≤ -(m.axis ax).toRpm (m.axVel ax)) →
    exec (.observerLost ax) s = .next (s.settle (m.drvFault ax 4)))
  ∧ (∀ (s : State) (m : Mach) (ax : Nat) (rpm : Int), s.quiet = m → (m.axis ax).drive.foc = .probe →
    (m.axis ax).drive.focSince + 1000 * (m.axis ax).f 0xD2 2 ≤ m.time →
    (rpm = 0 → 0 < (m.axis ax).f 0xC4 2 →
      exec (.flyProbeEnd ax rpm) s = .next (s.settle (((m.modAxis ax (fun a => { a with
        drive := { a.drive with foc := .align, focSince := m.time, flyDue := false } })).put (K.AX_FLY_RESULT ax) 1).raise
          0x2B05 [ax, 1, ofInt 32 rpm])))
    ∧ (0 < rpm → 0 < m.commandSign ax → ((m.axis ax).f 0xC4 2 : Rat) / 50 ≤ (rpm : Rat) → ((m.axis ax).f 0xC6 2 : Rat) ≤ (rpm : Rat) →
      exec (.flyProbeEnd ax rpm) s = .next (s.settle ((((m.modAxis ax (fun a => { a with
        drive := { a.drive with foc := .closed, flyDue := false } })).modAxis ax (fun a => { a.settleAt m.now10 with
          vel := (rpm : Rat) * (a.posPerRev : Rat) / 60, acc := 0, replan := true })).put (K.AX_FLY_RESULT ax) 2).raise
          0x2B05 [ax, 2, ofInt 32 rpm]))))
  ∧ (∀ (s : State) (m : Mach) (ax : Nat), s.quiet = m → (m.axis ax).drive.foc = .brake →
    (m.axis ax).drive.focSince + 1000 * (m.axis ax).f 0xD6 2 ≤ m.time →
    exec (.flyBrakeTimeout ax) s = .next (s.settle (m.drvFault ax 6)))

/-- A PWM period of a field-oriented axis in drive runs its current loops and reports the measured currents and the speed of the
angle source (R260-R264). -/
def Obligations.PwmPeriodCompletes : Prop :=
  ∀ (s : State) (m m1 : Mach) (ax angle : Nat) (cur : List Int) (rpm : Int) (id iq : Rat), s.quiet = m → (m.axis ax).kind = 2 →
    m.drives ax = true → (m.axis ax).drive.foc ≠ .probe → m.currentLoops ax cur angle rpm = (m1, id, iq) →
    exec (.pwmPeriod ax cur angle rpm) s = .next (s.settle
      (((m1.putFit16 (K.AX_I_D ax) (roundRat id)).putFit16 (K.AX_I_Q ax) (roundRat iq)).puti 32 (K.AX_RPM ax)
        (roundRat ((m1.sosRpm ax).getD ((m.axis ax).sense * (rpm : Rat))))))

/-- Over-current and the fault pins stop their axes with a drive fault (R267).
The buses: the brake chopper turns on above its level, an over-voltage cuts the bus, a chopper that does not answer has failed, shorted
windings are released, and the cut and the failure are cleared (R268-R272). -/
def Obligations.DriveFaultsAndBusesComplete : Prop :=
  (∀ (s : State) (m : Mach) (pp n : Nat), s.quiet = m → m.workAxis pp = some n → m.axEnabled n = true →
    exec (.overCurrent pp) s = .next (s.settle ((m.count (K.PP_OC_TRIPS pp)).drvFault n 1)))
  ∧ (∀ (s : State) (m : Mach) (g : Nat), s.quiet = m →
    (∀ n, n < m.nAxes → (∀ p, p ∈ (m.axis n).ports → p / 4 ≠ g) ∨ m.axEnabled n = false) →
    exec (.drvFltN g) s = .next (s.settle m))
  ∧ (∀ (s : State) (m : Mach) (g n : Nat), s.quiet = m → n < m.nAxes → (∃ p, p ∈ (m.axis n).ports ∧ p / 4 = g) → m.axEnabled n = true →
    (∀ k, k < m.nAxes → k ≠ n → (∀ p, p ∈ (m.axis k).ports → p / 4 ≠ g) ∨ m.axEnabled k = false) →
    (∀ k, k < m.nAxes → k ≠ n → (∀ p, p ∈ ((m.drvFault n 2).axis k).ports → p / 4 ≠ g) ∨ (m.drvFault n 2).axEnabled k = false) →
    exec (.drvFltN g) s = .next (s.settle (m.drvFault n 2)))
  ∧ (∀ (s : State) (m m1 m2 : Mach) (b mv : Nat), s.quiet = m → 100 * m.g (K.BUS_BRK_ON b) ≤ mv → 100 * m.g (K.BUS_WARN b) ≤ mv →
    (m.busRt b).onSince = none → (m.busRt b).warning = true →
    m1 = m.modBus b (fun x => { x with
      level := mv, warning := true, braking := true, brakeMicros := (m.busRt b).brakeMicros
      onSince := some (x.onSince.getD m.time), onVoltage := if !x.braking then m.busVoltage b else x.onVoltage
      checked := if !x.braking then false else x.checked }) →
    m2 = (m1.showBus b).shortRegen b →
    exec (.busLevelCrossing b mv) s = .next (s.settle (if 100 * m2.g (K.BUS_OV_CUT b) ≤ mv then m2.busCut b else m2))
    ∧ (mv = max (m.busRt b).level (100 * m.g (K.BUS_OV_CUT b)) →
      exec (.busOvCut b) s = .next (s.settle (if 100 * m2.g (K.BUS_OV_CUT b) ≤ mv then m2.busCut b else m2))))
  ∧ (∀ (m m1 : Mach) (b : Nat), (m.busRt b).cut = false →
    m1 = (m.busAxes b).foldl (fun m n => m.axStop n 6)
      ((((m.modBus b (fun x => { x with cut := true })).showBus b).count (K.BUS_CUTS b)).raise 0x2B13 [b]) →
    m.busCut b = upto m1.nAxes m1 (fun m n => if (m.axis n).bus = b ∧ (m.axis n).kind ≠ 0 then
      m.modAxis n (fun a => { a with drive := { a.drive with bridge := .highZ } }) else m))
  ∧ (∀ (s : State) (m : Mach) (b t : Nat), s.quiet = m → (m.busRt b).onSince = some t → m.gb (K.BUS_FB_ENABLE b) = true →
    t + m.g (K.BUS_FB_TIME b) ≤ m.time → (m.busRt b).failed = false →
    exec (.chopperFbTimeout b) s = .next (s.settle (((m.busAxes b).filter m.regenerates).foldl (fun m n => m.drvFault n 7)
      (((m.modBus b (fun x => { x with failed := true })).showBus b).raise 0x2B12 [b, 1, ((m.busAxes b).filter m.regenerates).length]))))
  ∧ (∀ (s : State) (m : Mach) (b t : Nat), s.quiet = m → (m.busRt b).onSince = some t → (m.busRt b).checked = false → t + 200 ≤ m.time →
    exec (.chopperRiseCheck b) s = .next (s.settle
      (if m.g (K.BUS_RISE_TOL b) < 10 * (m.busVoltage b - (m.busRt b).onVoltage)
       then (m.modBus b (fun x => { x with checked := true })).chopperFail b 2 else m.modBus b (fun x => { x with checked := true }))))
  ∧ (∀ (s : State) (m : Mach) (ax : Nat), s.quiet = m → m.axState ax = axStopped → (m.axis ax).drive.bridge = .shorted →
    ((m.axis ax).kind = 2 ∨ (m.axis ax).drive.shortSince + 100000 ≤ m.time) →
    exec (.shortRelease ax) s = .next (s.settle (m.modAxis ax (fun a => { a with drive := { a.drive with bridge := .highZ } }))))
  ∧ (∀ (s : State) (m : Mach) (b : Nat), s.quiet = m → s.admits (K.BUS_CLEAR b) (leBytes 1 1) = some 1 → (m.busRt b).cut = true →
    m.busLow b = true →
    exec (.busClear b 1) s = .next (s.answered (K.BUS_CLEAR b) (leBytes 1 1)
      (((m.modBus b (fun x => { x with cut := false })).showBus b).raise 0x2B14 [b])))
  ∧ (∀ (s : State) (m : Mach) (b : Nat), s.quiet = m → s.admits (K.BUS_BRK_CLEAR b) (leBytes 1 1) = some 1 →
    (m.busRt b).failed = true → m.busLow b = true →
    exec (.busBrkClear b 1) s = .next (s.answered (K.BUS_BRK_CLEAR b) (leBytes 1 1)
      (((m.modBus b (fun x => { x with failed := false })).showBus b).raise 0x2B15 [b])))
  ∧ (∀ (s : State) (m m1 : Mach) (b w v : Nat) (bs : List Byte), s.quiet = m → w < 3 → bs = leBytes 2 v →
    s.admits (busLevelKey b w) bs = some v → m1 = m.put (busLevelKey b w) v →
    m1.g (K.BUS_WARN b) ≤ m1.g (K.BUS_BRK_OFF b) → m1.g (K.BUS_BRK_OFF b) < m1.g (K.BUS_BRK_ON b) →
    m1.g (K.BUS_BRK_ON b) < m1.g (K.BUS_OV_CUT b) → (m1.g (K.BUS_OV_CUT b) : Rat) < (m1.gf (K.BUS_DIV b)).val * 18 →
    exec (.busLevelWrite b w v) s = .next (s.answered (busLevelKey b w) bs (m1.busLevel b (m.busRt b).level)))
  ∧ (∀ (s : State) (m : Mach) (b : Nat) (ty : ObjTy), s.quiet = m → s.reads (K.BUS_PEAK b) = some ty →
    exec (.busPeak b) s = .next (s.shown ty (m.g (K.BUS_PEAK b)) (m.put (K.BUS_PEAK b) (m.g (K.BUS_VOLTAGE b)))))

/-! ### Inspection, ch. 12 -/

/-- A camera port: its enable, the identity read by a probe, the end of its reset, the replay of its initialisation and a restart
(R276-R279, R297).
Packets of an armed or ready port and its frame timeout: a frame begins, takes rows and ends (R275, R278, R279, R282-R284). -/
def Obligations.CameraCommandsComplete : Prop :=
  (∀ (s : State) (m m1 : Mach) (cp : Nat), s.quiet = m → s.admits (K.CP_ENABLE cp) (leBytes 1 1) = some 1 → cp % 2 = 0 →
    m.g (K.CP_ENABLE cp) = 0 → m1 = ((m.sample (camKeys cp)).put (K.CP_ENABLE cp) 1).modCam cp (fun _ => {}) →
    exec (.cpEnable cp 1) s = .next (s.settle (Mach.inspSettle s.mem
      { m1 with out := .reply .ok (m1.writeAnswer (K.CP_ENABLE cp) (leBytes 1 1)) :: m1.out })))
  ∧ (∀ (s : State) (m m1 : Mach) (cp v : Nat), s.quiet = m → m.gb (K.CP_ENABLE cp) = true → (m.cam cp).probeAt = none →
    m1 = ((m.modCam cp (fun x => { x with probeAt := some m.time })).modCam cp (fun x => { x with misses := 0 })).put (K.CP_PRESENT cp) 1 →
    exec (.cameraProbe cp (some v)) s = .next (s.settle
      (if m1.g (K.CP_STATE cp) = vOff then m1.camFit cp (v % 65536) else m1)))
  ∧ (∀ (s : State) (m m1 : Mach) (cp t : Nat), s.quiet = m → m.gb (K.CP_ENABLE cp) = true → (m.cam cp).probeAt = some t →
    t + 1000 * m.g (K.CP_PROBE_PERIOD cp) ≤ m.time →
    m1 = (m.modCam cp (fun x => { x with probeAt := some m.time })).modCam cp (fun x => { x with misses := (m.cam cp).misses + 1 }) →
    exec (.cameraProbe cp none) s = .next (s.settle
      (if (m.cam cp).misses + 1 < 3 ∨ m1.g (K.CP_PRESENT cp) = 0 then m1 else Mach.inspSettle s.mem (m1.camRemoved cp))))
  ∧ (∀ (s : State) (m : Mach) (cp : Nat), s.quiet = m → (m.cam cp).step = .reset →
    (m.cam cp).fitAt + 1000 + 1000 * m.h (K.CP_RESET_WAIT cp) ≤ m.time →
    exec (.cameraResetEnd cp) s = .next (s.settle (m.modCam cp (fun x => { x with step := .replay }))))
  ∧ (∀ (s : State) (m : Mach) (cp e : Nat), s.quiet = m → (m.cam cp).step = .replay → e < (m.initEntries cp).length →
    bit (fld ((m.initEntries cp).getD e 0) 1 1) 2 = false →
    exec (.cpInitReplayDone cp (some e)) s = .next (s.settle
      (((m.modCam cp (fun x => { x with step := .failed })).setCam cp vFault).raise 0x2C07 [cp, e])))
  ∧ (∀ (s : State) (m : Mach) (cp : Nat), s.quiet = m → (m.cam cp).step = .replay →
    (m.cam cp).fitAt + 1000 + 1000 * m.h (K.CP_RESET_WAIT cp) + ((m.initEntries cp).map (fun e => fld e 6 2)).foldl (· + ·) 0 ≤ m.time →
    exec (.cpInitReplayDone cp none) s = .next (s.settle (m.modCam cp (fun x => { x with
      step := .armed, armedAt := m.time, noRef := true, startAt := none, high := none, stamps := [], due := none }))))
  ∧ (∀ (s : State) (m : Mach) (cp : Nat), s.quiet = m → s.admits (K.CP_RESTART cp) (leBytes 1 1) = some 1 →
    m.gb (K.CP_ENABLE cp) = true →
    exec (.cpRestart cp 1) s = .next (s.answered (K.CP_RESTART cp) (leBytes 1 1) (m.camFit cp (m.g (K.CP_ID_READ cp)))))
  ∧ (∀ (s : State) (m : Mach) (cp : Nat) (ty : ObjTy), s.quiet = m → s.reads (K.CP_BUF_PEAK cp) = some ty →
    exec (.cpBufPeak cp) s = .next (s.shown ty (m.g (K.CP_BUF_PEAK cp)) (m.put (K.CP_BUF_PEAK cp) (m.camFill cp))))
  ∧ (∀ (s : State) (m m1 : Mach) (cp num vc r : Nat), s.quiet = m → m.camArmed cp = true →
    m1 = m.camTriggers.modCam cp (fun x => { x with lastNum := num }) → m1.camRecord cp = some r → ctxVc r = vc → ctxLine r = false →
    (m1.cam cp).current = none →
    exec (.csi2FrameStart cp num vc 0) s = .next (s.settle (Mach.beginFrame s.mem m1 cp num)))
  ∧ (∀ (s : State) (m : Mach) (cp vc dt r : Nat) (bad : Bool) (pix : List Nat), s.quiet = m → m.camArmed cp = true →
    m.camRecord cp = some r → ctxLine r = false → ctxVc r = vc → dt = 0x2A + ctxFormat r →
    exec (.csi2LongPacket cp vc dt 0 bad pix) s = .next (s.settle ((m.rowPacket cp bad pix).inspSettle s.mem)))
  ∧ (∀ (s : State) (m : Mach) (cp vc r : Nat) (f : CamFrame), s.quiet = m → m.camArmed cp = true → (m.cam cp).receiving = true →
    m.camRecord cp = some r → ctxLine r = false → ctxVc r = vc → (m.cam cp).current = some f →
    exec (.csi2FrameEnd cp vc 0) s = .next (s.settle
      (((if f.rows.length < ctxHeight f.record then m.mark cp mkShort else m).frameEnd cp).inspSettle s.mem)))
  ∧ (∀ (s : State) (m : Mach) (cp : Nat), s.quiet = m → (m.cam cp).step = .armed →
    (m.cam cp).armedAt + 1000 * m.g (K.CP_FRAME_TIMEOUT cp) ≤ m.time → (m.cam cp).again = false →
    exec (.frameTimeout cp) s = .next (s.settle
      (((m.sample [K.CP_INIT cp, K.CP_RESET_WAIT cp]).modCam cp (fun x => { x with step := .reset, fitAt := m.time, again := true })).setCam
        cp vStarting)))
  ∧ (∀ (s : State) (m : Mach) (cp t : Nat), s.quiet = m → (m.cam cp).step = .ready → m.h (K.CP_TRIG_SRC cp) ≠ 0 →
    (m.cam cp).due = some t → t + 1000 * m.g (K.CP_FRAME_TIMEOUT cp) ≤ m.time →
    exec (.frameTimeout cp) s = .next (s.settle
      (((m.sample [K.CP_INIT cp, K.CP_RESET_WAIT cp]).modCam cp (fun x => { x with step := .reset, fitAt := m.time, again := true })).setCam
        cp vStarting)))

/-- A pipeline takes the oldest waiting frame, processes it when it has ended, and takes its settings while no inspected item prints
(R280, R281, R283, R285, R286). -/
def Obligations.PipelineCommandsComplete : Prop :=
  (∀ (s : State) (m : Mach) (ip p : Nat) (f : CamFrame), s.quiet = m → (m.pipe ip).cur = none → m.waitingFrames ip = [(p, f)] →
    exec (.pipelineFrameStart ip) s = .next (s.settle
      (((m.modCam p (fun x => { x with
        backlog := f.rows.length * ctxWidth f.record, backlogAt := m.time
        frames := (x.frames.takeWhile (fun y => y.taken || y != f)) ++ (match x.frames.dropWhile (fun y => y.taken || y != f) with
          | y :: l => { y with taken := true } :: l
          | [] => []) })).modPipe ip (fun x => { x with cur := some (p, m.time) })).put (K.IP_BUSY_CTX ip) (f.ctx % 2))))
  ∧ (∀ (s : State) (m m1 : Mach) (ip p t : Nat) (f : CamFrame) (missing : List Nat), s.quiet = m → (m.pipe ip).cur = some (p, t) →
    (m.cam p).frames.find? (fun f => f.taken) = some f → f.ended = true → m.backlog p = 0 →
    m1 = m.modCam p (fun x => { x with frames := x.frames.filter (fun y => !y.taken) }) →
    exec (.pipelineFrameDone ip missing) s = .next (s.settle (Mach.frameDone s.mem m1 ip p f missing)))
  ∧ (∀ (s : State) (m : Mach) (ip v : Nat), s.quiet = m → s.admits (K.IP_MODE ip) (leBytes 1 v) = some v → m.pipeBusy ip = false →
    (m.put (K.IP_MODE ip) v).pipeRules = true →
    exec (.ipMode ip v) s = .next (s.answered (K.IP_MODE ip) (leBytes 1 v) (m.put (K.IP_MODE ip) v).refreshPipes))
  ∧ (∀ (s : State) (m : Mach) (ip v : Nat), s.quiet = m → s.admits (K.IP_CTX_ENABLE ip) (leBytes 1 v) = some v →
    m.pipeBusy ip = false → (m.put (K.IP_CTX_ENABLE ip) v).pipeRules = true →
    exec (.ipCtxEnable ip v) s = .next (s.answered (K.IP_CTX_ENABLE ip) (leBytes 1 v) (m.put (K.IP_CTX_ENABLE ip) v).refreshPipes))
  ∧ (∀ (s : State) (m : Mach) (c v : Nat) (data : List Byte), s.quiet = m → s.admits (K.IN_CTX_RECORD c) data = some v →
    m.ctxOk v = true →
    exec (.inCtxRecord c data) s = .next (s.answered (K.IN_CTX_RECORD c) data
      (((m.put (K.IN_CTX_RECORD c) v).modCtx c (fun x => { x with fresh := true })).refreshPipes)))
  ∧ (∀ (s : State) (m : Mach) (id t : Nat) (r : InspRun), s.quiet = m → m.insp.find? (fun r => r.item == id) = some r →
    r.boundaryAt = some t → r.closed = none → t + 1000 * m.g K.IN_CLOSE_TIMEOUT ≤ m.time →
    exec (.inspectionTimeout id) s = .next (s.settle (Mach.inspSettle s.mem
      (m.modInsp id (fun r => if r.closed.isSome then r else { r with closed := some (3, m.time) })))))
  ∧ (∀ (s : State) (m : Mach) (hp : Nat), s.quiet = m → s.admits (K.IN_GAIN_UNFREEZE hp) (leBytes 1 1) = some 1 →
    exec (.inGainUnfreeze hp 1) s = .next (s.answered (K.IN_GAIN_UNFREEZE hp) (leBytes 1 1) (m.gainResume hp)))

/-! ### Analogue subsystem, ch. 13 -/

/-- Sequencing: a converter that is powered down powers up for a waiting conversion in two slots, a due entry waits for a slot or is
counted late, an urgent request joins the queue, a finished conversion of a check or of a discarded one only loads its slice, and the
converter powers down when nothing has used it for 50 µs (R308, R309, R313, R315).
The slices: calibration after reset, the rotation of the slice in calibration, and the check of those in service
(R299, R302, R304, R305). -/
def Obligations.ConvertersComplete : Prop :=
  (∀ (s : State) (m n : Mach) (phase : Nat), s.quiet = m → n = m.anTick.rotateNow → n.an.powered = false → n.an.powerUp = none →
    (n.an.urgent ≠ [] ∨ n.an.waiting ≠ []) →
    exec (.slotBoundary phase) s = .next (s.settle { n.count K.AN_POWERUPS with an := { n.an with
      powerUp := some (16 * m.time + phase + 32) } }))
  ∧ (∀ (s : State) (m n m1 : Mach) (phase slot : Nat), s.quiet = m → n = m.anTick.rotateNow → n.an.powered = true →
    slot = 16 * m.time + phase → m1 = n.startUrgent slot →
    exec (.slotBoundary phase) s = .next (s.settle
      (((upto m1.an.urgent.length m1 (fun m' _ => m'.abortFor slot)).startChecks slot).startWaiting slot)))
  ∧ (∀ m : Mach, m.an.staged = none → m.an.rotDue = false → m.anTick.rotateNow = m)
  ∧ (∀ (s : State) (m : Mach) (e : Nat), s.quiet = m → m.an.staged = none → anEnabled m.an.table e = true →
    m.an.next.getD e 0 ≤ m.time → m.an.working = true → (∀ w, w ∈ m.an.waiting → w.entry ≠ e) →
    exec (.sequenceEntryDue e) s = .next (s.settle { m with an := { m.an with
      next := m.an.next.set e (m.an.next.getD e 0 + anPeriod m.an.table e)
      waiting := insertBy (fun a b => decide (a.due < b.due) || (a.due == b.due && decide (a.entry < b.entry)))
        { due := m.time * 16, entry := e } m.an.waiting } }))
  ∧ (∀ (s : State) (m : Mach) (hp which chan phase window : Nat), s.quiet = m → m.scanDue hp which = true →
    exec (.urgentRequest true hp which chan phase window) s = .next (s.settle { m with an := { m.an with
      urgent := insertBy urgentBefore { req := 16 * m.time + phase, kind := .scan hp which, chan := m.scanChannel hp which, last := none }
        m.an.urgent } }))
  ∧ (∀ (s : State) (m : Mach) (ax which chan phase window : Nat), s.quiet = m →
    exec (.urgentRequest false ax which chan phase window) s = .next (s.settle { m with an := { m.an with
      urgent := insertBy urgentBefore { req := 16 * m.time + phase, kind := .current ax, chan, last := some (16 * m.time + phase + window) }
        m.an.urgent } }))
  ∧ (∀ (s : State) (m m1 : Mach) (sl raw phase e ch code : Nat) (c : Conv) (flag sk : Bool), s.quiet = m →
    (m.slice sl).conv = some c → c.endSlot ≤ 16 * m.time + phase →
    m.convEnd sl raw (16 * m.time + phase) = (m1, some { chan := ch, code, flag, kind := .entry e, skipped := sk }) →
    exec (.conversionComplete sl raw phase) s = .next (s.settle
      (((((m1.anLoad (16 * m.time + phase)).deliverEntry sl e code flag).senseDeliver ch code flag).fuserDeliver ch code flag).busDeliver ch)))
  ∧ (∀ (s : State) (m m1 : Mach) (sl raw phase : Nat) (c : Conv), s.quiet = m → (m.slice sl).conv = some c →
    c.endSlot ≤ 16 * m.time + phase → m.convEnd sl raw (16 * m.time + phase) = (m1, none) →
    exec (.conversionComplete sl raw phase) s = .next (s.settle (m1.anLoad (16 * m.time + phase))))
  ∧ (∀ (s : State) (m : Mach), s.quiet = m → (∀ h, h < m.nHeads → m.scanRuns h = false) →
    (∀ n, n < m.nAxes → m.axEnabled n = false ∨ (m.axis n).kind ≠ 2) → (∀ i, i < 5 → (m.slice i).conv = none) → m.an.waiting = [] → m.an.urgent = [] →
    m.anShortPeriod = false → m.an.lastEnd + 800 ≤ 16 * m.time →
    exec .converterPowerDown s = .next (s.settle { m with an := { m.an with powered := false } }))
  ∧ (∀ (s : State) (m m1 : Mach) (ofs gain : List Int), s.quiet = m → m.an.working = false → m.sup ≠ .reset →
    m1 = upto 5 (upto 5 m (fun m i => m.put (K.AN_SL_ROLE i) (if i = 4 then 1 else 0)))
      (fun m i => (m.modSlice i (fun x => { x with since := m.time, calSince := m.time })).sliceCalibrate i (ofs.getD i 0) (gain.getD i 0)) →
    exec (.resetCalibrationEnd ofs gain) s = .next (s.settle
      (({ m1 with an := { m1.an with working := true, rotate := (List.range 5).all (fun i => m1.sliceRole i != 2) } }).setAnState)))
  ∧ (∀ (s : State) (m m1 : Mach) (ofs gain : Int) (a : Nat), s.quiet = m → (List.range 5).find? (fun x => m.sliceRole x == 1) = some a →
    m.an.rotate = true → m.an.rotDue = false → (m.slice a).calSince + 10000 ≤ m.time → m1 = m.sliceCalibrate a ofs gain →
    m1.sliceRole a ≠ 2 →
    exec (.calibrationRotation ofs gain) s = .next (s.settle ({ m1 with an := { m1.an with rotDue := true } }).rotateNow))
  ∧ (∀ (m m2 : Mach) (a o : Nat), m.an.rotDue = true → (List.range 5).find? (fun x => m.sliceRole x == 1) = some a →
    m.inService = [o] → (m.slice o).conv = none →
    m2 = (((m.put (K.AN_SL_ROLE a) 0).put (K.AN_SL_ROLE o) 1).modSlice a (fun x => { x with since := m.time, prev := none, recover := false })).modSlice
      o (fun x => { x with calSince := m.time, checkDue := false }) →
    m.rotateNow = { m2.count K.AN_ROTATIONS with an := { m2.an with rotDue := false } })
  ∧ (∀ (s : State) (m : Mach), s.quiet = m →
    exec .inServiceCheck s = .next (s.settle (m.inService.foldl (fun m i => m.modSlice i (fun x => { x with checkDue := true })) m)))

/-- The settings of sequencer, channels, accumulators, trackers and slice loops (R303, R306, R308, R310, R312, R314). -/
def Obligations.AnalogueSettingsComplete : Prop :=
  (∀ (s : State) (m : Mach) (data : List Byte) (v : Nat), s.quiet = m → s.admits K.AN_SEQ_TABLE data = some v → anTableOk v = true →
    exec (.anSeqTable data) s = .next (s.answered K.AN_SEQ_TABLE data
      { m.put K.AN_SEQ_TABLE v with an := { m.an with staged := some (v, m.time + 1) } }))
  ∧ (∀ (s : State) (m : Mach) (ch v : Nat), s.quiet = m → s.admits (K.AN_CH_CFG ch) (leBytes 2 v) = some v →
    exec (.anChCfg ch v) s = .next (s.answered (K.AN_CH_CFG ch) (leBytes 2 v)
      (if bits (m.g (K.AN_CH_CFG ch)) 2 1 = bits v 2 1 then m.put (K.AN_CH_CFG ch) v
       else { m.put (K.AN_CH_CFG ch) v with an := { m.an with
         gainDiscard := (ch, 2) :: m.an.gainDiscard.filter (fun (p : Nat × Nat) => decide (p.1 ≠ ch)) } })))
  ∧ (∀ (s : State) (m : Mach) (a v : Nat), s.quiet = m → s.admits (K.AN_ACC_FILTER a) (leBytes 1 v) = some v → v % 4 ≠ 3 →
    v / 4 % 16 ≤ 8 →
    exec (.anAccFilter a v) s = .next (s.answered (K.AN_ACC_FILTER a) (leBytes 1 v) ((m.put (K.AN_ACC_FILTER a) v).accReset a)))
  ∧ (∀ (s : State) (m : Mach) (a : Nat), s.quiet = m → s.admits (K.AN_ACC_RESET a) (leBytes 1 1) = some 1 →
    exec (.anAccReset a 1) s = .next (s.answered (K.AN_ACC_RESET a) (leBytes 1 1)
      { (m.put (K.AN_ACC_RESULT a) 0).put (K.AN_ACC_FLAGS a) 0 with an := { m.an with accs := m.an.accs.set a {} } }))
  ∧ (∀ (s : State) (m : Mach) (t : Nat), s.quiet = m → s.admits (K.AN_MM_RESET t) (leBytes 1 1) = some 1 →
    exec (.anMmReset t 1) s = .next (s.answered (K.AN_MM_RESET t) (leBytes 1 1)
      ((((m.put (K.AN_MM_MIN t) 4095).put (K.AN_MM_MAX t) 0).put (K.AN_MM_COUNT t) 0).put (K.AN_MM_FLAGS t) 0)))
  ∧ (∀ (s : State) (m : Mach) (t : Nat) (ty : ObjTy), s.quiet = m → s.reads (K.AN_MM_MAX t) = some ty →
    exec (.anMmMax t) s = .next (s.shown ty (m.g (K.AN_MM_MAX t))
      ((((m.put (K.AN_MM_MIN t) 4095).put (K.AN_MM_MAX t) 0).put (K.AN_MM_COUNT t) 0).put (K.AN_MM_FLAGS t) 0)))
  ∧ (∀ (s : State) (m : Mach) (sl : Nat), s.quiet = m → s.admits (K.AN_SL_UNFREEZE sl) (leBytes 1 1) = some 1 →
    m.g (K.AN_SL_CAL_STATUS sl) = 3 →
    exec (.anSlUnfreeze sl 1) s = .next (s.answered (K.AN_SL_UNFREEZE sl) (leBytes 1 1)
      ((m.put (K.AN_SL_CAL_STATUS sl) 0).modSlice sl (fun x => { x with ofsStatus := 0, gainStatus := 0, ofsPinned := 0, gainPinned := 0 }))))
  ∧ (∀ (s : State) (m : Mach) (sl v : Nat), s.quiet = m → s.admits (K.AN_SL_OFS_MIN sl) (leBytes 2 v) = some v →
    sext 16 v ≤ sext 16 (m.g (K.AN_SL_OFS_MAX sl)) →
    exec (.sliceBoundsWrite sl 0 v) s = .next (s.answered (K.AN_SL_OFS_MIN sl) (leBytes 2 v) ((m.put (K.AN_SL_OFS_MIN sl) v).sliceResume sl)))
  ∧ (∀ (s : State) (m : Mach) (sl v : Nat), s.quiet = m → s.admits (K.AN_SL_GAIN_MAX sl) (leBytes 4 v) = some v →
    sext 32 (m.g (K.AN_SL_GAIN_MIN sl)) ≤ sext 32 v →
    exec (.sliceBoundsWrite sl 3 v) s = .next (s.answered (K.AN_SL_GAIN_MAX sl) (leBytes 4 v) ((m.put (K.AN_SL_GAIN_MAX sl) v).sliceResume sl)))

/-! ### Object dictionary and networks, ch. 14 -/

/-- Requests of a session that carry an object or memory access: each completes with a response of status OK and its data, sent before
what the access raised; an AX_STOP and the like end at the tick, a DOMAIN is read piece by piece and taken only with its last piece,
and CLOSE ends the session (R319, R325, R326, R331, R332, R333, R334). -/
def Obligations.SessionRequestsComplete : Prop :=
  (∀ (s : State) (m m1 m2 : Mach) (en i : Nat) (corr : List Nat) (f : RxFrame) (x : Session) (r : ObjRow) (bs : List Byte), s.quiet = m →
    m.Asks en 1 f i x m1 → 12 ≤ f.payload.length → canWindow (payKey f.payload) = none → objRow (payKey f.payload) = some r →
    r.ty.isDomain = false → payOffset f.payload = 0 →
    m1.readObj s.mem (payKey f.payload) (min (payCount f.payload) (m1.frameLimit en - 28)) corr = (m2, .ok, bs) →
    bs.length ≤ payCount f.payload →
    exec (.hwxRead en corr) s = .next (s.settle (m1.responds m2 i x f .ok bs false)))
  ∧ (∀ (s : State) (m m1 m2 : Mach) (en i n : Nat) (corr : List Nat) (f : RxFrame) (x : Session) (r : ObjRow) (bs part : List Byte),
    s.quiet = m → m.Asks en 1 f i x m1 → 12 ≤ f.payload.length → canWindow (payKey f.payload) = none →
    objRow (payKey f.payload) = some r → r.ty.isDomain = true → n = min (payCount f.payload) (m1.frameLimit en - 28) →
    m1.readObj s.mem (payKey f.payload) n corr = (m2, .ok, bs) → part = (bs.drop (payOffset f.payload)).take n →
    (payOffset f.payload + part.length < bs.length →
      exec (.hwxRead en corr) s = .next (s.settle (m1.responds m1 i x f .ok part true)))
    ∧ (bs.length ≤ payOffset f.payload + part.length →
      exec (.hwxRead en corr) s = .next (s.settle (m1.responds m2 i x f .ok part false))))
  ∧ (∀ (s : State) (m m1 m2 : Mach) (en i k : Nat) (data : List Byte) (f : RxFrame) (x : Session) (r : ObjRow), s.quiet = m →
    m.Asks en 2 f i x m1 → 12 ≤ f.payload.length → payKey f.payload = k → f.payload.drop 12 = data →
    data.length = payCount f.payload → payOffset f.payload = 0 → f.more = false → objRow k = some r → r.acc.writable = true →
    r.ty.isDomain = false → m1.reach (urgentKey k) = .open_ → m1.objStatus k = .ok → r.judge data = .ok →
    effOf s.mem (.hywex i f.tc f.op f.seq) k (m1.taken k r.ty (r.ty.encode data)).1 (m1.taken k r.ty (r.ty.encode data)).2 = (m2, .ok) →
    (answersAtTick k = false → answersLate k data = false →
      exec (.hwxWrite en) s = .next (s.settle (m1.responds m2 i x f .ok (m2.writeAnswer k data) false)))
    ∧ (answersAtTick k = true → exec (.hwxWrite en) s = .next (s.settle m2)))
  ∧ (∀ (s : State) (m m1 m2 : Mach) (en i k : Nat) (data : List Byte) (f : RxFrame) (x : Session) (r : ObjRow), s.quiet = m →
    m.Asks en 2 f i x m1 → 12 ≤ f.payload.length → payKey f.payload = k → f.payload.drop 12 = data →
    data.length = payCount f.payload → payOffset f.payload = 0 → f.more = true → objRow k = some r → r.acc.writable = true →
    r.ty.isDomain = true → r.ty.over data.length = false → m1.reach (urgentKey k) = .open_ → m1.objStatus k = .ok →
    answersLate k data = false → m2 = m1.setDomain i (some (k, data)) →
    exec (.hwxWrite en) s = .next (s.settle (m1.responds m2 i x f .ok (leBytes 4 0) false)))
  ∧ (∀ (s : State) (m m1 m2 : Mach) (en i w a n : Nat) (corr : List Nat) (f : RxFrame) (x : Session) (bs : List Byte), s.quiet = m →
    m.Asks en 3 f i x m1 → 12 ≤ f.payload.length → m1.reach false = .open_ → le f.payload 0 1 = w → payCount f.payload = n →
    n ≤ m1.frameLimit en - 28 → m1.winAddr w (payOffset f.payload) n = some a → m1.mapped a n = true → a < 0x110000000 →
    m1.winBytes s.mem a n = (bs, m2) →
    exec (.memRead en corr) s = .next (s.settle (m1.responds m2 i x f .ok bs false)))
  ∧ (∀ (s : State) (m m1 : Mach) (en i w a : Nat) (f : RxFrame) (x : Session) (data : List Byte), s.quiet = m →
    m.Asks en 4 f i x m1 → 12 ≤ f.payload.length → m1.reach false = .open_ → le f.payload 0 1 = w → f.payload.drop 12 = data →
    payCount f.payload = data.length → data.length ≤ m1.frameLimit en - 28 →
    m1.winAddr w (payOffset f.payload) data.length = some a → m1.gb (K.MEM_WRITABLE w) = true → m1.mapped a data.length = true →
    inHostArea a data.length = true →
    exec (.memWrite en) s = .next (s.settle (m1.responds (m1.storeBytes a data) i x f .ok [] false)))
  ∧ (∀ (s : State) (m m1 : Mach) (en i : Nat) (f : RxFrame) (x : Session), s.quiet = m → m.Asks en 10 f i x m1 →
    m1.reach false = .open_ →
    exec (.close en) s = .next (s.settle (m1.responds (m1.endSession i 1) i x f .ok [] false)))

/-- Frames of a session that get no response, and OPEN: an acknowledgement takes the events up to its SEQ off the slot's queue, a
heartbeat of a watched session tells the host alive, process data run as an RPDO, and OPEN takes the lowest free slot with a new
number (R327, R331, R334, R341, R343). -/
def Obligations.SessionFramesComplete : Prop :=
  (∀ (s : State) (m m1 : Mach) (en i : Nat) (f : RxFrame) (x : Session), s.quiet = m → m.Asks en 6 f i x m1 → 4 ≤ f.payload.length →
    exec (.eventAck en) s = .next (s.settle { m1 with ev := { m1.ev with slots := m1.ev.slots.modify i (fun (c : Consumer) =>
      { c with queue := c.queue.filter (fun r => decide (le f.payload 0 4 < r.seq)) }) } }))
  ∧ (∀ (s : State) (m m1 : Mach) (en i : Nat) (f : RxFrame) (x : Session), s.quiet = m → m.Asks en 7 f i x m1 →
    exec (.heartbeat en) s = .next (s.settle (if x.timeout = 0 then m1 else m1.hostSeen)))
  ∧ (∀ (s : State) (m m1 : Mach) (en i n : Nat) (data : List Byte) (f : RxFrame) (x : Session), s.quiet = m → m.Asks en 8 f i x m1 →
    x.pd = true → n < 8 → data.length ≤ 64 → le f.payload 0 1 = n → le f.payload 1 1 = data.length →
    f.payload.length = 4 + data.length → f.payload.drop 4 = data →
    m1.pdoOn n = true → m1.pdoRoute n = 1 →
    exec (.pd en) s = .next (s.settle (m1.rpdoRun s.mem n data)))
  ∧ (∀ (s : State) (m m0 m1 m2 : Mach) (en i n : Nat) (f : RxFrame) (x : Session), s.quiet = m → m.enOpen en = true →
    m.rxNext en = some f → f.op = 9 → m0 = m.rxPop en f → m0.reach false = .open_ → 4 ≤ f.payload.length →
    (List.range 4).find? (fun j => (m0.session j).isNone) = some i → n = m0.freeNumber 6 m0.net.nextSession →
    x = { number := n, port := en, addr := f.addr, udp := f.udp, timeout := le f.payload 0 2, mask := le f.payload 2 1
          pd := bit (le f.payload 3 1) 0, lastSeen := m0.time } →
    m1 = { m0 with net := { m0.net with sessions := m0.net.sessions.set i (some x), nextSession := n % 0xFFFF + 1 }
                   ev := { m0.ev with slots := m0.ev.slots.set i {} } } →
    m2 = ((m1.emit (.hywex (i + 1) n 9 f.seq .ok [] false)).raise 0x2F83 [n, i + 1, en]).partnerFound dscHost (i + 1) f.addr f.udp →
    ∀ e, m2.partnerFind dscHost (i + 1) f.addr f.udp = some e → ∀ m3 : Mach, m3 = m2.put (K.DSC_PARTNER e) (setFld (m2.partner e) 0x0C 4 n) →
    exec (.open en) s = .next (s.settle (if x.timeout = 0 then m3 else m3.hostSeen)))

/-- Ports: a valid frame joins the queue of its class and an invalid one is counted, links and addresses change, events are repeated
or their gathering ends, heartbeats go out, a session lapses, a port is enabled, and every axis stops with every station held
(R320, R322, R327, R328, R329, R334, R342, R343). -/
def Obligations.PortCommandsComplete : Prop :=
  (∀ (s : State) (m : Mach) (en : Nat) (data : List Byte), s.quiet = m → m.enOpen en = true →
    (m.ethKind en data = .bad → exec (.ethFrameReceived en data) s = .next (s.settle (m.count (K.NET_RX_BAD en))))
    ∧ (∀ addr udp p tc op f, m.ethKind en data = .hywex addr udp p → hwxValid p = true → m.hwxAllowed addr = true →
      hwxReserved p = false → op = le p 3 1 → hwxClass op (le p 2 1 / 16 % 4) (bit (le p 11 1) 1) (p.drop 16) = (tc, false) →
      m.slotOf en (le p 6 2) addr udp = none →
      f = { tc, op, seq := le p 4 2, session := le p 6 2, more := bit (le p 11 1) 1, addr, udp, payload := p.drop 16 } →
      ((m.net.rx.getD en []).filter (fun (q : RxFrame) => q.tc == tc)).length < rxRoom tc →
      exec (.ethFrameReceived en data) s = .next (s.settle
        { m with net := { m.net with rx := m.net.rx.set en (m.net.rx.getD en [] ++ [f]) } })))
  ∧ (∀ (s : State) (m : Mach), s.quiet = m → s.admits K.NET_STOP_ALL (leBytes 1 1) = some 1 →
    exec (.netStopAll 1) s = .next (s.answered K.NET_STOP_ALL (leBytes 1 1)
      (((upto m.nAxes m (fun m n => m.axStop n 1)).holdAll).raise 0x2F8C [])))
  ∧ (∀ (s : State) (m : Mach), s.quiet = m →
    exec .eventRetry s = .next (s.settle (upto 4 m (fun m i => if (m.session i).isSome then m.retrySlot i else m))))
  ∧ (∀ (s : State) (m : Mach), s.quiet = m →
    exec .eventGatherEnd s = .next (s.settle (upto 4 m (fun m i =>
      if ∃ t, (m.ev.slots.getD i {}).gather = some t ∧ t + 1000 ≤ m.time then m.sendGathered i else m))))
  ∧ (∀ (s : State) (m m1 : Mach), s.quiet = m → m.reach true = .open_ → m.net.hbSent + 1000 * m.g K.NET_HB_PERIOD ≤ m.time →
    m.sup = .ready → m1 = { m with net := { m.net with hbSent := m.time } } →
    exec .heartbeatSend s = .next (s.settle
      (upto 4 m1 (fun m i => if (m.session i).isSome then m.emit (.heartbeat (i + 1) 1 m.ev.seq m.time) else m))))
  ∧ (∀ (s : State) (m : Mach) (slot : Nat) (x : Session), s.quiet = m → m.session slot = some x → x.timeout ≠ 0 →
    x.lastSeen + 1000 * x.timeout ≤ m.time → m.dictUp = true →
    exec (.sessionTimeout slot) s = .next (s.settle (m.endSession slot 2).hostLoss))
  ∧ (∀ (s : State) (m : Mach) (en speed : Nat), s.quiet = m → m.reach true = .open_ → m.gb (K.NET_PORT_ENABLE en) = true → 0 < speed →
    m.g (K.NET_LINK en) ≠ speed →
    exec (.ethLinkChange en speed) s = .next (s.settle (((m.put (K.NET_LINK en) speed).raise 0x2F81 [en, speed]).enRefresh en)))
  ∧ (∀ (s : State) (m m1 : Mach) (en addr : Nat), s.quiet = m → m.reach true = .open_ → m.gb (K.NET_PORT_ENABLE en) = true →
    m.enDhcp en = true → m1 = m.put (K.NET_IP_ADDR en) addr →
    exec (.ethAddressAssigned en addr) s = .next (s.settle (Mach.enRefresh (Mach.raise
      { m1 with net := { m1.net with enAddr := m1.net.enAddr.set en (addr != 0) } } 0x2F82 [en]) en)))
  ∧ (∀ (s : State) (m m0 m1 : Mach) (en : Nat), s.quiet = m → s.admits (K.NET_PORT_ENABLE en) (leBytes 1 1) = some 1 →
    m0 = (m.put (K.NET_PORT_ENABLE en) 1).sample (enKeys en) →
    m1 = { m0 with net := { m0.net with hwxPort := m0.net.hwxPort.set en (m0.g K.NET_HWX_PORT) } } → m1.enDhcp en = true →
    exec (.netPortEnable en 1) s = .next (s.answered (K.NET_PORT_ENABLE en) (leBytes 1 1) (m1.enRefresh en)))

/-- CANopen on CF0 and CF1: NMT commands change the node's state or restart its communication, an SDO answers its access, SYNC sends
the TPDOs that are due, and RPDOs, times, event timers and heartbeats act (R319, R337, R339, R341, R342, R343). -/
def Obligations.CanCommandsComplete : Prop :=
  (∀ (s : State) (m : Mach), s.quiet = m → m.canOpen 0 = true →
    exec .nmtStart s = .next (s.settle (m.setNmt .operational))
    ∧ exec .nmtEnterPreOperational s = .next (s.settle (m.setNmt .preOperational))
    ∧ exec .nmtStop s = .next (s.settle (m.setNmt .stopped))
    ∧ exec .nmtResetCommunication s = .next (s.settle m.cf0Start)
    ∧ (m.gb (K.NET_NMT_RESET_ENABLE 0) = true → exec .nmtResetNode s = .next (s.settle (m.resetTo 2 0)))
    ∧ (m.gb (K.NET_NMT_RESET_ENABLE 0) = false →
      exec .nmtResetNode s = .next (s.settle (m.count (K.NET_NMT_RESET_IGNORED 0)).cf0Start)))
  ∧ (∀ (s : State) (m m1 : Mach) (cf index sub count : Nat) (corr : List Nat) (bs : List Byte), s.quiet = m → m.sdoOpen cf = true →
    m.readObj s.mem (index * 256 + sub) count corr = (m1, .ok, bs) →
    exec (.sdoTransfer cf false index sub count [] corr) s = .next (s.settle { m1 with out := Out.sdo cf 0 bs :: m1.out }))
  ∧ (∀ (s : State) (m m1 : Mach) (cf index sub k : Nat) (data : List Byte) (r : ObjRow), s.quiet = m → m.sdoOpen cf = true →
    k = index * 256 + sub → objRow k = some r → m.reach (urgentKey k) = .open_ → m.objStatus k = .ok → r.judge data = .ok →
    effOf s.mem (.sdo cf) k (m.taken k r.ty (r.ty.encode data)).1 (m.taken k r.ty (r.ty.encode data)).2 = (m1, .ok) → answersAtTick k = false → answersLate k data = false →
    exec (.sdoTransfer cf true index sub 0 data []) s = .next (s.settle { m1 with out := Out.sdo cf 0 (m1.writeAnswer k data) :: m1.out }))
  ∧ (∀ (s : State) (m : Mach), s.quiet = m → m.canOpen 0 = true → m.net.nmt = .operational →
    (∀ n, m.net.rpdoHeld.getD n none = none) → (∀ n, n < 8 → m.pdoOn (8 + n) = false) →
    exec .sync s = .next (s.settle m))
  ∧ (∀ (s : State) (m m1 : Mach) (n ty : Nat), s.quiet = m → m.canOpen 0 = true → m.net.nmt = .operational →
    (∀ k, m.net.rpdoHeld.getD k none = none) → n < 8 → m.pdoOn (8 + n) = true → m.pdoRoute (8 + n) ≠ 1 →
    (∀ k, k < 8 → k ≠ n → m.pdoOn (8 + k) = false) → m.g (K.CIA_TPDO_TYPE n) = ty → 0 < ty → ty ≤ 240 →
    m.net.syncCount.getD n 0 + 1 = ty → m1 = { m with net := { m.net with syncCount := m.net.syncCount.set n 0 } } →
    exec .sync s = .next (s.settle (m1.tpdoSend n true false)))
  ∧ (∀ (s : State) (m : Mach) (data : List Byte), s.quiet = m → m.sdoOpen 0 = true →
    exec (.timeMessage data) s = .next (s.settle (m.put (K.NET_CAN_TIME 0) (ofLe (data.take 6)))))
  ∧ (∀ (s : State) (m : Mach) (n : Nat) (data : List Byte), s.quiet = m → m.canOpen 0 = true → m.net.nmt = .operational →
    m.pdoOn n = true → m.pdoRoute n = 0 → data.length ≤ m.pdoLimit n →
    (m.g (K.CIA_RPDO_TYPE n) ≤ 240 → exec (.rpdo n data) s = .next (s.settle
      { m with net := { m.net with rpdoHeld := m.net.rpdoHeld.set n (some data) } }))
    ∧ (240 < m.g (K.CIA_RPDO_TYPE n) → exec (.rpdo n data) s = .next (s.settle (m.rpdoRun s.mem n data))))
  ∧ (∀ (s : State) (m : Mach) (n t : Nat), s.quiet = m → m.dictUp = true → m.pdoOn (8 + n) = true → m.g (K.CIA_TPDO_EVENT n) = t →
    0 < t → m.net.tpdoLast.getD n 0 + 1000 * t ≤ m.time → 254 ≤ m.g (K.CIA_TPDO_TYPE n) →
    exec (.tpdoEventTimer n) s = .next (s.settle (m.tpdoSend n true true)))
  ∧ (∀ (s : State) (m m1 : Mach) (t : Nat), s.quiet = m → m.reach true = .open_ → m.g K.CIA_HB_PRODUCER = t → 0 < t →
    m.net.canHbLast + 1000 * t ≤ m.time → m1 = { m with net := { m.net with canHbLast := m.time } } → m1.g (K.NET_CAN_STATE 0) ≠ 2 →
    m1.g (K.NET_CAN_STATE 1) = 2 →
    exec .canHeartbeatSend s = .next (s.settle
      { m1.emit (.can 0 (0x700 + m1.h (K.NET_CAN_NODE 0)) (leBytes 1 m1.net.nmt.code)) with fresh := m1.fresh + 1 }))
  ∧ (∀ (s : State) (m : Mach) (t : Nat), s.quiet = m → m.net.hbLast = some t → m.cfHostSet = true → m.net.hbLapsed = false →
    t + 1000 * m.cfHostTime ≤ m.time → ∀ m1 : Mach, m1 = { m with net := { m.net with hbLapsed := true } } →
    exec .hostHeartbeatLapse s = .next (s.settle (m1.partnerLost dscHost 0 0 0).hostLoss))
  ∧ (∀ (s : State) (m m1 : Mach), s.quiet = m → m.canOpen 0 = true → m.cfHostSet = true →
    m1 = { m with net := { m.net with hbLast := some m.time, hbLapsed := false } } →
    exec .cf0HostHeartbeat s = .next (s.settle (m1.partnerFound dscHost 0 0 0).hostSeen))
  ∧ (∀ (s : State) (m : Mach) (node : Nat) (data : List Byte), s.quiet = m → exec (.emcyReceived node data) s = .next (s.settle m))
  ∧ (∀ (s : State) (m m1 : Mach) (cf win count : Nat) (corr : List Nat) (bs : List Byte), s.quiet = m → m.sdoOpen cf = true →
    m.readObj s.mem (K.MEM_CAN_DATA win) count corr = (m1, .ok, bs) →
    exec (.memCanData cf win false count [] corr) s = .next (s.settle { m1 with out := Out.sdo cf 0 bs :: m1.out }))

/-- Bus errors on the CAN ports, the acknowledgement of CF0's events and the disciplining of device time (R327, R336, R340, R344). -/
def Obligations.CanErrorsAndTimeComplete : Prop :=
  (∀ (s : State) (m : Mach) (cf tec rec_ : Nat), s.quiet = m → m.reach true = .open_ → m.g (K.NET_CAN_STATE cf) = 0 →
    exec (.canErrorStateChange cf 1 tec rec_) s = .next (s.settle
      ((((m.put (K.NET_CAN_ERR cf) (tec % 256 + 256 * (rec_ % 256))).put (K.NET_CAN_STATE cf) 1).raise 0x2F88 [cf, 1]).canRefresh cf)))
  ∧ (∀ (s : State) (m : Mach) (cf : Nat), s.quiet = m → m.g (K.NET_CAN_STATE cf) = 2 → m.gb (K.NET_CAN_AUTO_RECOVER cf) = true →
    exec (.busOffRecovery cf) s = .next (s.settle (((m.put (K.NET_CAN_ERR cf) 0).setCanState cf 0).sendEmcy)))
  ∧ (∀ (s : State) (m : Mach) (cf : Nat), s.quiet = m → s.admits (K.NET_CAN_RECOVER cf) (leBytes 1 1) = some 1 →
    m.g (K.NET_CAN_STATE cf) = 2 →
    exec (.netCanRecover cf 1) s = .next (s.answered (K.NET_CAN_RECOVER cf) (leBytes 1 1)
      { m with net := { m.net with recover := m.net.recover.set cf true } }))
  ∧ (∀ (s : State) (m : Mach), s.quiet = m → s.admits (K.NET_CAN_RESTART 0) (leBytes 1 1) = some 1 →
    exec (.netCanRestart 0 1) s = .next (s.answered (K.NET_CAN_RESTART 0) (leBytes 1 1) m.cf0Start))
  ∧ (∀ (s : State) (m : Mach), s.quiet = m → s.admits (K.NET_CAN_RESTART 1) (leBytes 1 1) = some 1 →
    exec (.netCanRestart 1 1) s = .next (s.answered (K.NET_CAN_RESTART 1) (leBytes 1 1) m.cf1Restart))
  ∧ (∀ (s : State) (m : Mach) (v : Nat), s.quiet = m → s.admits K.EV_CAN_ACK (leBytes 4 v) = some v →
    exec (.evCanAck v) s = .next (s.answered K.EV_CAN_ACK (leBytes 4 v)
      { m with ev := { m.ev with cf0 := { m.ev.cf0 with queue := m.ev.cf0.queue.filter (fun r => decide (v < r.seq)) } } }))
  ∧ (∀ (s : State) (m : Mach) (en domain : Nat) (offset : Int), s.quiet = m → m.reach true = .open_ → m.gb K.NET_PTP_ENABLE = true →
    m.h K.NET_PTP_PORT = en → m.h K.NET_PTP_DOMAIN = domain →
    ((m.g K.NET_PTP_STATE = 1 ∨ m.g K.NET_PTP_STATE = 4) →
      exec (.ptpMessage en domain false offset) s = .next (s.settle ((m.put K.NET_PTP_STATE 2).raise 0x2F8A [2])))
    ∧ (∀ m1 : Mach, m.g K.NET_PTP_STATE = 2 → m1 = m.puti 32 K.NET_PTP_OFFSET (clampI (-2147483648) 2147483647 offset) → ∀ m2 : Mach,
      m2 = ({ m1 with fresh := m1.fresh + 1 }).puti 32 K.NET_PTP_RATE ((Config.freeNat m1.fresh % 1000001 : Nat) - 500000) →
      ¬ (offset < -(1000 * (m2.g K.NET_PTP_STEP : Int)) ∧ m2.mayStep = true) → offset.natAbs ≤ m2.g K.NET_PTP_LOCK_TOL →
      exec (.ptpMessage en domain true offset) s = .next (s.settle (m2.setPtp 3))))
  ∧ (∀ (s : State) (m : Mach), s.quiet = m → m.g K.NET_PTP_STATE = 3 →
    exec .ptpHoldover s = .next (s.settle ((m.put K.NET_PTP_STATE 4).raise 0x2F8A [4])))

/-! ### Discovery, bring-up and updates, ch. 15 -/

/-- Power, reset and boot: power on and off clear device memory and reset every object, a reset pulse of 1 µs resets, the release of a
good device starts the boot, and the boot ends READY or, without a bank that passes, in recovery (R10, R350, R351, R352, R414). -/
def Obligations.BootCommandsComplete : Prop :=
  (∀ (s : State) (m : Mach), s.quiet = m →
    exec .powerOn s = .next (s.dramLost.settle m.powerOff)
    ∧ exec .powerLoss s = .next (s.dramLost.settle m.powerOff))
  ∧ (∀ (s : State) (m : Mach) (ns : Nat), s.quiet = m → 1000 ≤ ns → exec (.resetN ns) s = .next (s.settle (m.resetTo 1 0)))
  ∧ (∀ (s : State) (m : Mach) (mv : Nat), s.quiet = m → m.sup = .reset → m.vmonAllows mv = true → m.vendorOk = true →
    exec (.resetRelease mv) s = .next (s.settle (m.bootStart.vmonSeen mv)))
  ∧ (∀ (s : State) (m m1 m2 : Mach), s.quiet = m → m.sup = .booting →
    m1 = m.puts [(K.DEV_BOOT_CAUSE, m.dev.cause), (K.DEV_BOOT_TIME, m.time % 2 ^ 32), (K.DEV_CLK_FAIL_LAST, m.dev.clkFail)] →
    m.dev.clkFail = 0 → m1.supPasses m1.flash.active = true →
    m2 = ({ m1 with sup := .ready } : Mach).raise 0x2001 [m1.dev.cause, m1.flash.active, m1.time % 2 ^ 32] →
    exec .bootComplete s = .next (s.settle (m2.bootFindings.releaseDeferred.bootUnits.flashStart)))
  ∧ (∀ (s : State) (m m1 m2 : Mach), s.quiet = m → m.sup = .booting →
    m1 = m.puts [(K.DEV_BOOT_CAUSE, m.dev.cause), (K.DEV_BOOT_TIME, m.time % 2 ^ 32), (K.DEV_CLK_FAIL_LAST, m.dev.clkFail)] →
    m.dev.clkFail = 0 → m1.supPasses m1.flash.active = false →
    m2 = (({ m1 with sup := .recovery } : Mach).put K.DEV_MODE 1).raise 0x2003 [] →
    exec .bootComplete s = .next (s.settle
      ((upto 2 (((((m2.bootFindings.releaseDeferred).setReady rdySup vFault).setReady rdyFlash vReady).cf0Start).setReady (rdyCan 0) vReady)
        (fun m e => m.setReady (rdyEth e) vStarting)).flashStart)))
  ∧ (∀ (s : State) (m : Mach), s.quiet = m → m.sup = .ready → m.flash.trial = false →
    exec .lockstepDisagree s = .next (s.settle (((m.count K.EV_SUP_RESTARTS).raise 0x2101 []).supDown .restarting)))
  ∧ (∀ (s : State) (m m1 : Mach), s.quiet = m → m.sup = .restarting → m.dev.rollback = none → m.g K.DEV_MODE = 0 →
    m1 = Mach.raise { m with sup := .ready, dev := { m.dev with swapAt := none, rollback := none } } 0x2102 [] →
    exec .supervisorReady s = .next (s.settle ((m1.releaseDeferred.restartTimeouts.setReady rdySup vReady).itemsMoved)))
  ∧ (∀ (s : State) (m : Mach) (t : Nat), s.quiet = m → m.dev.swapAt = some t → m.sup = .swapping → m.flash.trial = true →
    t + 2000000 ≤ m.time → exec .trialTimeout s = .next (s.settle (m.rollBack 3)))

/-- The partner table and the nodes of CF1: an absent entry is cleared, a node is given its ID or an assignment, asked who it is, found,
found wrong, started, lost and asked again (R356 to R362). -/
def Obligations.NodeCommandsComplete : Prop :=
  (∀ (s : State) (m m1 : Mach) (e : Nat), s.quiet = m → s.admits K.DSC_CLEAR (leBytes 1 e) = some e →
    partnerState (m.partner e) = dscAbsent → m1 = m.put (K.DSC_PARTNER e) 0 →
    exec (.dscClear e) s = .next (s.answered K.DSC_CLEAR (leBytes 1 e) (m1.put K.DSC_USED m1.partnersUsed)))
  ∧ (∀ (s : State) (m : Mach) (n : Nat), s.quiet = m → s.admits K.DSC_LSS_ASSIGN (leBytes 1 n) = some n → m.cfManager = true →
    m.cf1.lss = none → m.nodeState n ≠ dscPresent →
    exec (.dscLssAssign n) s = .next (s.answered K.DSC_LSS_ASSIGN (leBytes 1 n)
      { m.put K.DSC_LSS_STATE 1 with cf1 := { m.cf1 with lss := some n } }))
  ∧ (∀ (s : State) (m : Mach) (n r : Nat), s.quiet = m → m.cf1.lss = some n → m.dictUp = true → (r = 2 ∨ r = 3) →
    ∀ m1 : Mach, m1 = { m with cf1 := { m.cf1 with lss := none } } →
    exec (.lssAssignmentEnd r) s = .next (s.settle ((m1.put K.DSC_LSS_STATE r).raise 0x2207 [r])))
  ∧ (∀ (s : State) (m : Mach) (n v : Nat), s.quiet = m → s.admits (0x221100 + n) (leBytes 4 v) = some v →
    ((List.range 127).filter (fun i => (m.put (K.DSC_NMT_ASSIGN (n - 1)) v).g (K.DSC_NMT_ASSIGN i) / 65536 != 0)).length ≤ 32 →
    exec (.dscNmtAssign n v) s = .next (s.answered (0x221100 + n) (leBytes 4 v) (m.put (K.DSC_NMT_ASSIGN (n - 1)) v)))
  ∧ (∀ (s : State) (m m1 : Mach) (n : Nat), s.quiet = m → 1 ≤ n → n ≤ 127 → m.dictUp = true →
    m1 = m.modNode n (fun x => { x with hbLast := none }) →
    (m1.nodeManaged n = true → exec (.nodeBootUp n) s = .next (s.settle (m1.nodeAsk n)))
    ∧ (m1.nodeManaged n = false → exec (.nodeBootUp n) s = .next (s.settle (m1.nodeSeen n))))
  ∧ (∀ (s : State) (m m1 : Mach) (n nmt : Nat), s.quiet = m → 1 ≤ n → n ≤ 127 → m.dictUp = true →
    m1 = m.modNode n (fun x => { x with hbLast := some m.time }) → m1.nodeManaged n = true →
    (m1.nodeState n = dscAbsent → exec (.nodeHeartbeat n nmt) s = .next (s.settle (m1.nodeAsk n)))
    ∧ (m1.nodeState n = dscPresent → m1.nodeStart n = true → nmt % 128 = 127 → (m1.node n).startSent = none →
      exec (.nodeHeartbeat n nmt) s = .next (s.settle
        ((m1.nmtSend 1 n).modNode n (fun x => { x with startSent := some m1.time })))))
  ∧ (∀ (s : State) (m m1 : Mach) (n vendor product revision serial e : Nat), s.quiet = m → 1 ≤ n → n ≤ 127 →
    (m.node n).asked.isSome = true → m.dictUp = true → m1 = m.modNode n (fun x => { x with asked := none, retryAt := none }) →
    m1.nodeEntry n = some e → m1.nodeCheck n = false → ∀ m2 : Mach, m2 = m1.partnerSet e dscPresent → ∀ m3 : Mach,
    m3 = m2.modNode n (fun x => { x with hbLast := some m1.time }) → m3.nodeStart n = false →
    exec (.nodeIdentifyResponse n vendor product revision serial) s = .next (s.settle m3.cf1Refresh))
  ∧ (∀ (s : State) (m : Mach) (n : Nat), s.quiet = m → (m.node n).asked.isSome = true →
    exec (.nodeIdentifyTimeout n) s = .next (s.settle
      (m.modNode n (fun x => { x with asked := none, retryAt := some (m.time + 1000 * m.g K.DSC_NMT_RETRY) }))))
  ∧ (∀ (s : State) (m : Mach) (n t : Nat), s.quiet = m → (m.node n).retryAt = some t → t ≤ m.time →
    exec (.nodeIdentifyRetry n) s = .next (s.settle (m.modNode n (fun x => { x with asked := some m.time, retryAt := none }))))
  ∧ (∀ (s : State) (m m1 : Mach), s.quiet = m → m.cfManager = true → m.cf1.bootAt + 1000 * m.h K.DSC_NMT_BOOT_TIME ≤ m.time →
    m1 = upto 127 m (fun m i =>
      if m.nodeMandatory (i + 1) && m.nodeState (i + 1) != dscPresent then m.raise 0x2206 [i + 1] else m) →
    exec .nmtBootTimeExpired s = .next (s.settle (Mach.cf1Refresh { m1 with cf1 := { m1.cf1 with bootDone := true } })))
  ∧ (∀ (s : State) (m m1 : Mach) (n t e : Nat), s.quiet = m → (m.node n).hbLast = some t → m.nodeEntry n = some e →
    0 < m.nodeHbTime n → t + 1000 * m.nodeHbTime n < m.time → partnerState (m.partner e) = dscPresent →
    m1 = (m.partnerSet e dscAbsent).modNode n (fun x => { x with hbLast := none }) → m1.nodeManaged n = true →
    m1.g K.DSC_NMT_LOSS_ACTION = 2 →
    exec (.nodeHeartbeatLapse n) s = .next (s.settle (m1.nmtSend 0x81 n).cf1Refresh))

/-- Firmware banks: an image that passes is programmed into the inactive bank, the programming ends, the banks swap into a trial, the
trial is confirmed (R363 to R367). -/
def Obligations.BankCommandsComplete : Prop :=
  (∀ (s : State) (m m1 : Mach) (img : List Byte) (h slot f n : Nat), s.quiet = m →
    s.admits K.NV_BANK_CTRL (leBytes 1 1) = some 1 → m.flash.trial = false → m.bankBusy = false →
    ¬ (m.sup = .recovery ∧ m.dev.swapAt.isSome = true) → inHostArea (m.g K.NV_BANK_SRC) (m.g K.NV_BANK_LEN) = true →
    m.hostBytes s.mem (m.g K.NV_BANK_SRC) (m.g K.NV_BANK_LEN) = (img, m1) → m1.imageCause img = 0 → h = ofLe (img.take 256) →
    slot = fld h 4 1 - 1 → slotBlocks (2 * (1 - m.flash.active) + slot) = (f, n) → (∀ i, i < n → m1.wp (f + i) = false) → h &&& headerReserved = 0 →
    exec .bankProgram s = .next (s.answered K.NV_BANK_CTRL (leBytes 1 1)
      (((((m1.slotBad (2 * (1 - m.flash.active) + slot)).puts [(K.NV_BANK_FAIL, 0), (K.NV_BANK_PROGRESS, 0)]).flashAdd
        (.bank (1 - m.flash.active) slot (img.take (fld h 0xC 4 + 256)))).setReady rdyFlash vUpdating))))
  ∧ (∀ (s : State) (m m1 m2 : Mach) (b slot f n : Nat) (img : List Byte), s.quiet = m →
    m.flash.jobs.find? FlashJob.isBank = some (.bank b slot img) → slotBlocks (2 * b + slot) = (f, n) →
    m1 = Mach.setReady { m with flash := { m.flash with jobs := m.flash.jobs.filter (fun j => !j.isBank) } } rdyFlash vReady →
    m2 = upto n m1 (fun m i => (m.eraseBlk (f + i)).modBlk (f + i) (fun y => y.program 0 ((img.drop (65536 * i)).take 65536))) →
    exec (.bankProgramDone true []) s = .next (s.settle
      ((Mach.raise (Mach.put { m2 with flash := { m2.flash with slots := m2.flash.slots.set (2 * b + slot) 1 } } K.NV_BANK_PROGRESS 100)
        0x3021 [b, slot]).flashStart)))
  ∧ (∀ (s : State) (m m1 : Mach), s.quiet = m → s.admits K.NV_BANK_CTRL (leBytes 1 2) = some 2 → m.flash.trial = false →
    m.bankValid (1 - m.flash.active) = true → m.bankBusy = false →
    (∀ k, k < m.nClusters → m.ready (rdyCluster k) ≠ vUpdating) → (m.sup = .recovery ∨ m.genOutside (1 - m.flash.active) = false) →
    m1 = (Mach.journalPage { m with flash := { m.flash with active := 1 - m.flash.active, trial := true } }).raise 0x3023 [1 - m.flash.active] →
    exec .bankSwap s = .next (s.answered K.NV_BANK_CTRL (leBytes 1 2) ((upto 4 m1 Mach.sendGathered).supDown .swapping)))
  ∧ (∀ (s : State) (m : Mach), s.quiet = m → s.admits K.NV_BANK_CTRL (leBytes 1 3) = some 3 → m.flash.trial = true →
    exec .bankConfirm s = .next (s.answered K.NV_BANK_CTRL (leBytes 1 3)
      ((Mach.journalPage { m with flash := { m.flash with trial := false } }).raise 0x3025 [])))

/-- A write of an object by its index: one that no rule ends at the tick is judged and answered at once, one that is (AX_STOP and its
like) leaves its answer to the tick (R319, R321). -/
def Obligations.ObjectWriteCompletes : Prop :=
  (∀ (s : State) (m m1 : Mach) (index sub v : Nat) (data : List Byte), s.quiet = m → answersAtTick (index * 256 + sub) = false →
    s.admits (index * 256 + sub) data = some v → effOf s.mem .local (index * 256 + sub) v m = (m1, .ok) →
    exec (.objectWrite index sub data) s = .next (s.answered (index * 256 + sub) data m1))
  ∧ (∀ (s : State) (m m1 : Mach) (index sub v : Nat) (data : List Byte), s.quiet = m → answersAtTick (index * 256 + sub) = true →
    m.reach false = .open_ → s.admits (index * 256 + sub) data = some v → effOf s.mem .local (index * 256 + sub) v m = (m1, .ok) →
    exec (.objectWrite index sub data) s = .next (s.settle m1))

/-! ### Nonvolatile memory, ch. 16 -/

/-- The flash controller and user operations: a page or a log record is programmed, an erase ends, a failed block's content moves to a
spare, erasing and programming of user blocks begin (R373, R374, R375, R378, R380). -/
def Obligations.FlashCommandsComplete : Prop :=
  (∀ (s : State) (m : Mach) (b p : Nat) (d : List Byte) (rest : List FlashJob), s.quiet = m → m.flash.jobs = .userProg b p d :: rest →
    m.flash.begun = true →
    exec (.flashProgramDone none) s = .next (s.settle ((m.flashPop.userPage b p d none).flashStart)))
  ∧ (∀ (s : State) (m m1 : Mach) (r : EvRec) (rest : List EvRec), s.quiet = m → m.flash.jobs = [] → m.ev.logQueue = r :: rest →
    m.logWritable = true → m1 = { m with ev := { m.ev with logQueue := rest } } →
    exec (.flashProgramDone none) s = .next (s.settle ((m1.logAppend (some (m.logBytes r))).flashStart)))
  ∧ (∀ (s : State) (m : Mach) (b : Nat) (rest : List FlashJob), s.quiet = m → m.flash.jobs = .userErase b :: rest →
    m.flash.begun = true →
    exec (.flashEraseDone none) s = .next (s.settle (((m.flashPop.eraseBlk b).opEnd 0).flashStart)))
  ∧ (∀ (s : State) (m m1 : Mach) (b k : Nat) (spares : List Nat) (g : Migr) (rest : List Migr), s.quiet = m → m.flash.migr = g :: rest →
    g.block = b → g.blank = true → g.patch = none → g.job = none → m.freeSpares = k :: spares →
    m1 = { m with flash := { m.flash with
      blks := m.flash.blks.set k { erases := (m.flash.blks.getD k {}).erases }
      map := m.flash.map.filter (fun (p : Nat × Nat) => p.1 ≠ b) ++ [(b, k)], migr := rest
      weak := m.flash.weak.set b false } } →
    exec (.blockReplaced false []) s = .next (s.settle ((m1.journalPage.raise 0x3003 [b, k]).flashStart)))
  ∧ (∀ (s : State) (m : Mach) (b : Nat), s.quiet = m → s.admits K.NV_OP_CTRL (leBytes 1 1) = some 1 → m.g K.NV_OP_BLOCK = b →
    70 ≤ b → b ≤ 127 → m.g K.NV_OP_STATE ≠ 1 → m.wp b = false → ∀ m1 : Mach,
    m1 = m.puts [(K.NV_OP_STATE, 1), (K.NV_OP_FAIL, 0)] → m1.blkFailed b = false →
    exec .nvOpErase s = .next (s.answered K.NV_OP_CTRL (leBytes 1 1) (m1.flashAdd (.userErase b))))
  ∧ (∀ (s : State) (m m1 m2 : Mach) (b : Nat) (bs : List Byte), s.quiet = m → s.admits K.NV_OP_CTRL (leBytes 1 2) = some 2 →
    m.g K.NV_OP_BLOCK = b → 70 ≤ b → b ≤ 127 → m.g K.NV_OP_PAGE + m.g K.NV_OP_PAGES ≤ 256 →
    inHostArea (m.g K.NV_OP_SRC) (256 * m.g K.NV_OP_PAGES) = true → m.g K.NV_OP_STATE ≠ 1 → m.wp b = false →
    m1 = m.puts [(K.NV_OP_STATE, 1), (K.NV_OP_FAIL, 0)] → m1.blkFailed b = false →
    m1.hostBytes s.mem (m.g K.NV_OP_SRC) (256 * m.g K.NV_OP_PAGES) = (bs, m2) →
    exec .nvOpProgram s = .next (s.answered K.NV_OP_CTRL (leBytes 1 2) (m2.flashAdd (.userProg b (m.g K.NV_OP_PAGE) bs))))

/-- Write protection only grows, the protected configuration is staged and stored, the customer part of the OTP row takes the ones of
the data, and the event log is read and cleared (R381, R383, R386, R390). -/
def Obligations.ProtectionAndLogComplete : Prop :=
  (∀ (s : State) (m : Mach) (v : Nat), s.quiet = m → s.admits K.NV_WP_LO (leBytes 8 v) = some v →
    exec (.nvWpLo v) s = .next (s.answered K.NV_WP_LO (leBytes 8 v) (m.put K.NV_WP_LO (m.g K.NV_WP_LO ||| v))))
  ∧ (∀ (s : State) (m : Mach) (v : Nat), s.quiet = m → s.admits K.NV_WP_HI (leBytes 8 v) = some v → v &&& 0x3C = 0 →
    exec (.nvWpHi v) s = .next (s.answered K.NV_WP_HI (leBytes 8 v) (m.put K.NV_WP_HI (m.g K.NV_WP_HI ||| v))))
  ∧ (∀ (s : State) (m : Mach), s.quiet = m → s.admits K.NV_PROT_CTRL (leBytes 1 1) = some 1 →
    exec .protLoad s = .next (s.answered K.NV_PROT_CTRL (leBytes 1 1) (m.put K.NV_PROT_STAGE m.prot)))
  ∧ (∀ (s : State) (m m1 : Mach) (r : Nat), s.quiet = m → s.admits K.NV_PROT_CTRL (leBytes 1 2) = some 2 →
    bit (fld m.prot 6 1) 0 = false → m.g K.NV_PROT_STATE ≠ 1 → protInRange (m.g K.NV_PROT_STAGE) = true →
    r = protSealed (setFld (m.g K.NV_PROT_STAGE) 0 4 (fld m.prot 0 4 + 1)) → m1 = m.put K.NV_PROT_STATE 1 →
    m1.blkFailed m.protTarget = false →
    exec .protStore s = .next (s.answered K.NV_PROT_CTRL (leBytes 1 2) (m1.flashAdd (.protErase m.protTarget r))))
  ∧ (∀ (s : State) (m m1 : Mach) (data : List Byte) (v new : Nat), s.quiet = m → s.admits K.NV_OTP_CUSTOMER data = some v →
    bit m.flash.otp 4095 = false → 0 ≤ m.gi 16 K.DEV_DIE_TEMP → m.gi 16 K.DEV_DIE_TEMP ≤ 85 * 16 →
    new = v &&& (2 ^ 512 - 1 - (m.flash.otp / 256 ^ 0x1C0) % 2 ^ 512) →
    m1 = { m with flash := { m.flash with otp := m.flash.otp + new * 256 ^ 0x1C0 } } →
    exec (.nvOtpCustomer data none) s = .next (s.answered K.NV_OTP_CUSTOMER data (m1.put K.NV_OTP_STATE 0)))
  ∧ (∀ (s : State) (m : Mach) (ty : ObjTy), s.quiet = m → s.reads K.EV_LOG_RECORD = some ty →
    exec .evLogRecord s = .next (s.shown ty (m.logRecords.getD (m.g K.EV_LOG_SELECT) 0)
      (m.put K.EV_LOG_SELECT ((m.g K.EV_LOG_SELECT + 1) % 65536))))
  ∧ (∀ (s : State) (m m1 : Mach) (b : Nat) (bs : List Nat), s.quiet = m → s.admits K.EV_LOG_CLEAR (leBytes 1 1) = some 1 →
    m.flash.logClear = [] → (List.range 4).filter (fun b => !(m.blkFailed (66 + b))) = b :: bs →
    m1 = { m with flash := { m.flash with logClear := b :: bs } } → (∀ j, j ∈ m1.flash.jobs → j.eraseBlock ≠ some (66 + b)) →
    exec (.evLogClear 1) s = .next (s.answered K.EV_LOG_CLEAR (leBytes 1 1) (m1.flashAdd (.logErase (66 + b)))))

/-! ### Serial ports, ch. 17 -/

/-- The serial ports: a port is disabled and enabled, its settings written, a start bit is taken or found false, a character received, moved
to its ring and sent, the ring pointers move, a break is put out, CTS ends its wait (R394 to R405). -/
def Obligations.UartCommandsComplete : Prop :=
  (∀ (s : State) (m m1 : Mach) (u : Nat), s.quiet = m → s.admits (K.UA_MODE u) (leBytes 1 0) = some 0 → m.g (K.UA_MODE u) ≠ 0 →
    m1 = m.modUart u (fun y =>
      { y with rx := [], tx := [], started := false, waitHigh := false, waitCts := false, lost := false, txUsed := false,
               breaking := false, rtsHigh := true, breakEnd := none, inBreak := false }) →
    exec (.uaMode u 0) s = .next (s.answered (K.UA_MODE u) (leBytes 1 0) ((m1.put (K.UA_MODE u) 0).uaRates u)))
  ∧ (∀ (s : State) (m m1 m2 : Mach) (u v : Nat), s.quiet = m → s.admits (K.UA_MODE u) (leBytes 1 v) = some v → m.g (K.UA_MODE u) = 0 →
    (v = 1 ∨ (u < 2 ∧ ((v = 2 ∧ 3 ≤ m.g (K.UA_RL_DIV u)) ∨ (v = 3 ∧ 8 ≤ m.g (K.UA_RL_DIV u))))) →
    inHostArea (m.g (K.UA_RX_BASE u)) (2 * m.g (K.UA_RX_SIZE u)) = true → inHostArea (m.g (K.UA_TX_BASE u)) (m.g (K.UA_TX_SIZE u)) = true →
    m1 = (m.sample (uaEnableKeys u)).put (K.UA_MODE u) v →
    m2 = m1.modUart u (fun y =>
      { y with rx := [], tx := [], started := false, waitHigh := true, lost := false, txUsed := false,
               held := { div := m.g (K.UA_RL_DIV u), bits := m.g (K.UA_DATA_BITS u), parity := m.g (K.UA_PARITY u), stop := m.g (K.UA_STOP u) } }) →
    exec (.uaMode u v) s = .next (s.answered (K.UA_MODE u) (leBytes 1 v) (((m2.uaRates u).uaRts u).uaPump s.mem u)))
  ∧ (∀ (s : State) (m : Mach) (u v : Nat), s.quiet = m → s.admits (K.UA_RATE u) (leBytes 4 v) = some v → 300 ≤ v → v ≤ 12500000 →
    exec (.uaRate u v) s = .next (s.answered (K.UA_RATE u) (leBytes 4 v) ((m.put (K.UA_RATE u) v).uaRates u)))
  ∧ (∀ (s : State) (m : Mach) (u v : Nat), s.quiet = m → m.g (K.UA_MODE u) < 2 →
    (s.admits (K.UA_DATA_BITS u) (leBytes 1 v) = some v →
      exec (.uaDataBits u v) s = .next (s.answered (K.UA_DATA_BITS u) (leBytes 1 v) (m.put (K.UA_DATA_BITS u) v)))
    ∧ (s.admits (K.UA_PARITY u) (leBytes 1 v) = some v →
      exec (.uaParity u v) s = .next (s.answered (K.UA_PARITY u) (leBytes 1 v) (m.put (K.UA_PARITY u) v)))
    ∧ (s.admits (K.UA_STOP u) (leBytes 1 v) = some v →
      exec (.uaStop u v) s = .next (s.answered (K.UA_STOP u) (leBytes 1 v) (m.put (K.UA_STOP u) v))))
  ∧ (∀ (s : State) (m : Mach) (u v : Nat), s.quiet = m → s.admits (K.UA_RL_DIV u) (leBytes 2 v) = some v → 3 ≤ v →
    m.g (K.UA_MODE u) < 2 →
    exec (.uaRlDiv u v) s = .next (s.answered (K.UA_RL_DIV u) (leBytes 2 v) ((m.put (K.UA_RL_DIV u) v).uaRates u)))
  ∧ (∀ (s : State) (m : Mach) (u v : Nat), s.quiet = m → s.admits (K.UA_RX_RD u) (leBytes 2 v) = some v →
    v < m.uaSize u (K.UA_RX_SIZE u) → ringDist (m.uaSize u (K.UA_RX_SIZE u)) (m.g (K.UA_RX_RD u)) v
      ≤ ringDist (m.uaSize u (K.UA_RX_SIZE u)) (m.g (K.UA_RX_RD u)) (m.g (K.UA_RX_WR u)) →
    exec (.uaRxRd u v) s = .next (s.answered (K.UA_RX_RD u) (leBytes 2 v) (m.put (K.UA_RX_RD u) v)))
  ∧ (∀ (s : State) (m m1 : Mach) (u v : Nat) (cts : Bool), s.quiet = m → s.admits (K.UA_TX_WR u) (leBytes 2 v) = some v →
    m1 = m.modUart u (fun y => { y with ctsHigh := cts }) →
    v < m1.uaSize u (K.UA_TX_SIZE u) → ringDist (m1.uaSize u (K.UA_TX_SIZE u)) (m1.g (K.UA_TX_RD u)) (m1.g (K.UA_TX_WR u))
      ≤ ringDist (m1.uaSize u (K.UA_TX_SIZE u)) (m1.g (K.UA_TX_RD u)) v →
    exec (.uaTxWr u v cts) s = .next (s.answered (K.UA_TX_WR u) (leBytes 2 v) ((m1.put (K.UA_TX_WR u) v).uaPump s.mem u)))
  ∧ (∀ (s : State) (m : Mach) (u : Nat), s.quiet = m → s.admits (K.UA_TX_BREAK u) (leBytes 1 1) = some 1 →
    exec (.uaTxBreak u 1) s = .next (s.answered (K.UA_TX_BREAK u) (leBytes 1 1) ((m.put (K.UA_TX_BREAK u) 1).uaBegin u)))
  ∧ (∀ (s : State) (m m1 : Mach) (u sample : Nat), s.quiet = m → m.g (K.UA_MODE u) ≠ 0 → (m.uart u).started = false →
    m1 = m.modUart u (fun x => { x with rxSet := m.uaSet u, waitHigh := false, inBreak := false }) →
    (m1.uaDecide u sample = true → exec (.uartStartEdge u sample) s = .next (s.settle
      ((m1.modUart u (fun x => { x with rxdHigh := true })).count (K.UA_FALSE_STARTS u))))
    ∧ (m1.uaDecide u sample = false → exec (.uartStartEdge u sample) s = .next (s.settle
      (m1.modUart u (fun x => { x with started := true, rxdHigh := false })))))
  ∧ (∀ (s : State) (m m1 : Mach) (u data par : Nat) (samples : List Nat) (set : UartSet) (stop : Bool), s.quiet = m →
    (m.uart u).started = true → (m.uart u).rxSet = set →
    data = (List.range set.bits).foldl (fun d i => d + b2n (m.uaDecide u (samples.getD i 7)) * 2 ^ i) 0 →
    par = (if set.parity = 0 then 0 else b2n (m.uaDecide u (samples.getD set.bits 7))) →
    stop = m.uaDecide u (samples.getD (set.bits + (if set.parity = 0 then 0 else 1)) 7) →
    m1 = m.modUart u (fun x => { x with
      started := false, rxdHigh := stop, waitHigh := decide (data = 0 ∧ par = 0 ∧ stop = false)
      inBreak := decide (data = 0 ∧ par = 0 ∧ stop = false) }) →
    (m1.uaDepth u ≤ (m1.uart u).rx.length →
      exec (.uartCharacterReceived u samples) s = .next (s.settle (m1.uaOverrun u)))
    ∧ ((m1.uart u).rx.length < m1.uaDepth u → data = 0 ∧ par = 0 ∧ stop = false →
      exec (.uartCharacterReceived u samples) s = .next (s.settle
        (((m1.uaEntry u 0x400).count (K.UA_BREAKS u)).raise 0x2F04 [u])))
    ∧ ((m1.uart u).rx.length < m1.uaDepth u → ¬ (data = 0 ∧ par = 0 ∧ stop = false) → ∀ (pe : Bool) (m2 m3 m4 : Mach),
      pe = decide (set.parity ≠ 0 ∧ par ≠ parityBit set.parity data) →
      m2 = m1.uaEntry u (data + (if pe then 0x100 else 0) + (if stop then 0 else 0x200)) →
      m3 = (if pe then m2.count (K.UA_PARITY_ERR u) else m2) → m4 = (if stop then m3 else m3.count (K.UA_FRAMING u)) →
      exec (.uartCharacterReceived u samples) s = .next (s.settle (if pe || !stop then m4.uaErrEvent u else m4))))
  ∧ (∀ (s : State) (m m1 m2 : Mach) (u e size wr rd : Nat) (rest : List Nat), s.quiet = m → (m.uart u).rx = e :: rest →
    m.g (K.UA_MODE u) ≠ 0 → m.h (K.UA_RX_SIZE u) = size → m.g (K.UA_RX_WR u) % size = wr → m.g (K.UA_RX_RD u) % size = rd →
    (wr + 1) % size ≠ rd → wr ≠ rd → m1 = m.storeNum (m.h (K.UA_RX_BASE u) + 2 * wr) 2 e →
    m2 = m1.modUart u (fun x => { x with rx := rest }) →
    exec (.uartRingStore u) s = .next (s.settle ((m2.put (K.UA_RX_WR u) ((wr + 1) % size)).uaRts u)))
  ∧ (∀ (s : State) (m m1 m2 : Mach) (u : Nat) (cts : Bool), s.quiet = m → (m.uart u).sending.isSome = true →
    m1 = m.modUart u (fun y => { y with sending := none, ctsHigh := cts }) → m1.uaFetchAll s.mem u = m2 →
    ((m2.uart u).tx ≠ [] → exec (.uartCharacterSent u cts) s = .next (s.settle (m2.uaPump s.mem u)))
    ∧ ((m2.uart u).tx = [] → (m2.uart u).txUsed = true → m2.g (K.UA_MODE u) ≠ 0 →
      exec (.uartCharacterSent u cts) s = .next (s.settle
        (((m2.modUart u (fun y => { y with txUsed := false })).raise 0x2F05 [u]).uaPump s.mem u))))
  ∧ (∀ (s : State) (m : Mach) (u : Nat), s.quiet = m →
    exec (.uartCtsLow u) s = .next (s.settle ((m.modUart u (fun y => { y with ctsHigh := false })).uaPump s.mem u)))

/-! ### Power, thermal protection and clocks, ch. 18 -/

/-- The supply monitor: a level below the warning spoils what prints and shuts the strobes, a recovery ends the warning, 20 ms without
one stop the machine, a level below the reset threshold resets, and reading the lowest level starts it anew (R412, R413, R414, R424).
The die temperature: a reading corrects the timings and sets throttle and shutdown, a missing one tells the sensor broken, the
throttle begins after its grace and ends after a second below its level, a forced throttle and a cleared shutdown act at once, reading
the peak starts it anew, and the power estimate is a free value within 15 % (R409, R418 to R422). -/
def Obligations.SupplyAndThermalComplete : Prop :=
  (∀ (s : State) (m m1 m2 m3 : Mach) (mv : Nat), s.quiet = m → mv < m.g K.DEV_VMON_WARN → m.sup ≠ .reset →
    m1 = { m.vmonSeen mv with vmonLow := true } → m2 = { m1 with dev := { m1.dev with
      warnAt := m1.dev.warnAt ++ [m1.time], warnFrom := if m1.g K.DEV_VMON_STATE = 0 then m1.time else m1.dev.warnFrom } } →
    m3 = (m2.put K.DEV_VMON_STATE 1).count K.DEV_VMON_WARNINGS →
    exec (.vmonWarning mv) s = .next (s.settle
      ((((m3.raise 0x200A [m3.g K.DEV_VMON_LEVEL]).spoilPrinting 6 .next).allStrobesOff.refreshSL).itemsMoved)))
  ∧ (∀ (s : State) (m m1 m2 : Mach) (mv : Nat), s.quiet = m → m.g K.DEV_VMON_STATE ≠ 0 → m.g K.DEV_VMON_RECOVER < mv → m.sup ≠ .reset →
    m1 = { m.vmonSeen mv with vmonLow := false } → m2 = { m1 with dev := { m1.dev with warnAt := [] } } →
    exec (.vmonRecover mv) s = .next (s.settle
      (((m2.put K.DEV_VMON_STATE 0).raise 0x200B [m2.time - m1.dev.warnFrom]).scanResume).refreshSL))
  ∧ (∀ (s : State) (m m1 : Mach) (t : Nat) (rest : List Nat), s.quiet = m → m.dev.warnAt = t :: rest → t + 20000 ≤ m.time →
    m1 = { m with dev := { m.dev with warnAt := rest } } →
    exec .vmonWindowExpired s = .next (s.settle
      (((((m1.put K.DEV_VMON_STATE 2).count K.DEV_VMON_STOPS).raise 0x200C []).controlledStop).itemsMoved)))
  ∧ (∀ (s : State) (m : Mach) (mv : Nat), s.quiet = m → mv < m.g K.DEV_VMON_RESET →
    exec (.vmonReset mv) s = .next (s.settle (m.resetTo 3 0)))
  ∧ (∀ (s : State) (m : Mach) (ty : ObjTy), s.quiet = m → s.reads K.DEV_VMON_MIN = some ty →
    exec .devVmonMin s = .next (s.shown ty (m.g K.DEV_VMON_MIN) (m.put K.DEV_VMON_MIN (m.g K.DEV_VMON_LEVEL))))
  ∧ (∀ (s : State) (m : Mach) (c : Nat), s.quiet = m → c ≠ 0 → exec (.clockFailure c) s = .next (s.settle (m.resetTo 0 c)))
  ∧ (∀ (s : State) (m m1 : Mach) (t : Int), s.quiet = m → m.sup ≠ .reset → -800 ≤ t → t ≤ 2800 → m.g K.DEV_SENSOR_BROKEN = 0 →
    m.dev.tempSeen = false →
    m1 = { m.puti 16 K.DEV_DIE_TEMP_RAW t with dev := { m.dev with tempAt := m.time, sameAt := m.time } } → m1.stuckSensor = false →
    exec (.dieTempReading t false) s = .next (s.settle ((m1.compensate t).tempPolicy t)))
  ∧ (∀ (s : State) (m : Mach), s.quiet = m → m.sup ≠ .reset → m.dev.tempAt + 3000 ≤ m.time → m.g K.DEV_SENSOR_BROKEN = 0 →
    exec .sensorNoReading s = .next (s.settle (((m.put K.DEV_SENSOR_BROKEN 1).raise 0x2009 [m.g K.DEV_DIE_TEMP_RAW]).tempPolicy 2016)))
  ∧ (∀ (s : State) (m : Mach) (t : Nat), s.quiet = m → m.dev.graceAt = some t → t ≤ m.time → m.g K.DEV_THROTTLE_STATE = 1 →
    (1600 ≤ m.gi 16 K.DEV_DIE_TEMP → exec .throttleGraceEnd s = .next (s.settle (m.throttle 1)))
    ∧ (m.gi 16 K.DEV_DIE_TEMP < 1600 → exec .throttleGraceEnd s = .next (s.settle
      { m.put K.DEV_THROTTLE_STATE 0 with dev := { m.dev with graceAt := none } })))
  ∧ (∀ (s : State) (m : Mach) (t : Nat), s.quiet = m → m.dev.coolAt = some t → t + 1000000 ≤ m.time → m.g K.DEV_THROTTLE_STATE = 2 →
    m.g K.DEV_THROTTLE_FORCE = 0 →
    exec .throttleRelease s = .next (s.settle
      (((m.puts [(K.RD_CLOVE_MHZ, 1000), (K.DEV_THROTTLE_STATE, 0)]).raise 0x2006 []).itemsMoved)))
  ∧ (∀ (s : State) (m : Mach), s.quiet = m → s.admits K.DEV_THROTTLE_FORCE (leBytes 1 1) = some 1 →
    exec (.devThrottleForce 1) s = .next (s.answered K.DEV_THROTTLE_FORCE (leBytes 1 1) ((m.put K.DEV_THROTTLE_FORCE 1).throttle 3)))
  ∧ (∀ (s : State) (m : Mach), s.quiet = m → s.admits K.DEV_SHUTDOWN_CLEAR (leBytes 1 1) = some 1 → m.gi 16 K.DEV_DIE_TEMP < 1520 →
    m.g K.DEV_SENSOR_BROKEN = 0 → m.g K.DEV_SHUTDOWN ≠ 0 →
    exec (.devShutdownClear 1) s = .next (s.answered K.DEV_SHUTDOWN_CLEAR (leBytes 1 1)
      ((m.put K.DEV_SHUTDOWN 0).raise 0x2008 []).refreshSL))
  ∧ (∀ (s : State) (m : Mach) (ty : ObjTy), s.quiet = m → s.reads K.DEV_TEMP_PEAK = some ty →
    exec .devTempPeak s = .next (s.shown ty (m.g K.DEV_TEMP_PEAK) (m.put K.DEV_TEMP_PEAK (m.g K.DEV_DIE_TEMP))))
  ∧ (∀ (s : State) (m : Mach) (rates : List Nat), s.quiet = m →
    ∃ p, m.powerNominal rates * 85 / 100 ≤ p ∧ p ≤ m.powerNominal rates * 115 / 100 ∧
    ∀ m1 : Mach, m1 = Mach.put { m with fresh := m.fresh + 1 } K.DEV_POWER_EST (p % 65536) →
    exec (.powerEstimate rates) s = .next (s.settle { m1 with dev := { m1.dev with
      powers := m1.dev.powers.filter (fun (q : Nat × Nat) => decide (m1.time ≤ q.1 + 1000000)) ++ [(m1.time, m1.g K.DEV_POWER_EST)] } }))

/-! ### Balls, ch. 19 -/

/-- The output balls: in reset, of an absent unit and, but for the networks, in recovery mode each holds its reset state, so every ball does
after a VMON reset; EN_PHY_RST_N is released once the block is out of reset; forced-off strobes are inactive by their polarity, and
with the diodes off no video, laser enable or APC line is driven (R428, R429, R436). -/
def Obligations.BallLevels : Prop :=
  (∀ (m : Mach) (b : Ball), (m.ballPresent b = false ∨ m.sup = .reset ∨ (m.sup = .recovery ∧ b.network = false)) →
    m.ball b = b.resetLevel)
  ∧ (∀ (s : State) (m : Mach) (mv : Nat), s.quiet = m → mv < m.g K.DEV_VMON_RESET →
    ∃ t, exec (.vmonReset mv) s = .next t ∧ ∀ b, t.m.ball b = b.resetLevel)
  ∧ (∀ (m : Mach) (en : Nat), m.sup ≠ .reset → m.ball (.phyRstN en) = .high)
  ∧ (∀ (m : Mach) (hp n : Nat), hp < m.nHeads → m.sup ≠ .reset → m.sup ≠ .recovery → m.strobesHeld hp = true → m.strobesForced hp = true →
    m.ball (.head hp (.stb n)) = if bit (m.h (K.HP_POLARITY hp)) 1 then .low else .high)
  ∧ (∀ (m : Mach) (beam : Nat), m.hasSL = true → m.sup ≠ .reset → m.sup ≠ .recovery → m.diodesOff = true →
    m.ball (.laser (.vid beam)) = .low ∧ m.ball (.laser (.lden beam)) = .low ∧ m.ball (.laser (.apc beam)) = .low)
end

