-- ==== Sys2Proof/Laws/Store.lean ====
section
/-! SUPPORT. Laws of sparse data by key: a read after a write, and that every write keeps the canonical form. -/

namespace Sys2Proof.Machine.Store

variable {α : Type} [DecidableEq α]

omit [DecidableEq α] in
theorem find_insert_same (k : Nat) (v : α) (l : List (Nat × α)) : find k (insert k v l) = some v := by
  induction l with
  | nil => simp [insert, find]
  | cons p l ih =>
    obtain ⟨a, w⟩ := p
    simp only [insert]
    split
    · next h => simp [find, Nat.ne_of_lt h, ih]
    · split <;> simp [find]

omit [DecidableEq α] in
theorem find_insert_other {j k : Nat} (h : j ≠ k) (v : α) (l : List (Nat × α)) : find j (insert k v l) = find j l := by
  induction l with
  | nil => simp [insert, find, Ne.symm h]
  | cons p l ih =>
    obtain ⟨a, w⟩ := p
    simp only [insert]
    split
    · simp only [find, ih]
    · split
      · next e => subst e; simp [find, Ne.symm h]
      · simp [find, Ne.symm h]

omit [DecidableEq α] in
theorem find_erase_same (k : Nat) (l : List (Nat × α)) : find k (erase k l) = none := by
  induction l with
  | nil => rfl
  | cons p l ih =>
    obtain ⟨a, w⟩ := p
    simp only [erase]
    split
    · exact ih
    · next h => simp [find, h, ih]

omit [DecidableEq α] in
theorem find_erase_other {j k : Nat} (h : j ≠ k) (l : List (Nat × α)) : find j (erase k l) = find j l := by
  induction l with
  | nil => rfl
  | cons p l ih =>
    obtain ⟨a, w⟩ := p
    simp only [erase]
    split
    · next e => subst e; simp [find, Ne.symm h, ih]
    · simp only [find, ih]

/-- A read of a key after a write of it gives the value written. -/
@[simp] theorem get_put_same (d : Nat → α) (k : Nat) (v : α) (l : List (Nat × α)) : get d k (put d k v l) = v := by
  unfold put get
  by_cases h : v = d k
  · rw [if_pos h, find_erase_same, h]
  · rw [if_neg h, find_insert_same]

/-- A write of a key leaves every other key as it was. -/
theorem get_put_other (d : Nat → α) {j k : Nat} (h : j ≠ k) (v : α) (l : List (Nat × α)) :
    get d j (put d k v l) = get d j l := by
  unfold put get
  by_cases e : v = d k
  · rw [if_pos e, find_erase_other h]
  · rw [if_neg e, find_insert_other h]

theorem get_put (d : Nat → α) (j k : Nat) (v : α) (l : List (Nat × α)) :
    get d j (put d k v l) = if j = k then v else get d j l := by
  split
  · next h => subst h; simp
  · next h => exact get_put_other d h v l

/-- Several writes leave a key that none of them names as it was. -/
theorem get_putAll_other (d : Nat → α) (j : Nat) (ws : List (Nat × α)) (l : List (Nat × α))
    (h : ∀ w ∈ ws, w.1 ≠ j) : get d j (putAll d ws l) = get d j l := by
  induction ws generalizing l with
  | nil => rfl
  | cons w ws ih =>
    show get d j (putAll d ws (put d w.1 w.2 l)) = _
    rw [ih _ (fun x hx => h x (List.mem_cons_of_mem _ hx)), get_put_other d (Ne.symm (h w List.mem_cons_self))]

/-- Whether a lower bound admits a key. -/
theorem wfAbove_cons (d : Nat → α) (lo : Option Nat) (a : Nat) (v : α) (l : List (Nat × α)) :
    wfAbove d lo ((a, v) :: l) = true ↔ (∀ k, lo = some k → k < a) ∧ v ≠ d a ∧ wfAbove d (some a) l = true := by
  cases lo <;> simp [wfAbove, and_assoc]

theorem wfAbove_mono (d : Nat → α) {lo lo' : Option Nat} {l : List (Nat × α)}
    (hl : ∀ k, lo' = some k → ∃ j, lo = some j ∧ k ≤ j) (h : wfAbove d lo l = true) : wfAbove d lo' l = true := by
  cases l with
  | nil => cases lo' <;> rfl
  | cons p l =>
    obtain ⟨a, v⟩ := p
    rw [wfAbove_cons] at h ⊢
    refine ⟨fun k hk => ?_, h.2⟩
    obtain ⟨j, hj, hkj⟩ := hl k hk
    exact Nat.lt_of_le_of_lt hkj (h.1 j hj)

theorem wfAbove_erase (d : Nat → α) (k : Nat) (l : List (Nat × α)) :
    ∀ lo, wfAbove d lo l = true → wfAbove d lo (erase k l) = true := by
  induction l with
  | nil => intro lo h; exact h
  | cons p l ih =>
    obtain ⟨a, v⟩ := p
    intro lo h
    rw [wfAbove_cons] at h
    simp only [erase]
    split
    · exact ih lo (wfAbove_mono d (fun j hj => ⟨a, rfl, Nat.le_of_lt (h.1 j hj)⟩) h.2.2)
    · rw [wfAbove_cons]; exact ⟨h.1, h.2.1, ih _ h.2.2⟩

theorem wfAbove_insert (d : Nat → α) (k : Nat) (v : α) (hv : v ≠ d k) (l : List (Nat × α)) :
    ∀ lo, (∀ j, lo = some j → j < k) → wfAbove d lo l = true → wfAbove d lo (insert k v l) = true := by
  induction l with
  | nil => intro lo hlo _; simp only [insert]; rw [wfAbove_cons]; exact ⟨hlo, hv, rfl⟩
  | cons p l ih =>
    obtain ⟨a, w⟩ := p
    intro lo hlo h
    rw [wfAbove_cons] at h
    simp only [insert]
    split
    · next hak =>
      rw [wfAbove_cons]
      exact ⟨h.1, h.2.1, ih _ (fun j hj => by cases hj; exact hak) h.2.2⟩
    · next hak =>
      split
      · next e => subst e; rw [wfAbove_cons]; exact ⟨hlo, hv, h.2.2⟩
      · next hne =>
        rw [wfAbove_cons, wfAbove_cons]
        exact ⟨hlo, hv, fun j hj => by cases hj; omega, h.2.1, h.2.2⟩

/-- A write keeps the canonical form. -/
theorem wf_put (d : Nat → α) (k : Nat) (v : α) (l : List (Nat × α)) (h : wf d l = true) : wf d (put d k v l) = true := by
  unfold put
  split
  · exact wfAbove_erase d k l none h
  · next hv => exact wfAbove_insert d k v hv l none (fun _ hj => by cases hj) h

/-- Several writes keep the canonical form. -/
theorem wf_putAll (d : Nat → α) (ws : List (Nat × α)) : ∀ l, wf d l = true → wf d (putAll d ws l) = true := by
  induction ws with
  | nil => intro l h; exact h
  | cons w ws ih => intro l h; exact ih _ (wf_put d w.1 w.2 l h)

end Sys2Proof.Machine.Store
end

