-- ==== Sys2Proof/Laws/State.lean ====
section
/-! SUPPORT. What each update of the machine leaves as it was, one lemma for each field, all by definition; and the object
values after each. -/

namespace Sys2Proof.Machine

open Sys2Proof

variable (m : Mach)

/-! ### put -/

@[simp] theorem Mach.put_variant (k v : Nat) : (m.put k v).variant = m.variant := rfl
@[simp] theorem Mach.put_held (k v : Nat) : (m.put k v).held = m.held := rfl
@[simp] theorem Mach.put_time (k v : Nat) : (m.put k v).time = m.time := rfl
@[simp] theorem Mach.put_fresh (k v : Nat) : (m.put k v).fresh = m.fresh := rfl
@[simp] theorem Mach.put_vmonLow (k v : Nat) : (m.put k v).vmonLow = m.vmonLow := rfl
@[simp] theorem Mach.put_prot (k v : Nat) : (m.put k v).prot = m.prot := rfl
@[simp] theorem Mach.put_sup (k v : Nat) : (m.put k v).sup = m.sup := rfl
@[simp] theorem Mach.put_ev (k v : Nat) : (m.put k v).ev = m.ev := rfl
@[simp] theorem Mach.put_items (k v : Nat) : (m.put k v).items = m.items := rfl
@[simp] theorem Mach.put_order (k v : Nat) : (m.put k v).order = m.order := rfl
@[simp] theorem Mach.put_ledger (k v : Nat) : (m.put k v).ledger = m.ledger := rfl
@[simp] theorem Mach.put_clusters (k v : Nat) : (m.put k v).clusters = m.clusters := rfl
@[simp] theorem Mach.put_heads (k v : Nat) : (m.put k v).heads = m.heads := rfl
@[simp] theorem Mach.put_net (k v : Nat) : (m.put k v).net = m.net := rfl
@[simp] theorem Mach.put_test (k v : Nat) : (m.put k v).test = m.test := rfl
@[simp] theorem Mach.put_an (k v : Nat) : (m.put k v).an = m.an := rfl
@[simp] theorem Mach.put_axes (k v : Nat) : (m.put k v).axes = m.axes := rfl
@[simp] theorem Mach.put_motion (k v : Nat) : (m.put k v).motion = m.motion := rfl
@[simp] theorem Mach.put_stations (k v : Nat) : (m.put k v).stations = m.stations := rfl
@[simp] theorem Mach.put_sl (k v : Nat) : (m.put k v).sl = m.sl := rfl
@[simp] theorem Mach.put_cams (k v : Nat) : (m.put k v).cams = m.cams := rfl
@[simp] theorem Mach.put_ctxs (k v : Nat) : (m.put k v).ctxs = m.ctxs := rfl
@[simp] theorem Mach.put_pipes (k v : Nat) : (m.put k v).pipes = m.pipes := rfl
@[simp] theorem Mach.put_insp (k v : Nat) : (m.put k v).insp = m.insp := rfl
@[simp] theorem Mach.put_calSets (k v : Nat) : (m.put k v).calSets = m.calSets := rfl
@[simp] theorem Mach.put_calFlash (k v : Nat) : (m.put k v).calFlash = m.calFlash := rfl
@[simp] theorem Mach.put_calStoring (k v : Nat) : (m.put k v).calStoring = m.calStoring := rfl
@[simp] theorem Mach.put_calResult (k v : Nat) : (m.put k v).calResult = m.calResult := rfl
@[simp] theorem Mach.put_badWords (k v : Nat) : (m.put k v).badWords = m.badWords := rfl
@[simp] theorem Mach.put_flash (k v : Nat) : (m.put k v).flash = m.flash := rfl
@[simp] theorem Mach.put_uarts (k v : Nat) : (m.put k v).uarts = m.uarts := rfl
@[simp] theorem Mach.put_cf1 (k v : Nat) : (m.put k v).cf1 = m.cf1 := rfl
@[simp] theorem Mach.put_dev (k v : Nat) : (m.put k v).dev = m.dev := rfl
@[simp] theorem Mach.put_out (k v : Nat) : (m.put k v).out = m.out := rfl
@[simp] theorem Mach.put_stores (k v : Nat) : (m.put k v).stores = m.stores := rfl
@[simp] theorem Mach.put_h (k v : Nat) (j : Nat) : (m.put k v).h j = m.h j := rfl

/-! ### puti -/

@[simp] theorem Mach.puti_variant (w k : Nat) (v : Int) : (m.puti w k v).variant = m.variant := rfl
@[simp] theorem Mach.puti_held (w k : Nat) (v : Int) : (m.puti w k v).held = m.held := rfl
@[simp] theorem Mach.puti_time (w k : Nat) (v : Int) : (m.puti w k v).time = m.time := rfl
@[simp] theorem Mach.puti_fresh (w k : Nat) (v : Int) : (m.puti w k v).fresh = m.fresh := rfl
@[simp] theorem Mach.puti_vmonLow (w k : Nat) (v : Int) : (m.puti w k v).vmonLow = m.vmonLow := rfl
@[simp] theorem Mach.puti_prot (w k : Nat) (v : Int) : (m.puti w k v).prot = m.prot := rfl
@[simp] theorem Mach.puti_sup (w k : Nat) (v : Int) : (m.puti w k v).sup = m.sup := rfl
@[simp] theorem Mach.puti_ev (w k : Nat) (v : Int) : (m.puti w k v).ev = m.ev := rfl
@[simp] theorem Mach.puti_items (w k : Nat) (v : Int) : (m.puti w k v).items = m.items := rfl
@[simp] theorem Mach.puti_order (w k : Nat) (v : Int) : (m.puti w k v).order = m.order := rfl
@[simp] theorem Mach.puti_ledger (w k : Nat) (v : Int) : (m.puti w k v).ledger = m.ledger := rfl
@[simp] theorem Mach.puti_clusters (w k : Nat) (v : Int) : (m.puti w k v).clusters = m.clusters := rfl
@[simp] theorem Mach.puti_heads (w k : Nat) (v : Int) : (m.puti w k v).heads = m.heads := rfl
@[simp] theorem Mach.puti_net (w k : Nat) (v : Int) : (m.puti w k v).net = m.net := rfl
@[simp] theorem Mach.puti_test (w k : Nat) (v : Int) : (m.puti w k v).test = m.test := rfl
@[simp] theorem Mach.puti_an (w k : Nat) (v : Int) : (m.puti w k v).an = m.an := rfl
@[simp] theorem Mach.puti_axes (w k : Nat) (v : Int) : (m.puti w k v).axes = m.axes := rfl
@[simp] theorem Mach.puti_motion (w k : Nat) (v : Int) : (m.puti w k v).motion = m.motion := rfl
@[simp] theorem Mach.puti_stations (w k : Nat) (v : Int) : (m.puti w k v).stations = m.stations := rfl
@[simp] theorem Mach.puti_sl (w k : Nat) (v : Int) : (m.puti w k v).sl = m.sl := rfl
@[simp] theorem Mach.puti_cams (w k : Nat) (v : Int) : (m.puti w k v).cams = m.cams := rfl
@[simp] theorem Mach.puti_ctxs (w k : Nat) (v : Int) : (m.puti w k v).ctxs = m.ctxs := rfl
@[simp] theorem Mach.puti_pipes (w k : Nat) (v : Int) : (m.puti w k v).pipes = m.pipes := rfl
@[simp] theorem Mach.puti_insp (w k : Nat) (v : Int) : (m.puti w k v).insp = m.insp := rfl
@[simp] theorem Mach.puti_calSets (w k : Nat) (v : Int) : (m.puti w k v).calSets = m.calSets := rfl
@[simp] theorem Mach.puti_calFlash (w k : Nat) (v : Int) : (m.puti w k v).calFlash = m.calFlash := rfl
@[simp] theorem Mach.puti_calStoring (w k : Nat) (v : Int) : (m.puti w k v).calStoring = m.calStoring := rfl
@[simp] theorem Mach.puti_calResult (w k : Nat) (v : Int) : (m.puti w k v).calResult = m.calResult := rfl
@[simp] theorem Mach.puti_badWords (w k : Nat) (v : Int) : (m.puti w k v).badWords = m.badWords := rfl
@[simp] theorem Mach.puti_flash (w k : Nat) (v : Int) : (m.puti w k v).flash = m.flash := rfl
@[simp] theorem Mach.puti_uarts (w k : Nat) (v : Int) : (m.puti w k v).uarts = m.uarts := rfl
@[simp] theorem Mach.puti_cf1 (w k : Nat) (v : Int) : (m.puti w k v).cf1 = m.cf1 := rfl
@[simp] theorem Mach.puti_dev (w k : Nat) (v : Int) : (m.puti w k v).dev = m.dev := rfl
@[simp] theorem Mach.puti_out (w k : Nat) (v : Int) : (m.puti w k v).out = m.out := rfl
@[simp] theorem Mach.puti_stores (w k : Nat) (v : Int) : (m.puti w k v).stores = m.stores := rfl
@[simp] theorem Mach.puti_h (w k : Nat) (v : Int) (j : Nat) : (m.puti w k v).h j = m.h j := rfl

/-! ### count -/

@[simp] theorem Mach.count_variant (k n : Nat) : (m.count k n).variant = m.variant := rfl
@[simp] theorem Mach.count_held (k n : Nat) : (m.count k n).held = m.held := rfl
@[simp] theorem Mach.count_time (k n : Nat) : (m.count k n).time = m.time := rfl
@[simp] theorem Mach.count_fresh (k n : Nat) : (m.count k n).fresh = m.fresh := rfl
@[simp] theorem Mach.count_vmonLow (k n : Nat) : (m.count k n).vmonLow = m.vmonLow := rfl
@[simp] theorem Mach.count_prot (k n : Nat) : (m.count k n).prot = m.prot := rfl
@[simp] theorem Mach.count_sup (k n : Nat) : (m.count k n).sup = m.sup := rfl
@[simp] theorem Mach.count_ev (k n : Nat) : (m.count k n).ev = m.ev := rfl
@[simp] theorem Mach.count_items (k n : Nat) : (m.count k n).items = m.items := rfl
@[simp] theorem Mach.count_order (k n : Nat) : (m.count k n).order = m.order := rfl
@[simp] theorem Mach.count_ledger (k n : Nat) : (m.count k n).ledger = m.ledger := rfl
@[simp] theorem Mach.count_clusters (k n : Nat) : (m.count k n).clusters = m.clusters := rfl
@[simp] theorem Mach.count_heads (k n : Nat) : (m.count k n).heads = m.heads := rfl
@[simp] theorem Mach.count_net (k n : Nat) : (m.count k n).net = m.net := rfl
@[simp] theorem Mach.count_test (k n : Nat) : (m.count k n).test = m.test := rfl
@[simp] theorem Mach.count_an (k n : Nat) : (m.count k n).an = m.an := rfl
@[simp] theorem Mach.count_axes (k n : Nat) : (m.count k n).axes = m.axes := rfl
@[simp] theorem Mach.count_motion (k n : Nat) : (m.count k n).motion = m.motion := rfl
@[simp] theorem Mach.count_stations (k n : Nat) : (m.count k n).stations = m.stations := rfl
@[simp] theorem Mach.count_sl (k n : Nat) : (m.count k n).sl = m.sl := rfl
@[simp] theorem Mach.count_cams (k n : Nat) : (m.count k n).cams = m.cams := rfl
@[simp] theorem Mach.count_ctxs (k n : Nat) : (m.count k n).ctxs = m.ctxs := rfl
@[simp] theorem Mach.count_pipes (k n : Nat) : (m.count k n).pipes = m.pipes := rfl
@[simp] theorem Mach.count_insp (k n : Nat) : (m.count k n).insp = m.insp := rfl
@[simp] theorem Mach.count_calSets (k n : Nat) : (m.count k n).calSets = m.calSets := rfl
@[simp] theorem Mach.count_calFlash (k n : Nat) : (m.count k n).calFlash = m.calFlash := rfl
@[simp] theorem Mach.count_calStoring (k n : Nat) : (m.count k n).calStoring = m.calStoring := rfl
@[simp] theorem Mach.count_calResult (k n : Nat) : (m.count k n).calResult = m.calResult := rfl
@[simp] theorem Mach.count_badWords (k n : Nat) : (m.count k n).badWords = m.badWords := rfl
@[simp] theorem Mach.count_flash (k n : Nat) : (m.count k n).flash = m.flash := rfl
@[simp] theorem Mach.count_uarts (k n : Nat) : (m.count k n).uarts = m.uarts := rfl
@[simp] theorem Mach.count_cf1 (k n : Nat) : (m.count k n).cf1 = m.cf1 := rfl
@[simp] theorem Mach.count_dev (k n : Nat) : (m.count k n).dev = m.dev := rfl
@[simp] theorem Mach.count_out (k n : Nat) : (m.count k n).out = m.out := rfl
@[simp] theorem Mach.count_stores (k n : Nat) : (m.count k n).stores = m.stores := rfl
@[simp] theorem Mach.count_h (k n : Nat) (j : Nat) : (m.count k n).h j = m.h j := rfl

/-! ### sample -/

@[simp] theorem Mach.sample_variant (ks : List Nat) : (m.sample ks).variant = m.variant := rfl
@[simp] theorem Mach.sample_dict (ks : List Nat) : (m.sample ks).dict = m.dict := rfl
@[simp] theorem Mach.sample_time (ks : List Nat) : (m.sample ks).time = m.time := rfl
@[simp] theorem Mach.sample_fresh (ks : List Nat) : (m.sample ks).fresh = m.fresh := rfl
@[simp] theorem Mach.sample_vmonLow (ks : List Nat) : (m.sample ks).vmonLow = m.vmonLow := rfl
@[simp] theorem Mach.sample_prot (ks : List Nat) : (m.sample ks).prot = m.prot := rfl
@[simp] theorem Mach.sample_sup (ks : List Nat) : (m.sample ks).sup = m.sup := rfl
@[simp] theorem Mach.sample_ev (ks : List Nat) : (m.sample ks).ev = m.ev := rfl
@[simp] theorem Mach.sample_items (ks : List Nat) : (m.sample ks).items = m.items := rfl
@[simp] theorem Mach.sample_order (ks : List Nat) : (m.sample ks).order = m.order := rfl
@[simp] theorem Mach.sample_ledger (ks : List Nat) : (m.sample ks).ledger = m.ledger := rfl
@[simp] theorem Mach.sample_clusters (ks : List Nat) : (m.sample ks).clusters = m.clusters := rfl
@[simp] theorem Mach.sample_heads (ks : List Nat) : (m.sample ks).heads = m.heads := rfl
@[simp] theorem Mach.sample_net (ks : List Nat) : (m.sample ks).net = m.net := rfl
@[simp] theorem Mach.sample_test (ks : List Nat) : (m.sample ks).test = m.test := rfl
@[simp] theorem Mach.sample_an (ks : List Nat) : (m.sample ks).an = m.an := rfl
@[simp] theorem Mach.sample_axes (ks : List Nat) : (m.sample ks).axes = m.axes := rfl
@[simp] theorem Mach.sample_motion (ks : List Nat) : (m.sample ks).motion = m.motion := rfl
@[simp] theorem Mach.sample_stations (ks : List Nat) : (m.sample ks).stations = m.stations := rfl
@[simp] theorem Mach.sample_sl (ks : List Nat) : (m.sample ks).sl = m.sl := rfl
@[simp] theorem Mach.sample_cams (ks : List Nat) : (m.sample ks).cams = m.cams := rfl
@[simp] theorem Mach.sample_ctxs (ks : List Nat) : (m.sample ks).ctxs = m.ctxs := rfl
@[simp] theorem Mach.sample_pipes (ks : List Nat) : (m.sample ks).pipes = m.pipes := rfl
@[simp] theorem Mach.sample_insp (ks : List Nat) : (m.sample ks).insp = m.insp := rfl
@[simp] theorem Mach.sample_calSets (ks : List Nat) : (m.sample ks).calSets = m.calSets := rfl
@[simp] theorem Mach.sample_calFlash (ks : List Nat) : (m.sample ks).calFlash = m.calFlash := rfl
@[simp] theorem Mach.sample_calStoring (ks : List Nat) : (m.sample ks).calStoring = m.calStoring := rfl
@[simp] theorem Mach.sample_calResult (ks : List Nat) : (m.sample ks).calResult = m.calResult := rfl
@[simp] theorem Mach.sample_badWords (ks : List Nat) : (m.sample ks).badWords = m.badWords := rfl
@[simp] theorem Mach.sample_flash (ks : List Nat) : (m.sample ks).flash = m.flash := rfl
@[simp] theorem Mach.sample_uarts (ks : List Nat) : (m.sample ks).uarts = m.uarts := rfl
@[simp] theorem Mach.sample_cf1 (ks : List Nat) : (m.sample ks).cf1 = m.cf1 := rfl
@[simp] theorem Mach.sample_dev (ks : List Nat) : (m.sample ks).dev = m.dev := rfl
@[simp] theorem Mach.sample_out (ks : List Nat) : (m.sample ks).out = m.out := rfl
@[simp] theorem Mach.sample_stores (ks : List Nat) : (m.sample ks).stores = m.stores := rfl
@[simp] theorem Mach.sample_g (ks : List Nat) (j : Nat) : (m.sample ks).g j = m.g j := rfl

/-! ### emit -/

@[simp] theorem Mach.emit_variant (o : Out) : (m.emit o).variant = m.variant := rfl
@[simp] theorem Mach.emit_dict (o : Out) : (m.emit o).dict = m.dict := rfl
@[simp] theorem Mach.emit_held (o : Out) : (m.emit o).held = m.held := rfl
@[simp] theorem Mach.emit_time (o : Out) : (m.emit o).time = m.time := rfl
@[simp] theorem Mach.emit_fresh (o : Out) : (m.emit o).fresh = m.fresh := rfl
@[simp] theorem Mach.emit_vmonLow (o : Out) : (m.emit o).vmonLow = m.vmonLow := rfl
@[simp] theorem Mach.emit_prot (o : Out) : (m.emit o).prot = m.prot := rfl
@[simp] theorem Mach.emit_sup (o : Out) : (m.emit o).sup = m.sup := rfl
@[simp] theorem Mach.emit_ev (o : Out) : (m.emit o).ev = m.ev := rfl
@[simp] theorem Mach.emit_items (o : Out) : (m.emit o).items = m.items := rfl
@[simp] theorem Mach.emit_order (o : Out) : (m.emit o).order = m.order := rfl
@[simp] theorem Mach.emit_ledger (o : Out) : (m.emit o).ledger = m.ledger := rfl
@[simp] theorem Mach.emit_clusters (o : Out) : (m.emit o).clusters = m.clusters := rfl
@[simp] theorem Mach.emit_heads (o : Out) : (m.emit o).heads = m.heads := rfl
@[simp] theorem Mach.emit_net (o : Out) : (m.emit o).net = m.net := rfl
@[simp] theorem Mach.emit_test (o : Out) : (m.emit o).test = m.test := rfl
@[simp] theorem Mach.emit_an (o : Out) : (m.emit o).an = m.an := rfl
@[simp] theorem Mach.emit_axes (o : Out) : (m.emit o).axes = m.axes := rfl
@[simp] theorem Mach.emit_motion (o : Out) : (m.emit o).motion = m.motion := rfl
@[simp] theorem Mach.emit_stations (o : Out) : (m.emit o).stations = m.stations := rfl
@[simp] theorem Mach.emit_sl (o : Out) : (m.emit o).sl = m.sl := rfl
@[simp] theorem Mach.emit_cams (o : Out) : (m.emit o).cams = m.cams := rfl
@[simp] theorem Mach.emit_ctxs (o : Out) : (m.emit o).ctxs = m.ctxs := rfl
@[simp] theorem Mach.emit_pipes (o : Out) : (m.emit o).pipes = m.pipes := rfl
@[simp] theorem Mach.emit_insp (o : Out) : (m.emit o).insp = m.insp := rfl
@[simp] theorem Mach.emit_calSets (o : Out) : (m.emit o).calSets = m.calSets := rfl
@[simp] theorem Mach.emit_calFlash (o : Out) : (m.emit o).calFlash = m.calFlash := rfl
@[simp] theorem Mach.emit_calStoring (o : Out) : (m.emit o).calStoring = m.calStoring := rfl
@[simp] theorem Mach.emit_calResult (o : Out) : (m.emit o).calResult = m.calResult := rfl
@[simp] theorem Mach.emit_badWords (o : Out) : (m.emit o).badWords = m.badWords := rfl
@[simp] theorem Mach.emit_flash (o : Out) : (m.emit o).flash = m.flash := rfl
@[simp] theorem Mach.emit_uarts (o : Out) : (m.emit o).uarts = m.uarts := rfl
@[simp] theorem Mach.emit_cf1 (o : Out) : (m.emit o).cf1 = m.cf1 := rfl
@[simp] theorem Mach.emit_dev (o : Out) : (m.emit o).dev = m.dev := rfl
@[simp] theorem Mach.emit_stores (o : Out) : (m.emit o).stores = m.stores := rfl
@[simp] theorem Mach.emit_g (o : Out) (j : Nat) : (m.emit o).g j = m.g j := rfl
@[simp] theorem Mach.emit_h (o : Out) (j : Nat) : (m.emit o).h j = m.h j := rfl

/-! ### reply -/

@[simp] theorem Mach.reply_variant (st : Status) (bs : List Byte) : (m.reply st bs).variant = m.variant := rfl
@[simp] theorem Mach.reply_dict (st : Status) (bs : List Byte) : (m.reply st bs).dict = m.dict := rfl
@[simp] theorem Mach.reply_held (st : Status) (bs : List Byte) : (m.reply st bs).held = m.held := rfl
@[simp] theorem Mach.reply_time (st : Status) (bs : List Byte) : (m.reply st bs).time = m.time := rfl
@[simp] theorem Mach.reply_fresh (st : Status) (bs : List Byte) : (m.reply st bs).fresh = m.fresh := rfl
@[simp] theorem Mach.reply_vmonLow (st : Status) (bs : List Byte) : (m.reply st bs).vmonLow = m.vmonLow := rfl
@[simp] theorem Mach.reply_prot (st : Status) (bs : List Byte) : (m.reply st bs).prot = m.prot := rfl
@[simp] theorem Mach.reply_sup (st : Status) (bs : List Byte) : (m.reply st bs).sup = m.sup := rfl
@[simp] theorem Mach.reply_ev (st : Status) (bs : List Byte) : (m.reply st bs).ev = m.ev := rfl
@[simp] theorem Mach.reply_items (st : Status) (bs : List Byte) : (m.reply st bs).items = m.items := rfl
@[simp] theorem Mach.reply_order (st : Status) (bs : List Byte) : (m.reply st bs).order = m.order := rfl
@[simp] theorem Mach.reply_ledger (st : Status) (bs : List Byte) : (m.reply st bs).ledger = m.ledger := rfl
@[simp] theorem Mach.reply_clusters (st : Status) (bs : List Byte) : (m.reply st bs).clusters = m.clusters := rfl
@[simp] theorem Mach.reply_heads (st : Status) (bs : List Byte) : (m.reply st bs).heads = m.heads := rfl
@[simp] theorem Mach.reply_net (st : Status) (bs : List Byte) : (m.reply st bs).net = m.net := rfl
@[simp] theorem Mach.reply_test (st : Status) (bs : List Byte) : (m.reply st bs).test = m.test := rfl
@[simp] theorem Mach.reply_an (st : Status) (bs : List Byte) : (m.reply st bs).an = m.an := rfl
@[simp] theorem Mach.reply_axes (st : Status) (bs : List Byte) : (m.reply st bs).axes = m.axes := rfl
@[simp] theorem Mach.reply_motion (st : Status) (bs : List Byte) : (m.reply st bs).motion = m.motion := rfl
@[simp] theorem Mach.reply_stations (st : Status) (bs : List Byte) : (m.reply st bs).stations = m.stations := rfl
@[simp] theorem Mach.reply_sl (st : Status) (bs : List Byte) : (m.reply st bs).sl = m.sl := rfl
@[simp] theorem Mach.reply_cams (st : Status) (bs : List Byte) : (m.reply st bs).cams = m.cams := rfl
@[simp] theorem Mach.reply_ctxs (st : Status) (bs : List Byte) : (m.reply st bs).ctxs = m.ctxs := rfl
@[simp] theorem Mach.reply_pipes (st : Status) (bs : List Byte) : (m.reply st bs).pipes = m.pipes := rfl
@[simp] theorem Mach.reply_insp (st : Status) (bs : List Byte) : (m.reply st bs).insp = m.insp := rfl
@[simp] theorem Mach.reply_calSets (st : Status) (bs : List Byte) : (m.reply st bs).calSets = m.calSets := rfl
@[simp] theorem Mach.reply_calFlash (st : Status) (bs : List Byte) : (m.reply st bs).calFlash = m.calFlash := rfl
@[simp] theorem Mach.reply_calStoring (st : Status) (bs : List Byte) : (m.reply st bs).calStoring = m.calStoring := rfl
@[simp] theorem Mach.reply_calResult (st : Status) (bs : List Byte) : (m.reply st bs).calResult = m.calResult := rfl
@[simp] theorem Mach.reply_badWords (st : Status) (bs : List Byte) : (m.reply st bs).badWords = m.badWords := rfl
@[simp] theorem Mach.reply_flash (st : Status) (bs : List Byte) : (m.reply st bs).flash = m.flash := rfl
@[simp] theorem Mach.reply_uarts (st : Status) (bs : List Byte) : (m.reply st bs).uarts = m.uarts := rfl
@[simp] theorem Mach.reply_cf1 (st : Status) (bs : List Byte) : (m.reply st bs).cf1 = m.cf1 := rfl
@[simp] theorem Mach.reply_dev (st : Status) (bs : List Byte) : (m.reply st bs).dev = m.dev := rfl
@[simp] theorem Mach.reply_stores (st : Status) (bs : List Byte) : (m.reply st bs).stores = m.stores := rfl
@[simp] theorem Mach.reply_g (st : Status) (bs : List Byte) (j : Nat) : (m.reply st bs).g j = m.g j := rfl
@[simp] theorem Mach.reply_h (st : Status) (bs : List Byte) (j : Nat) : (m.reply st bs).h j = m.h j := rfl

/-! ### storeBytes -/

@[simp] theorem Mach.storeBytes_variant (a : Nat) (bs : List Byte) : (m.storeBytes a bs).variant = m.variant := rfl
@[simp] theorem Mach.storeBytes_dict (a : Nat) (bs : List Byte) : (m.storeBytes a bs).dict = m.dict := rfl
@[simp] theorem Mach.storeBytes_held (a : Nat) (bs : List Byte) : (m.storeBytes a bs).held = m.held := rfl
@[simp] theorem Mach.storeBytes_time (a : Nat) (bs : List Byte) : (m.storeBytes a bs).time = m.time := rfl
@[simp] theorem Mach.storeBytes_fresh (a : Nat) (bs : List Byte) : (m.storeBytes a bs).fresh = m.fresh := rfl
@[simp] theorem Mach.storeBytes_vmonLow (a : Nat) (bs : List Byte) : (m.storeBytes a bs).vmonLow = m.vmonLow := rfl
@[simp] theorem Mach.storeBytes_prot (a : Nat) (bs : List Byte) : (m.storeBytes a bs).prot = m.prot := rfl
@[simp] theorem Mach.storeBytes_sup (a : Nat) (bs : List Byte) : (m.storeBytes a bs).sup = m.sup := rfl
@[simp] theorem Mach.storeBytes_ev (a : Nat) (bs : List Byte) : (m.storeBytes a bs).ev = m.ev := rfl
@[simp] theorem Mach.storeBytes_items (a : Nat) (bs : List Byte) : (m.storeBytes a bs).items = m.items := rfl
@[simp] theorem Mach.storeBytes_order (a : Nat) (bs : List Byte) : (m.storeBytes a bs).order = m.order := rfl
@[simp] theorem Mach.storeBytes_ledger (a : Nat) (bs : List Byte) : (m.storeBytes a bs).ledger = m.ledger := rfl
@[simp] theorem Mach.storeBytes_clusters (a : Nat) (bs : List Byte) : (m.storeBytes a bs).clusters = m.clusters := rfl
@[simp] theorem Mach.storeBytes_heads (a : Nat) (bs : List Byte) : (m.storeBytes a bs).heads = m.heads := rfl
@[simp] theorem Mach.storeBytes_net (a : Nat) (bs : List Byte) : (m.storeBytes a bs).net = m.net := rfl
@[simp] theorem Mach.storeBytes_test (a : Nat) (bs : List Byte) : (m.storeBytes a bs).test = m.test := rfl
@[simp] theorem Mach.storeBytes_an (a : Nat) (bs : List Byte) : (m.storeBytes a bs).an = m.an := rfl
@[simp] theorem Mach.storeBytes_axes (a : Nat) (bs : List Byte) : (m.storeBytes a bs).axes = m.axes := rfl
@[simp] theorem Mach.storeBytes_motion (a : Nat) (bs : List Byte) : (m.storeBytes a bs).motion = m.motion := rfl
@[simp] theorem Mach.storeBytes_stations (a : Nat) (bs : List Byte) : (m.storeBytes a bs).stations = m.stations := rfl
@[simp] theorem Mach.storeBytes_sl (a : Nat) (bs : List Byte) : (m.storeBytes a bs).sl = m.sl := rfl
@[simp] theorem Mach.storeBytes_cams (a : Nat) (bs : List Byte) : (m.storeBytes a bs).cams = m.cams := rfl
@[simp] theorem Mach.storeBytes_ctxs (a : Nat) (bs : List Byte) : (m.storeBytes a bs).ctxs = m.ctxs := rfl
@[simp] theorem Mach.storeBytes_pipes (a : Nat) (bs : List Byte) : (m.storeBytes a bs).pipes = m.pipes := rfl
@[simp] theorem Mach.storeBytes_insp (a : Nat) (bs : List Byte) : (m.storeBytes a bs).insp = m.insp := rfl
@[simp] theorem Mach.storeBytes_calSets (a : Nat) (bs : List Byte) : (m.storeBytes a bs).calSets = m.calSets := rfl
@[simp] theorem Mach.storeBytes_calFlash (a : Nat) (bs : List Byte) : (m.storeBytes a bs).calFlash = m.calFlash := rfl
@[simp] theorem Mach.storeBytes_calStoring (a : Nat) (bs : List Byte) : (m.storeBytes a bs).calStoring = m.calStoring := rfl
@[simp] theorem Mach.storeBytes_calResult (a : Nat) (bs : List Byte) : (m.storeBytes a bs).calResult = m.calResult := rfl
@[simp] theorem Mach.storeBytes_badWords (a : Nat) (bs : List Byte) : (m.storeBytes a bs).badWords = m.badWords := rfl
@[simp] theorem Mach.storeBytes_flash (a : Nat) (bs : List Byte) : (m.storeBytes a bs).flash = m.flash := rfl
@[simp] theorem Mach.storeBytes_uarts (a : Nat) (bs : List Byte) : (m.storeBytes a bs).uarts = m.uarts := rfl
@[simp] theorem Mach.storeBytes_cf1 (a : Nat) (bs : List Byte) : (m.storeBytes a bs).cf1 = m.cf1 := rfl
@[simp] theorem Mach.storeBytes_dev (a : Nat) (bs : List Byte) : (m.storeBytes a bs).dev = m.dev := rfl
@[simp] theorem Mach.storeBytes_out (a : Nat) (bs : List Byte) : (m.storeBytes a bs).out = m.out := rfl
@[simp] theorem Mach.storeBytes_g (a : Nat) (bs : List Byte) (j : Nat) : (m.storeBytes a bs).g j = m.g j := rfl
@[simp] theorem Mach.storeBytes_h (a : Nat) (bs : List Byte) (j : Nat) : (m.storeBytes a bs).h j = m.h j := rfl

/-! ### storeNum -/

@[simp] theorem Mach.storeNum_variant (a n v : Nat) : (m.storeNum a n v).variant = m.variant := rfl
@[simp] theorem Mach.storeNum_dict (a n v : Nat) : (m.storeNum a n v).dict = m.dict := rfl
@[simp] theorem Mach.storeNum_held (a n v : Nat) : (m.storeNum a n v).held = m.held := rfl
@[simp] theorem Mach.storeNum_time (a n v : Nat) : (m.storeNum a n v).time = m.time := rfl
@[simp] theorem Mach.storeNum_fresh (a n v : Nat) : (m.storeNum a n v).fresh = m.fresh := rfl
@[simp] theorem Mach.storeNum_vmonLow (a n v : Nat) : (m.storeNum a n v).vmonLow = m.vmonLow := rfl
@[simp] theorem Mach.storeNum_prot (a n v : Nat) : (m.storeNum a n v).prot = m.prot := rfl
@[simp] theorem Mach.storeNum_sup (a n v : Nat) : (m.storeNum a n v).sup = m.sup := rfl
@[simp] theorem Mach.storeNum_ev (a n v : Nat) : (m.storeNum a n v).ev = m.ev := rfl
@[simp] theorem Mach.storeNum_items (a n v : Nat) : (m.storeNum a n v).items = m.items := rfl
@[simp] theorem Mach.storeNum_order (a n v : Nat) : (m.storeNum a n v).order = m.order := rfl
@[simp] theorem Mach.storeNum_ledger (a n v : Nat) : (m.storeNum a n v).ledger = m.ledger := rfl
@[simp] theorem Mach.storeNum_clusters (a n v : Nat) : (m.storeNum a n v).clusters = m.clusters := rfl
@[simp] theorem Mach.storeNum_heads (a n v : Nat) : (m.storeNum a n v).heads = m.heads := rfl
@[simp] theorem Mach.storeNum_net (a n v : Nat) : (m.storeNum a n v).net = m.net := rfl
@[simp] theorem Mach.storeNum_test (a n v : Nat) : (m.storeNum a n v).test = m.test := rfl
@[simp] theorem Mach.storeNum_an (a n v : Nat) : (m.storeNum a n v).an = m.an := rfl
@[simp] theorem Mach.storeNum_axes (a n v : Nat) : (m.storeNum a n v).axes = m.axes := rfl
@[simp] theorem Mach.storeNum_motion (a n v : Nat) : (m.storeNum a n v).motion = m.motion := rfl
@[simp] theorem Mach.storeNum_stations (a n v : Nat) : (m.storeNum a n v).stations = m.stations := rfl
@[simp] theorem Mach.storeNum_sl (a n v : Nat) : (m.storeNum a n v).sl = m.sl := rfl
@[simp] theorem Mach.storeNum_cams (a n v : Nat) : (m.storeNum a n v).cams = m.cams := rfl
@[simp] theorem Mach.storeNum_ctxs (a n v : Nat) : (m.storeNum a n v).ctxs = m.ctxs := rfl
@[simp] theorem Mach.storeNum_pipes (a n v : Nat) : (m.storeNum a n v).pipes = m.pipes := rfl
@[simp] theorem Mach.storeNum_insp (a n v : Nat) : (m.storeNum a n v).insp = m.insp := rfl
@[simp] theorem Mach.storeNum_calSets (a n v : Nat) : (m.storeNum a n v).calSets = m.calSets := rfl
@[simp] theorem Mach.storeNum_calFlash (a n v : Nat) : (m.storeNum a n v).calFlash = m.calFlash := rfl
@[simp] theorem Mach.storeNum_calStoring (a n v : Nat) : (m.storeNum a n v).calStoring = m.calStoring := rfl
@[simp] theorem Mach.storeNum_calResult (a n v : Nat) : (m.storeNum a n v).calResult = m.calResult := rfl
@[simp] theorem Mach.storeNum_badWords (a n v : Nat) : (m.storeNum a n v).badWords = m.badWords := rfl
@[simp] theorem Mach.storeNum_flash (a n v : Nat) : (m.storeNum a n v).flash = m.flash := rfl
@[simp] theorem Mach.storeNum_uarts (a n v : Nat) : (m.storeNum a n v).uarts = m.uarts := rfl
@[simp] theorem Mach.storeNum_cf1 (a n v : Nat) : (m.storeNum a n v).cf1 = m.cf1 := rfl
@[simp] theorem Mach.storeNum_dev (a n v : Nat) : (m.storeNum a n v).dev = m.dev := rfl
@[simp] theorem Mach.storeNum_out (a n v : Nat) : (m.storeNum a n v).out = m.out := rfl
@[simp] theorem Mach.storeNum_g (a n v : Nat) (j : Nat) : (m.storeNum a n v).g j = m.g j := rfl
@[simp] theorem Mach.storeNum_h (a n v : Nat) (j : Nat) : (m.storeNum a n v).h j = m.h j := rfl

/-! ### freeBelow -/

@[simp] theorem Mach.freeBelow_variant (n : Nat) : ((m.freeBelow n).2).variant = m.variant := rfl
@[simp] theorem Mach.freeBelow_dict (n : Nat) : ((m.freeBelow n).2).dict = m.dict := rfl
@[simp] theorem Mach.freeBelow_held (n : Nat) : ((m.freeBelow n).2).held = m.held := rfl
@[simp] theorem Mach.freeBelow_time (n : Nat) : ((m.freeBelow n).2).time = m.time := rfl
@[simp] theorem Mach.freeBelow_vmonLow (n : Nat) : ((m.freeBelow n).2).vmonLow = m.vmonLow := rfl
@[simp] theorem Mach.freeBelow_prot (n : Nat) : ((m.freeBelow n).2).prot = m.prot := rfl
@[simp] theorem Mach.freeBelow_sup (n : Nat) : ((m.freeBelow n).2).sup = m.sup := rfl
@[simp] theorem Mach.freeBelow_ev (n : Nat) : ((m.freeBelow n).2).ev = m.ev := rfl
@[simp] theorem Mach.freeBelow_items (n : Nat) : ((m.freeBelow n).2).items = m.items := rfl
@[simp] theorem Mach.freeBelow_order (n : Nat) : ((m.freeBelow n).2).order = m.order := rfl
@[simp] theorem Mach.freeBelow_ledger (n : Nat) : ((m.freeBelow n).2).ledger = m.ledger := rfl
@[simp] theorem Mach.freeBelow_clusters (n : Nat) : ((m.freeBelow n).2).clusters = m.clusters := rfl
@[simp] theorem Mach.freeBelow_heads (n : Nat) : ((m.freeBelow n).2).heads = m.heads := rfl
@[simp] theorem Mach.freeBelow_net (n : Nat) : ((m.freeBelow n).2).net = m.net := rfl
@[simp] theorem Mach.freeBelow_test (n : Nat) : ((m.freeBelow n).2).test = m.test := rfl
@[simp] theorem Mach.freeBelow_an (n : Nat) : ((m.freeBelow n).2).an = m.an := rfl
@[simp] theorem Mach.freeBelow_axes (n : Nat) : ((m.freeBelow n).2).axes = m.axes := rfl
@[simp] theorem Mach.freeBelow_motion (n : Nat) : ((m.freeBelow n).2).motion = m.motion := rfl
@[simp] theorem Mach.freeBelow_stations (n : Nat) : ((m.freeBelow n).2).stations = m.stations := rfl
@[simp] theorem Mach.freeBelow_sl (n : Nat) : ((m.freeBelow n).2).sl = m.sl := rfl
@[simp] theorem Mach.freeBelow_cams (n : Nat) : ((m.freeBelow n).2).cams = m.cams := rfl
@[simp] theorem Mach.freeBelow_ctxs (n : Nat) : ((m.freeBelow n).2).ctxs = m.ctxs := rfl
@[simp] theorem Mach.freeBelow_pipes (n : Nat) : ((m.freeBelow n).2).pipes = m.pipes := rfl
@[simp] theorem Mach.freeBelow_insp (n : Nat) : ((m.freeBelow n).2).insp = m.insp := rfl
@[simp] theorem Mach.freeBelow_calSets (n : Nat) : ((m.freeBelow n).2).calSets = m.calSets := rfl
@[simp] theorem Mach.freeBelow_calFlash (n : Nat) : ((m.freeBelow n).2).calFlash = m.calFlash := rfl
@[simp] theorem Mach.freeBelow_calStoring (n : Nat) : ((m.freeBelow n).2).calStoring = m.calStoring := rfl
@[simp] theorem Mach.freeBelow_calResult (n : Nat) : ((m.freeBelow n).2).calResult = m.calResult := rfl
@[simp] theorem Mach.freeBelow_badWords (n : Nat) : ((m.freeBelow n).2).badWords = m.badWords := rfl
@[simp] theorem Mach.freeBelow_flash (n : Nat) : ((m.freeBelow n).2).flash = m.flash := rfl
@[simp] theorem Mach.freeBelow_uarts (n : Nat) : ((m.freeBelow n).2).uarts = m.uarts := rfl
@[simp] theorem Mach.freeBelow_cf1 (n : Nat) : ((m.freeBelow n).2).cf1 = m.cf1 := rfl
@[simp] theorem Mach.freeBelow_dev (n : Nat) : ((m.freeBelow n).2).dev = m.dev := rfl
@[simp] theorem Mach.freeBelow_out (n : Nat) : ((m.freeBelow n).2).out = m.out := rfl
@[simp] theorem Mach.freeBelow_stores (n : Nat) : ((m.freeBelow n).2).stores = m.stores := rfl
@[simp] theorem Mach.freeBelow_g (n : Nat) (j : Nat) : ((m.freeBelow n).2).g j = m.g j := rfl
@[simp] theorem Mach.freeBelow_h (n : Nat) (j : Nat) : ((m.freeBelow n).2).h j = m.h j := rfl

/-! ### modHead -/

@[simp] theorem Mach.modHead_variant (h : Nat) (f : HeadRt → HeadRt) : (m.modHead h f).variant = m.variant := rfl
@[simp] theorem Mach.modHead_dict (h : Nat) (f : HeadRt → HeadRt) : (m.modHead h f).dict = m.dict := rfl
@[simp] theorem Mach.modHead_held (h : Nat) (f : HeadRt → HeadRt) : (m.modHead h f).held = m.held := rfl
@[simp] theorem Mach.modHead_time (h : Nat) (f : HeadRt → HeadRt) : (m.modHead h f).time = m.time := rfl
@[simp] theorem Mach.modHead_fresh (h : Nat) (f : HeadRt → HeadRt) : (m.modHead h f).fresh = m.fresh := rfl
@[simp] theorem Mach.modHead_vmonLow (h : Nat) (f : HeadRt → HeadRt) : (m.modHead h f).vmonLow = m.vmonLow := rfl
@[simp] theorem Mach.modHead_prot (h : Nat) (f : HeadRt → HeadRt) : (m.modHead h f).prot = m.prot := rfl
@[simp] theorem Mach.modHead_sup (h : Nat) (f : HeadRt → HeadRt) : (m.modHead h f).sup = m.sup := rfl
@[simp] theorem Mach.modHead_ev (h : Nat) (f : HeadRt → HeadRt) : (m.modHead h f).ev = m.ev := rfl
@[simp] theorem Mach.modHead_items (h : Nat) (f : HeadRt → HeadRt) : (m.modHead h f).items = m.items := rfl
@[simp] theorem Mach.modHead_order (h : Nat) (f : HeadRt → HeadRt) : (m.modHead h f).order = m.order := rfl
@[simp] theorem Mach.modHead_ledger (h : Nat) (f : HeadRt → HeadRt) : (m.modHead h f).ledger = m.ledger := rfl
@[simp] theorem Mach.modHead_clusters (h : Nat) (f : HeadRt → HeadRt) : (m.modHead h f).clusters = m.clusters := rfl
@[simp] theorem Mach.modHead_net (h : Nat) (f : HeadRt → HeadRt) : (m.modHead h f).net = m.net := rfl
@[simp] theorem Mach.modHead_test (h : Nat) (f : HeadRt → HeadRt) : (m.modHead h f).test = m.test := rfl
@[simp] theorem Mach.modHead_an (h : Nat) (f : HeadRt → HeadRt) : (m.modHead h f).an = m.an := rfl
@[simp] theorem Mach.modHead_axes (h : Nat) (f : HeadRt → HeadRt) : (m.modHead h f).axes = m.axes := rfl
@[simp] theorem Mach.modHead_motion (h : Nat) (f : HeadRt → HeadRt) : (m.modHead h f).motion = m.motion := rfl
@[simp] theorem Mach.modHead_stations (h : Nat) (f : HeadRt → HeadRt) : (m.modHead h f).stations = m.stations := rfl
@[simp] theorem Mach.modHead_sl (h : Nat) (f : HeadRt → HeadRt) : (m.modHead h f).sl = m.sl := rfl
@[simp] theorem Mach.modHead_cams (h : Nat) (f : HeadRt → HeadRt) : (m.modHead h f).cams = m.cams := rfl
@[simp] theorem Mach.modHead_ctxs (h : Nat) (f : HeadRt → HeadRt) : (m.modHead h f).ctxs = m.ctxs := rfl
@[simp] theorem Mach.modHead_pipes (h : Nat) (f : HeadRt → HeadRt) : (m.modHead h f).pipes = m.pipes := rfl
@[simp] theorem Mach.modHead_insp (h : Nat) (f : HeadRt → HeadRt) : (m.modHead h f).insp = m.insp := rfl
@[simp] theorem Mach.modHead_calSets (h : Nat) (f : HeadRt → HeadRt) : (m.modHead h f).calSets = m.calSets := rfl
@[simp] theorem Mach.modHead_calFlash (h : Nat) (f : HeadRt → HeadRt) : (m.modHead h f).calFlash = m.calFlash := rfl
@[simp] theorem Mach.modHead_calStoring (h : Nat) (f : HeadRt → HeadRt) : (m.modHead h f).calStoring = m.calStoring := rfl
@[simp] theorem Mach.modHead_calResult (h : Nat) (f : HeadRt → HeadRt) : (m.modHead h f).calResult = m.calResult := rfl
@[simp] theorem Mach.modHead_badWords (h : Nat) (f : HeadRt → HeadRt) : (m.modHead h f).badWords = m.badWords := rfl
@[simp] theorem Mach.modHead_flash (h : Nat) (f : HeadRt → HeadRt) : (m.modHead h f).flash = m.flash := rfl
@[simp] theorem Mach.modHead_uarts (h : Nat) (f : HeadRt → HeadRt) : (m.modHead h f).uarts = m.uarts := rfl
@[simp] theorem Mach.modHead_cf1 (h : Nat) (f : HeadRt → HeadRt) : (m.modHead h f).cf1 = m.cf1 := rfl
@[simp] theorem Mach.modHead_dev (h : Nat) (f : HeadRt → HeadRt) : (m.modHead h f).dev = m.dev := rfl
@[simp] theorem Mach.modHead_out (h : Nat) (f : HeadRt → HeadRt) : (m.modHead h f).out = m.out := rfl
@[simp] theorem Mach.modHead_stores (h : Nat) (f : HeadRt → HeadRt) : (m.modHead h f).stores = m.stores := rfl
@[simp] theorem Mach.modHead_g (h : Nat) (f : HeadRt → HeadRt) (j : Nat) : (m.modHead h f).g j = m.g j := rfl
@[simp] theorem Mach.modHead_h (h : Nat) (f : HeadRt → HeadRt) (j : Nat) : (m.modHead h f).h j = m.h j := rfl

/-! ### modCluster -/

@[simp] theorem Mach.modCluster_variant (k : Nat) (f : Cluster → Cluster) : (m.modCluster k f).variant = m.variant := rfl
@[simp] theorem Mach.modCluster_dict (k : Nat) (f : Cluster → Cluster) : (m.modCluster k f).dict = m.dict := rfl
@[simp] theorem Mach.modCluster_held (k : Nat) (f : Cluster → Cluster) : (m.modCluster k f).held = m.held := rfl
@[simp] theorem Mach.modCluster_time (k : Nat) (f : Cluster → Cluster) : (m.modCluster k f).time = m.time := rfl
@[simp] theorem Mach.modCluster_fresh (k : Nat) (f : Cluster → Cluster) : (m.modCluster k f).fresh = m.fresh := rfl
@[simp] theorem Mach.modCluster_vmonLow (k : Nat) (f : Cluster → Cluster) : (m.modCluster k f).vmonLow = m.vmonLow := rfl
@[simp] theorem Mach.modCluster_prot (k : Nat) (f : Cluster → Cluster) : (m.modCluster k f).prot = m.prot := rfl
@[simp] theorem Mach.modCluster_sup (k : Nat) (f : Cluster → Cluster) : (m.modCluster k f).sup = m.sup := rfl
@[simp] theorem Mach.modCluster_ev (k : Nat) (f : Cluster → Cluster) : (m.modCluster k f).ev = m.ev := rfl
@[simp] theorem Mach.modCluster_items (k : Nat) (f : Cluster → Cluster) : (m.modCluster k f).items = m.items := rfl
@[simp] theorem Mach.modCluster_order (k : Nat) (f : Cluster → Cluster) : (m.modCluster k f).order = m.order := rfl
@[simp] theorem Mach.modCluster_ledger (k : Nat) (f : Cluster → Cluster) : (m.modCluster k f).ledger = m.ledger := rfl
@[simp] theorem Mach.modCluster_heads (k : Nat) (f : Cluster → Cluster) : (m.modCluster k f).heads = m.heads := rfl
@[simp] theorem Mach.modCluster_net (k : Nat) (f : Cluster → Cluster) : (m.modCluster k f).net = m.net := rfl
@[simp] theorem Mach.modCluster_test (k : Nat) (f : Cluster → Cluster) : (m.modCluster k f).test = m.test := rfl
@[simp] theorem Mach.modCluster_an (k : Nat) (f : Cluster → Cluster) : (m.modCluster k f).an = m.an := rfl
@[simp] theorem Mach.modCluster_axes (k : Nat) (f : Cluster → Cluster) : (m.modCluster k f).axes = m.axes := rfl
@[simp] theorem Mach.modCluster_motion (k : Nat) (f : Cluster → Cluster) : (m.modCluster k f).motion = m.motion := rfl
@[simp] theorem Mach.modCluster_stations (k : Nat) (f : Cluster → Cluster) : (m.modCluster k f).stations = m.stations := rfl
@[simp] theorem Mach.modCluster_sl (k : Nat) (f : Cluster → Cluster) : (m.modCluster k f).sl = m.sl := rfl
@[simp] theorem Mach.modCluster_cams (k : Nat) (f : Cluster → Cluster) : (m.modCluster k f).cams = m.cams := rfl
@[simp] theorem Mach.modCluster_ctxs (k : Nat) (f : Cluster → Cluster) : (m.modCluster k f).ctxs = m.ctxs := rfl
@[simp] theorem Mach.modCluster_pipes (k : Nat) (f : Cluster → Cluster) : (m.modCluster k f).pipes = m.pipes := rfl
@[simp] theorem Mach.modCluster_insp (k : Nat) (f : Cluster → Cluster) : (m.modCluster k f).insp = m.insp := rfl
@[simp] theorem Mach.modCluster_calSets (k : Nat) (f : Cluster → Cluster) : (m.modCluster k f).calSets = m.calSets := rfl
@[simp] theorem Mach.modCluster_calFlash (k : Nat) (f : Cluster → Cluster) : (m.modCluster k f).calFlash = m.calFlash := rfl
@[simp] theorem Mach.modCluster_calStoring (k : Nat) (f : Cluster → Cluster) : (m.modCluster k f).calStoring = m.calStoring := rfl
@[simp] theorem Mach.modCluster_calResult (k : Nat) (f : Cluster → Cluster) : (m.modCluster k f).calResult = m.calResult := rfl
@[simp] theorem Mach.modCluster_badWords (k : Nat) (f : Cluster → Cluster) : (m.modCluster k f).badWords = m.badWords := rfl
@[simp] theorem Mach.modCluster_flash (k : Nat) (f : Cluster → Cluster) : (m.modCluster k f).flash = m.flash := rfl
@[simp] theorem Mach.modCluster_uarts (k : Nat) (f : Cluster → Cluster) : (m.modCluster k f).uarts = m.uarts := rfl
@[simp] theorem Mach.modCluster_cf1 (k : Nat) (f : Cluster → Cluster) : (m.modCluster k f).cf1 = m.cf1 := rfl
@[simp] theorem Mach.modCluster_dev (k : Nat) (f : Cluster → Cluster) : (m.modCluster k f).dev = m.dev := rfl
@[simp] theorem Mach.modCluster_out (k : Nat) (f : Cluster → Cluster) : (m.modCluster k f).out = m.out := rfl
@[simp] theorem Mach.modCluster_stores (k : Nat) (f : Cluster → Cluster) : (m.modCluster k f).stores = m.stores := rfl
@[simp] theorem Mach.modCluster_g (k : Nat) (f : Cluster → Cluster) (j : Nat) : (m.modCluster k f).g j = m.g j := rfl
@[simp] theorem Mach.modCluster_h (k : Nat) (f : Cluster → Cluster) (j : Nat) : (m.modCluster k f).h j = m.h j := rfl

/-! ### modItem -/

@[simp] theorem Mach.modItem_variant (id : Nat) (f : Item → Item) : (m.modItem id f).variant = m.variant := rfl
@[simp] theorem Mach.modItem_dict (id : Nat) (f : Item → Item) : (m.modItem id f).dict = m.dict := rfl
@[simp] theorem Mach.modItem_held (id : Nat) (f : Item → Item) : (m.modItem id f).held = m.held := rfl
@[simp] theorem Mach.modItem_time (id : Nat) (f : Item → Item) : (m.modItem id f).time = m.time := rfl
@[simp] theorem Mach.modItem_fresh (id : Nat) (f : Item → Item) : (m.modItem id f).fresh = m.fresh := rfl
@[simp] theorem Mach.modItem_vmonLow (id : Nat) (f : Item → Item) : (m.modItem id f).vmonLow = m.vmonLow := rfl
@[simp] theorem Mach.modItem_prot (id : Nat) (f : Item → Item) : (m.modItem id f).prot = m.prot := rfl
@[simp] theorem Mach.modItem_sup (id : Nat) (f : Item → Item) : (m.modItem id f).sup = m.sup := rfl
@[simp] theorem Mach.modItem_ev (id : Nat) (f : Item → Item) : (m.modItem id f).ev = m.ev := rfl
@[simp] theorem Mach.modItem_order (id : Nat) (f : Item → Item) : (m.modItem id f).order = m.order := rfl
@[simp] theorem Mach.modItem_ledger (id : Nat) (f : Item → Item) : (m.modItem id f).ledger = m.ledger := rfl
@[simp] theorem Mach.modItem_clusters (id : Nat) (f : Item → Item) : (m.modItem id f).clusters = m.clusters := rfl
@[simp] theorem Mach.modItem_heads (id : Nat) (f : Item → Item) : (m.modItem id f).heads = m.heads := rfl
@[simp] theorem Mach.modItem_net (id : Nat) (f : Item → Item) : (m.modItem id f).net = m.net := rfl
@[simp] theorem Mach.modItem_test (id : Nat) (f : Item → Item) : (m.modItem id f).test = m.test := rfl
@[simp] theorem Mach.modItem_an (id : Nat) (f : Item → Item) : (m.modItem id f).an = m.an := rfl
@[simp] theorem Mach.modItem_axes (id : Nat) (f : Item → Item) : (m.modItem id f).axes = m.axes := rfl
@[simp] theorem Mach.modItem_motion (id : Nat) (f : Item → Item) : (m.modItem id f).motion = m.motion := rfl
@[simp] theorem Mach.modItem_stations (id : Nat) (f : Item → Item) : (m.modItem id f).stations = m.stations := rfl
@[simp] theorem Mach.modItem_sl (id : Nat) (f : Item → Item) : (m.modItem id f).sl = m.sl := rfl
@[simp] theorem Mach.modItem_cams (id : Nat) (f : Item → Item) : (m.modItem id f).cams = m.cams := rfl
@[simp] theorem Mach.modItem_ctxs (id : Nat) (f : Item → Item) : (m.modItem id f).ctxs = m.ctxs := rfl
@[simp] theorem Mach.modItem_pipes (id : Nat) (f : Item → Item) : (m.modItem id f).pipes = m.pipes := rfl
@[simp] theorem Mach.modItem_insp (id : Nat) (f : Item → Item) : (m.modItem id f).insp = m.insp := rfl
@[simp] theorem Mach.modItem_calSets (id : Nat) (f : Item → Item) : (m.modItem id f).calSets = m.calSets := rfl
@[simp] theorem Mach.modItem_calFlash (id : Nat) (f : Item → Item) : (m.modItem id f).calFlash = m.calFlash := rfl
@[simp] theorem Mach.modItem_calStoring (id : Nat) (f : Item → Item) : (m.modItem id f).calStoring = m.calStoring := rfl
@[simp] theorem Mach.modItem_calResult (id : Nat) (f : Item → Item) : (m.modItem id f).calResult = m.calResult := rfl
@[simp] theorem Mach.modItem_badWords (id : Nat) (f : Item → Item) : (m.modItem id f).badWords = m.badWords := rfl
@[simp] theorem Mach.modItem_flash (id : Nat) (f : Item → Item) : (m.modItem id f).flash = m.flash := rfl
@[simp] theorem Mach.modItem_uarts (id : Nat) (f : Item → Item) : (m.modItem id f).uarts = m.uarts := rfl
@[simp] theorem Mach.modItem_cf1 (id : Nat) (f : Item → Item) : (m.modItem id f).cf1 = m.cf1 := rfl
@[simp] theorem Mach.modItem_dev (id : Nat) (f : Item → Item) : (m.modItem id f).dev = m.dev := rfl
@[simp] theorem Mach.modItem_out (id : Nat) (f : Item → Item) : (m.modItem id f).out = m.out := rfl
@[simp] theorem Mach.modItem_stores (id : Nat) (f : Item → Item) : (m.modItem id f).stores = m.stores := rfl
@[simp] theorem Mach.modItem_g (id : Nat) (f : Item → Item) (j : Nat) : (m.modItem id f).g j = m.g j := rfl
@[simp] theorem Mach.modItem_h (id : Nat) (f : Item → Item) (j : Nat) : (m.modItem id f).h j = m.h j := rfl

/-! ### modAxis -/

@[simp] theorem Mach.modAxis_variant (n : Nat) (f : AxisRt → AxisRt) : (m.modAxis n f).variant = m.variant := rfl
@[simp] theorem Mach.modAxis_dict (n : Nat) (f : AxisRt → AxisRt) : (m.modAxis n f).dict = m.dict := rfl
@[simp] theorem Mach.modAxis_held (n : Nat) (f : AxisRt → AxisRt) : (m.modAxis n f).held = m.held := rfl
@[simp] theorem Mach.modAxis_time (n : Nat) (f : AxisRt → AxisRt) : (m.modAxis n f).time = m.time := rfl
@[simp] theorem Mach.modAxis_fresh (n : Nat) (f : AxisRt → AxisRt) : (m.modAxis n f).fresh = m.fresh := rfl
@[simp] theorem Mach.modAxis_vmonLow (n : Nat) (f : AxisRt → AxisRt) : (m.modAxis n f).vmonLow = m.vmonLow := rfl
@[simp] theorem Mach.modAxis_prot (n : Nat) (f : AxisRt → AxisRt) : (m.modAxis n f).prot = m.prot := rfl
@[simp] theorem Mach.modAxis_sup (n : Nat) (f : AxisRt → AxisRt) : (m.modAxis n f).sup = m.sup := rfl
@[simp] theorem Mach.modAxis_ev (n : Nat) (f : AxisRt → AxisRt) : (m.modAxis n f).ev = m.ev := rfl
@[simp] theorem Mach.modAxis_items (n : Nat) (f : AxisRt → AxisRt) : (m.modAxis n f).items = m.items := rfl
@[simp] theorem Mach.modAxis_order (n : Nat) (f : AxisRt → AxisRt) : (m.modAxis n f).order = m.order := rfl
@[simp] theorem Mach.modAxis_ledger (n : Nat) (f : AxisRt → AxisRt) : (m.modAxis n f).ledger = m.ledger := rfl
@[simp] theorem Mach.modAxis_clusters (n : Nat) (f : AxisRt → AxisRt) : (m.modAxis n f).clusters = m.clusters := rfl
@[simp] theorem Mach.modAxis_heads (n : Nat) (f : AxisRt → AxisRt) : (m.modAxis n f).heads = m.heads := rfl
@[simp] theorem Mach.modAxis_net (n : Nat) (f : AxisRt → AxisRt) : (m.modAxis n f).net = m.net := rfl
@[simp] theorem Mach.modAxis_test (n : Nat) (f : AxisRt → AxisRt) : (m.modAxis n f).test = m.test := rfl
@[simp] theorem Mach.modAxis_an (n : Nat) (f : AxisRt → AxisRt) : (m.modAxis n f).an = m.an := rfl
@[simp] theorem Mach.modAxis_motion (n : Nat) (f : AxisRt → AxisRt) : (m.modAxis n f).motion = m.motion := rfl
@[simp] theorem Mach.modAxis_stations (n : Nat) (f : AxisRt → AxisRt) : (m.modAxis n f).stations = m.stations := rfl
@[simp] theorem Mach.modAxis_sl (n : Nat) (f : AxisRt → AxisRt) : (m.modAxis n f).sl = m.sl := rfl
@[simp] theorem Mach.modAxis_cams (n : Nat) (f : AxisRt → AxisRt) : (m.modAxis n f).cams = m.cams := rfl
@[simp] theorem Mach.modAxis_ctxs (n : Nat) (f : AxisRt → AxisRt) : (m.modAxis n f).ctxs = m.ctxs := rfl
@[simp] theorem Mach.modAxis_pipes (n : Nat) (f : AxisRt → AxisRt) : (m.modAxis n f).pipes = m.pipes := rfl
@[simp] theorem Mach.modAxis_insp (n : Nat) (f : AxisRt → AxisRt) : (m.modAxis n f).insp = m.insp := rfl
@[simp] theorem Mach.modAxis_calSets (n : Nat) (f : AxisRt → AxisRt) : (m.modAxis n f).calSets = m.calSets := rfl
@[simp] theorem Mach.modAxis_calFlash (n : Nat) (f : AxisRt → AxisRt) : (m.modAxis n f).calFlash = m.calFlash := rfl
@[simp] theorem Mach.modAxis_calStoring (n : Nat) (f : AxisRt → AxisRt) : (m.modAxis n f).calStoring = m.calStoring := rfl
@[simp] theorem Mach.modAxis_calResult (n : Nat) (f : AxisRt → AxisRt) : (m.modAxis n f).calResult = m.calResult := rfl
@[simp] theorem Mach.modAxis_badWords (n : Nat) (f : AxisRt → AxisRt) : (m.modAxis n f).badWords = m.badWords := rfl
@[simp] theorem Mach.modAxis_flash (n : Nat) (f : AxisRt → AxisRt) : (m.modAxis n f).flash = m.flash := rfl
@[simp] theorem Mach.modAxis_uarts (n : Nat) (f : AxisRt → AxisRt) : (m.modAxis n f).uarts = m.uarts := rfl
@[simp] theorem Mach.modAxis_cf1 (n : Nat) (f : AxisRt → AxisRt) : (m.modAxis n f).cf1 = m.cf1 := rfl
@[simp] theorem Mach.modAxis_dev (n : Nat) (f : AxisRt → AxisRt) : (m.modAxis n f).dev = m.dev := rfl
@[simp] theorem Mach.modAxis_out (n : Nat) (f : AxisRt → AxisRt) : (m.modAxis n f).out = m.out := rfl
@[simp] theorem Mach.modAxis_stores (n : Nat) (f : AxisRt → AxisRt) : (m.modAxis n f).stores = m.stores := rfl
@[simp] theorem Mach.modAxis_g (n : Nat) (f : AxisRt → AxisRt) (j : Nat) : (m.modAxis n f).g j = m.g j := rfl
@[simp] theorem Mach.modAxis_h (n : Nat) (f : AxisRt → AxisRt) (j : Nat) : (m.modAxis n f).h j = m.h j := rfl

/-! ### modSta -/

@[simp] theorem Mach.modSta_variant (st : Nat) (f : StationRt → StationRt) : (m.modSta st f).variant = m.variant := rfl
@[simp] theorem Mach.modSta_dict (st : Nat) (f : StationRt → StationRt) : (m.modSta st f).dict = m.dict := rfl
@[simp] theorem Mach.modSta_held (st : Nat) (f : StationRt → StationRt) : (m.modSta st f).held = m.held := rfl
@[simp] theorem Mach.modSta_time (st : Nat) (f : StationRt → StationRt) : (m.modSta st f).time = m.time := rfl
@[simp] theorem Mach.modSta_fresh (st : Nat) (f : StationRt → StationRt) : (m.modSta st f).fresh = m.fresh := rfl
@[simp] theorem Mach.modSta_vmonLow (st : Nat) (f : StationRt → StationRt) : (m.modSta st f).vmonLow = m.vmonLow := rfl
@[simp] theorem Mach.modSta_prot (st : Nat) (f : StationRt → StationRt) : (m.modSta st f).prot = m.prot := rfl
@[simp] theorem Mach.modSta_sup (st : Nat) (f : StationRt → StationRt) : (m.modSta st f).sup = m.sup := rfl
@[simp] theorem Mach.modSta_ev (st : Nat) (f : StationRt → StationRt) : (m.modSta st f).ev = m.ev := rfl
@[simp] theorem Mach.modSta_items (st : Nat) (f : StationRt → StationRt) : (m.modSta st f).items = m.items := rfl
@[simp] theorem Mach.modSta_order (st : Nat) (f : StationRt → StationRt) : (m.modSta st f).order = m.order := rfl
@[simp] theorem Mach.modSta_ledger (st : Nat) (f : StationRt → StationRt) : (m.modSta st f).ledger = m.ledger := rfl
@[simp] theorem Mach.modSta_clusters (st : Nat) (f : StationRt → StationRt) : (m.modSta st f).clusters = m.clusters := rfl
@[simp] theorem Mach.modSta_heads (st : Nat) (f : StationRt → StationRt) : (m.modSta st f).heads = m.heads := rfl
@[simp] theorem Mach.modSta_net (st : Nat) (f : StationRt → StationRt) : (m.modSta st f).net = m.net := rfl
@[simp] theorem Mach.modSta_test (st : Nat) (f : StationRt → StationRt) : (m.modSta st f).test = m.test := rfl
@[simp] theorem Mach.modSta_an (st : Nat) (f : StationRt → StationRt) : (m.modSta st f).an = m.an := rfl
@[simp] theorem Mach.modSta_axes (st : Nat) (f : StationRt → StationRt) : (m.modSta st f).axes = m.axes := rfl
@[simp] theorem Mach.modSta_motion (st : Nat) (f : StationRt → StationRt) : (m.modSta st f).motion = m.motion := rfl
@[simp] theorem Mach.modSta_sl (st : Nat) (f : StationRt → StationRt) : (m.modSta st f).sl = m.sl := rfl
@[simp] theorem Mach.modSta_cams (st : Nat) (f : StationRt → StationRt) : (m.modSta st f).cams = m.cams := rfl
@[simp] theorem Mach.modSta_ctxs (st : Nat) (f : StationRt → StationRt) : (m.modSta st f).ctxs = m.ctxs := rfl
@[simp] theorem Mach.modSta_pipes (st : Nat) (f : StationRt → StationRt) : (m.modSta st f).pipes = m.pipes := rfl
@[simp] theorem Mach.modSta_insp (st : Nat) (f : StationRt → StationRt) : (m.modSta st f).insp = m.insp := rfl
@[simp] theorem Mach.modSta_calSets (st : Nat) (f : StationRt → StationRt) : (m.modSta st f).calSets = m.calSets := rfl
@[simp] theorem Mach.modSta_calFlash (st : Nat) (f : StationRt → StationRt) : (m.modSta st f).calFlash = m.calFlash := rfl
@[simp] theorem Mach.modSta_calStoring (st : Nat) (f : StationRt → StationRt) : (m.modSta st f).calStoring = m.calStoring := rfl
@[simp] theorem Mach.modSta_calResult (st : Nat) (f : StationRt → StationRt) : (m.modSta st f).calResult = m.calResult := rfl
@[simp] theorem Mach.modSta_badWords (st : Nat) (f : StationRt → StationRt) : (m.modSta st f).badWords = m.badWords := rfl
@[simp] theorem Mach.modSta_flash (st : Nat) (f : StationRt → StationRt) : (m.modSta st f).flash = m.flash := rfl
@[simp] theorem Mach.modSta_uarts (st : Nat) (f : StationRt → StationRt) : (m.modSta st f).uarts = m.uarts := rfl
@[simp] theorem Mach.modSta_cf1 (st : Nat) (f : StationRt → StationRt) : (m.modSta st f).cf1 = m.cf1 := rfl
@[simp] theorem Mach.modSta_dev (st : Nat) (f : StationRt → StationRt) : (m.modSta st f).dev = m.dev := rfl
@[simp] theorem Mach.modSta_out (st : Nat) (f : StationRt → StationRt) : (m.modSta st f).out = m.out := rfl
@[simp] theorem Mach.modSta_stores (st : Nat) (f : StationRt → StationRt) : (m.modSta st f).stores = m.stores := rfl
@[simp] theorem Mach.modSta_g (st : Nat) (f : StationRt → StationRt) (j : Nat) : (m.modSta st f).g j = m.g j := rfl
@[simp] theorem Mach.modSta_h (st : Nat) (f : StationRt → StationRt) (j : Nat) : (m.modSta st f).h j = m.h j := rfl

/-! ### modSl -/

@[simp] theorem Mach.modSl_variant (f : SlRt → SlRt) : (m.modSl f).variant = m.variant := rfl
@[simp] theorem Mach.modSl_dict (f : SlRt → SlRt) : (m.modSl f).dict = m.dict := rfl
@[simp] theorem Mach.modSl_held (f : SlRt → SlRt) : (m.modSl f).held = m.held := rfl
@[simp] theorem Mach.modSl_time (f : SlRt → SlRt) : (m.modSl f).time = m.time := rfl
@[simp] theorem Mach.modSl_fresh (f : SlRt → SlRt) : (m.modSl f).fresh = m.fresh := rfl
@[simp] theorem Mach.modSl_vmonLow (f : SlRt → SlRt) : (m.modSl f).vmonLow = m.vmonLow := rfl
@[simp] theorem Mach.modSl_prot (f : SlRt → SlRt) : (m.modSl f).prot = m.prot := rfl
@[simp] theorem Mach.modSl_sup (f : SlRt → SlRt) : (m.modSl f).sup = m.sup := rfl
@[simp] theorem Mach.modSl_ev (f : SlRt → SlRt) : (m.modSl f).ev = m.ev := rfl
@[simp] theorem Mach.modSl_items (f : SlRt → SlRt) : (m.modSl f).items = m.items := rfl
@[simp] theorem Mach.modSl_order (f : SlRt → SlRt) : (m.modSl f).order = m.order := rfl
@[simp] theorem Mach.modSl_ledger (f : SlRt → SlRt) : (m.modSl f).ledger = m.ledger := rfl
@[simp] theorem Mach.modSl_clusters (f : SlRt → SlRt) : (m.modSl f).clusters = m.clusters := rfl
@[simp] theorem Mach.modSl_heads (f : SlRt → SlRt) : (m.modSl f).heads = m.heads := rfl
@[simp] theorem Mach.modSl_net (f : SlRt → SlRt) : (m.modSl f).net = m.net := rfl
@[simp] theorem Mach.modSl_test (f : SlRt → SlRt) : (m.modSl f).test = m.test := rfl
@[simp] theorem Mach.modSl_an (f : SlRt → SlRt) : (m.modSl f).an = m.an := rfl
@[simp] theorem Mach.modSl_axes (f : SlRt → SlRt) : (m.modSl f).axes = m.axes := rfl
@[simp] theorem Mach.modSl_motion (f : SlRt → SlRt) : (m.modSl f).motion = m.motion := rfl
@[simp] theorem Mach.modSl_stations (f : SlRt → SlRt) : (m.modSl f).stations = m.stations := rfl
@[simp] theorem Mach.modSl_cams (f : SlRt → SlRt) : (m.modSl f).cams = m.cams := rfl
@[simp] theorem Mach.modSl_ctxs (f : SlRt → SlRt) : (m.modSl f).ctxs = m.ctxs := rfl
@[simp] theorem Mach.modSl_pipes (f : SlRt → SlRt) : (m.modSl f).pipes = m.pipes := rfl
@[simp] theorem Mach.modSl_insp (f : SlRt → SlRt) : (m.modSl f).insp = m.insp := rfl
@[simp] theorem Mach.modSl_calSets (f : SlRt → SlRt) : (m.modSl f).calSets = m.calSets := rfl
@[simp] theorem Mach.modSl_calFlash (f : SlRt → SlRt) : (m.modSl f).calFlash = m.calFlash := rfl
@[simp] theorem Mach.modSl_calStoring (f : SlRt → SlRt) : (m.modSl f).calStoring = m.calStoring := rfl
@[simp] theorem Mach.modSl_calResult (f : SlRt → SlRt) : (m.modSl f).calResult = m.calResult := rfl
@[simp] theorem Mach.modSl_badWords (f : SlRt → SlRt) : (m.modSl f).badWords = m.badWords := rfl
@[simp] theorem Mach.modSl_flash (f : SlRt → SlRt) : (m.modSl f).flash = m.flash := rfl
@[simp] theorem Mach.modSl_uarts (f : SlRt → SlRt) : (m.modSl f).uarts = m.uarts := rfl
@[simp] theorem Mach.modSl_cf1 (f : SlRt → SlRt) : (m.modSl f).cf1 = m.cf1 := rfl
@[simp] theorem Mach.modSl_dev (f : SlRt → SlRt) : (m.modSl f).dev = m.dev := rfl
@[simp] theorem Mach.modSl_out (f : SlRt → SlRt) : (m.modSl f).out = m.out := rfl
@[simp] theorem Mach.modSl_stores (f : SlRt → SlRt) : (m.modSl f).stores = m.stores := rfl
@[simp] theorem Mach.modSl_g (f : SlRt → SlRt) (j : Nat) : (m.modSl f).g j = m.g j := rfl
@[simp] theorem Mach.modSl_h (f : SlRt → SlRt) (j : Nat) : (m.modSl f).h j = m.h j := rfl

/-! ### modScan -/

@[simp] theorem Mach.modScan_variant (f : ScanRt → ScanRt) : (m.modScan f).variant = m.variant := rfl
@[simp] theorem Mach.modScan_dict (f : ScanRt → ScanRt) : (m.modScan f).dict = m.dict := rfl
@[simp] theorem Mach.modScan_held (f : ScanRt → ScanRt) : (m.modScan f).held = m.held := rfl
@[simp] theorem Mach.modScan_time (f : ScanRt → ScanRt) : (m.modScan f).time = m.time := rfl
@[simp] theorem Mach.modScan_fresh (f : ScanRt → ScanRt) : (m.modScan f).fresh = m.fresh := rfl
@[simp] theorem Mach.modScan_vmonLow (f : ScanRt → ScanRt) : (m.modScan f).vmonLow = m.vmonLow := rfl
@[simp] theorem Mach.modScan_prot (f : ScanRt → ScanRt) : (m.modScan f).prot = m.prot := rfl
@[simp] theorem Mach.modScan_sup (f : ScanRt → ScanRt) : (m.modScan f).sup = m.sup := rfl
@[simp] theorem Mach.modScan_ev (f : ScanRt → ScanRt) : (m.modScan f).ev = m.ev := rfl
@[simp] theorem Mach.modScan_items (f : ScanRt → ScanRt) : (m.modScan f).items = m.items := rfl
@[simp] theorem Mach.modScan_order (f : ScanRt → ScanRt) : (m.modScan f).order = m.order := rfl
@[simp] theorem Mach.modScan_ledger (f : ScanRt → ScanRt) : (m.modScan f).ledger = m.ledger := rfl
@[simp] theorem Mach.modScan_clusters (f : ScanRt → ScanRt) : (m.modScan f).clusters = m.clusters := rfl
@[simp] theorem Mach.modScan_heads (f : ScanRt → ScanRt) : (m.modScan f).heads = m.heads := rfl
@[simp] theorem Mach.modScan_net (f : ScanRt → ScanRt) : (m.modScan f).net = m.net := rfl
@[simp] theorem Mach.modScan_test (f : ScanRt → ScanRt) : (m.modScan f).test = m.test := rfl
@[simp] theorem Mach.modScan_an (f : ScanRt → ScanRt) : (m.modScan f).an = m.an := rfl
@[simp] theorem Mach.modScan_axes (f : ScanRt → ScanRt) : (m.modScan f).axes = m.axes := rfl
@[simp] theorem Mach.modScan_motion (f : ScanRt → ScanRt) : (m.modScan f).motion = m.motion := rfl
@[simp] theorem Mach.modScan_stations (f : ScanRt → ScanRt) : (m.modScan f).stations = m.stations := rfl
@[simp] theorem Mach.modScan_cams (f : ScanRt → ScanRt) : (m.modScan f).cams = m.cams := rfl
@[simp] theorem Mach.modScan_ctxs (f : ScanRt → ScanRt) : (m.modScan f).ctxs = m.ctxs := rfl
@[simp] theorem Mach.modScan_pipes (f : ScanRt → ScanRt) : (m.modScan f).pipes = m.pipes := rfl
@[simp] theorem Mach.modScan_insp (f : ScanRt → ScanRt) : (m.modScan f).insp = m.insp := rfl
@[simp] theorem Mach.modScan_calSets (f : ScanRt → ScanRt) : (m.modScan f).calSets = m.calSets := rfl
@[simp] theorem Mach.modScan_calFlash (f : ScanRt → ScanRt) : (m.modScan f).calFlash = m.calFlash := rfl
@[simp] theorem Mach.modScan_calStoring (f : ScanRt → ScanRt) : (m.modScan f).calStoring = m.calStoring := rfl
@[simp] theorem Mach.modScan_calResult (f : ScanRt → ScanRt) : (m.modScan f).calResult = m.calResult := rfl
@[simp] theorem Mach.modScan_badWords (f : ScanRt → ScanRt) : (m.modScan f).badWords = m.badWords := rfl
@[simp] theorem Mach.modScan_flash (f : ScanRt → ScanRt) : (m.modScan f).flash = m.flash := rfl
@[simp] theorem Mach.modScan_uarts (f : ScanRt → ScanRt) : (m.modScan f).uarts = m.uarts := rfl
@[simp] theorem Mach.modScan_cf1 (f : ScanRt → ScanRt) : (m.modScan f).cf1 = m.cf1 := rfl
@[simp] theorem Mach.modScan_dev (f : ScanRt → ScanRt) : (m.modScan f).dev = m.dev := rfl
@[simp] theorem Mach.modScan_out (f : ScanRt → ScanRt) : (m.modScan f).out = m.out := rfl
@[simp] theorem Mach.modScan_stores (f : ScanRt → ScanRt) : (m.modScan f).stores = m.stores := rfl
@[simp] theorem Mach.modScan_g (f : ScanRt → ScanRt) (j : Nat) : (m.modScan f).g j = m.g j := rfl
@[simp] theorem Mach.modScan_h (f : ScanRt → ScanRt) (j : Nat) : (m.modScan f).h j = m.h j := rfl

/-! ### modCam -/

@[simp] theorem Mach.modCam_variant (p : Nat) (f : CamRt → CamRt) : (m.modCam p f).variant = m.variant := rfl
@[simp] theorem Mach.modCam_dict (p : Nat) (f : CamRt → CamRt) : (m.modCam p f).dict = m.dict := rfl
@[simp] theorem Mach.modCam_held (p : Nat) (f : CamRt → CamRt) : (m.modCam p f).held = m.held := rfl
@[simp] theorem Mach.modCam_time (p : Nat) (f : CamRt → CamRt) : (m.modCam p f).time = m.time := rfl
@[simp] theorem Mach.modCam_fresh (p : Nat) (f : CamRt → CamRt) : (m.modCam p f).fresh = m.fresh := rfl
@[simp] theorem Mach.modCam_vmonLow (p : Nat) (f : CamRt → CamRt) : (m.modCam p f).vmonLow = m.vmonLow := rfl
@[simp] theorem Mach.modCam_prot (p : Nat) (f : CamRt → CamRt) : (m.modCam p f).prot = m.prot := rfl
@[simp] theorem Mach.modCam_sup (p : Nat) (f : CamRt → CamRt) : (m.modCam p f).sup = m.sup := rfl
@[simp] theorem Mach.modCam_ev (p : Nat) (f : CamRt → CamRt) : (m.modCam p f).ev = m.ev := rfl
@[simp] theorem Mach.modCam_items (p : Nat) (f : CamRt → CamRt) : (m.modCam p f).items = m.items := rfl
@[simp] theorem Mach.modCam_order (p : Nat) (f : CamRt → CamRt) : (m.modCam p f).order = m.order := rfl
@[simp] theorem Mach.modCam_ledger (p : Nat) (f : CamRt → CamRt) : (m.modCam p f).ledger = m.ledger := rfl
@[simp] theorem Mach.modCam_clusters (p : Nat) (f : CamRt → CamRt) : (m.modCam p f).clusters = m.clusters := rfl
@[simp] theorem Mach.modCam_heads (p : Nat) (f : CamRt → CamRt) : (m.modCam p f).heads = m.heads := rfl
@[simp] theorem Mach.modCam_net (p : Nat) (f : CamRt → CamRt) : (m.modCam p f).net = m.net := rfl
@[simp] theorem Mach.modCam_test (p : Nat) (f : CamRt → CamRt) : (m.modCam p f).test = m.test := rfl
@[simp] theorem Mach.modCam_an (p : Nat) (f : CamRt → CamRt) : (m.modCam p f).an = m.an := rfl
@[simp] theorem Mach.modCam_axes (p : Nat) (f : CamRt → CamRt) : (m.modCam p f).axes = m.axes := rfl
@[simp] theorem Mach.modCam_motion (p : Nat) (f : CamRt → CamRt) : (m.modCam p f).motion = m.motion := rfl
@[simp] theorem Mach.modCam_stations (p : Nat) (f : CamRt → CamRt) : (m.modCam p f).stations = m.stations := rfl
@[simp] theorem Mach.modCam_sl (p : Nat) (f : CamRt → CamRt) : (m.modCam p f).sl = m.sl := rfl
@[simp] theorem Mach.modCam_ctxs (p : Nat) (f : CamRt → CamRt) : (m.modCam p f).ctxs = m.ctxs := rfl
@[simp] theorem Mach.modCam_pipes (p : Nat) (f : CamRt → CamRt) : (m.modCam p f).pipes = m.pipes := rfl
@[simp] theorem Mach.modCam_insp (p : Nat) (f : CamRt → CamRt) : (m.modCam p f).insp = m.insp := rfl
@[simp] theorem Mach.modCam_calSets (p : Nat) (f : CamRt → CamRt) : (m.modCam p f).calSets = m.calSets := rfl
@[simp] theorem Mach.modCam_calFlash (p : Nat) (f : CamRt → CamRt) : (m.modCam p f).calFlash = m.calFlash := rfl
@[simp] theorem Mach.modCam_calStoring (p : Nat) (f : CamRt → CamRt) : (m.modCam p f).calStoring = m.calStoring := rfl
@[simp] theorem Mach.modCam_calResult (p : Nat) (f : CamRt → CamRt) : (m.modCam p f).calResult = m.calResult := rfl
@[simp] theorem Mach.modCam_badWords (p : Nat) (f : CamRt → CamRt) : (m.modCam p f).badWords = m.badWords := rfl
@[simp] theorem Mach.modCam_flash (p : Nat) (f : CamRt → CamRt) : (m.modCam p f).flash = m.flash := rfl
@[simp] theorem Mach.modCam_uarts (p : Nat) (f : CamRt → CamRt) : (m.modCam p f).uarts = m.uarts := rfl
@[simp] theorem Mach.modCam_cf1 (p : Nat) (f : CamRt → CamRt) : (m.modCam p f).cf1 = m.cf1 := rfl
@[simp] theorem Mach.modCam_dev (p : Nat) (f : CamRt → CamRt) : (m.modCam p f).dev = m.dev := rfl
@[simp] theorem Mach.modCam_out (p : Nat) (f : CamRt → CamRt) : (m.modCam p f).out = m.out := rfl
@[simp] theorem Mach.modCam_stores (p : Nat) (f : CamRt → CamRt) : (m.modCam p f).stores = m.stores := rfl
@[simp] theorem Mach.modCam_g (p : Nat) (f : CamRt → CamRt) (j : Nat) : (m.modCam p f).g j = m.g j := rfl
@[simp] theorem Mach.modCam_h (p : Nat) (f : CamRt → CamRt) (j : Nat) : (m.modCam p f).h j = m.h j := rfl

/-! ### modCtx -/

@[simp] theorem Mach.modCtx_variant (c : Nat) (f : CtxRt → CtxRt) : (m.modCtx c f).variant = m.variant := rfl
@[simp] theorem Mach.modCtx_dict (c : Nat) (f : CtxRt → CtxRt) : (m.modCtx c f).dict = m.dict := rfl
@[simp] theorem Mach.modCtx_held (c : Nat) (f : CtxRt → CtxRt) : (m.modCtx c f).held = m.held := rfl
@[simp] theorem Mach.modCtx_time (c : Nat) (f : CtxRt → CtxRt) : (m.modCtx c f).time = m.time := rfl
@[simp] theorem Mach.modCtx_fresh (c : Nat) (f : CtxRt → CtxRt) : (m.modCtx c f).fresh = m.fresh := rfl
@[simp] theorem Mach.modCtx_vmonLow (c : Nat) (f : CtxRt → CtxRt) : (m.modCtx c f).vmonLow = m.vmonLow := rfl
@[simp] theorem Mach.modCtx_prot (c : Nat) (f : CtxRt → CtxRt) : (m.modCtx c f).prot = m.prot := rfl
@[simp] theorem Mach.modCtx_sup (c : Nat) (f : CtxRt → CtxRt) : (m.modCtx c f).sup = m.sup := rfl
@[simp] theorem Mach.modCtx_ev (c : Nat) (f : CtxRt → CtxRt) : (m.modCtx c f).ev = m.ev := rfl
@[simp] theorem Mach.modCtx_items (c : Nat) (f : CtxRt → CtxRt) : (m.modCtx c f).items = m.items := rfl
@[simp] theorem Mach.modCtx_order (c : Nat) (f : CtxRt → CtxRt) : (m.modCtx c f).order = m.order := rfl
@[simp] theorem Mach.modCtx_ledger (c : Nat) (f : CtxRt → CtxRt) : (m.modCtx c f).ledger = m.ledger := rfl
@[simp] theorem Mach.modCtx_clusters (c : Nat) (f : CtxRt → CtxRt) : (m.modCtx c f).clusters = m.clusters := rfl
@[simp] theorem Mach.modCtx_heads (c : Nat) (f : CtxRt → CtxRt) : (m.modCtx c f).heads = m.heads := rfl
@[simp] theorem Mach.modCtx_net (c : Nat) (f : CtxRt → CtxRt) : (m.modCtx c f).net = m.net := rfl
@[simp] theorem Mach.modCtx_test (c : Nat) (f : CtxRt → CtxRt) : (m.modCtx c f).test = m.test := rfl
@[simp] theorem Mach.modCtx_an (c : Nat) (f : CtxRt → CtxRt) : (m.modCtx c f).an = m.an := rfl
@[simp] theorem Mach.modCtx_axes (c : Nat) (f : CtxRt → CtxRt) : (m.modCtx c f).axes = m.axes := rfl
@[simp] theorem Mach.modCtx_motion (c : Nat) (f : CtxRt → CtxRt) : (m.modCtx c f).motion = m.motion := rfl
@[simp] theorem Mach.modCtx_stations (c : Nat) (f : CtxRt → CtxRt) : (m.modCtx c f).stations = m.stations := rfl
@[simp] theorem Mach.modCtx_sl (c : Nat) (f : CtxRt → CtxRt) : (m.modCtx c f).sl = m.sl := rfl
@[simp] theorem Mach.modCtx_cams (c : Nat) (f : CtxRt → CtxRt) : (m.modCtx c f).cams = m.cams := rfl
@[simp] theorem Mach.modCtx_pipes (c : Nat) (f : CtxRt → CtxRt) : (m.modCtx c f).pipes = m.pipes := rfl
@[simp] theorem Mach.modCtx_insp (c : Nat) (f : CtxRt → CtxRt) : (m.modCtx c f).insp = m.insp := rfl
@[simp] theorem Mach.modCtx_calSets (c : Nat) (f : CtxRt → CtxRt) : (m.modCtx c f).calSets = m.calSets := rfl
@[simp] theorem Mach.modCtx_calFlash (c : Nat) (f : CtxRt → CtxRt) : (m.modCtx c f).calFlash = m.calFlash := rfl
@[simp] theorem Mach.modCtx_calStoring (c : Nat) (f : CtxRt → CtxRt) : (m.modCtx c f).calStoring = m.calStoring := rfl
@[simp] theorem Mach.modCtx_calResult (c : Nat) (f : CtxRt → CtxRt) : (m.modCtx c f).calResult = m.calResult := rfl
@[simp] theorem Mach.modCtx_badWords (c : Nat) (f : CtxRt → CtxRt) : (m.modCtx c f).badWords = m.badWords := rfl
@[simp] theorem Mach.modCtx_flash (c : Nat) (f : CtxRt → CtxRt) : (m.modCtx c f).flash = m.flash := rfl
@[simp] theorem Mach.modCtx_uarts (c : Nat) (f : CtxRt → CtxRt) : (m.modCtx c f).uarts = m.uarts := rfl
@[simp] theorem Mach.modCtx_cf1 (c : Nat) (f : CtxRt → CtxRt) : (m.modCtx c f).cf1 = m.cf1 := rfl
@[simp] theorem Mach.modCtx_dev (c : Nat) (f : CtxRt → CtxRt) : (m.modCtx c f).dev = m.dev := rfl
@[simp] theorem Mach.modCtx_out (c : Nat) (f : CtxRt → CtxRt) : (m.modCtx c f).out = m.out := rfl
@[simp] theorem Mach.modCtx_stores (c : Nat) (f : CtxRt → CtxRt) : (m.modCtx c f).stores = m.stores := rfl
@[simp] theorem Mach.modCtx_g (c : Nat) (f : CtxRt → CtxRt) (j : Nat) : (m.modCtx c f).g j = m.g j := rfl
@[simp] theorem Mach.modCtx_h (c : Nat) (f : CtxRt → CtxRt) (j : Nat) : (m.modCtx c f).h j = m.h j := rfl

/-! ### modPipe -/

@[simp] theorem Mach.modPipe_variant (i : Nat) (f : PipeRt → PipeRt) : (m.modPipe i f).variant = m.variant := rfl
@[simp] theorem Mach.modPipe_dict (i : Nat) (f : PipeRt → PipeRt) : (m.modPipe i f).dict = m.dict := rfl
@[simp] theorem Mach.modPipe_held (i : Nat) (f : PipeRt → PipeRt) : (m.modPipe i f).held = m.held := rfl
@[simp] theorem Mach.modPipe_time (i : Nat) (f : PipeRt → PipeRt) : (m.modPipe i f).time = m.time := rfl
@[simp] theorem Mach.modPipe_fresh (i : Nat) (f : PipeRt → PipeRt) : (m.modPipe i f).fresh = m.fresh := rfl
@[simp] theorem Mach.modPipe_vmonLow (i : Nat) (f : PipeRt → PipeRt) : (m.modPipe i f).vmonLow = m.vmonLow := rfl
@[simp] theorem Mach.modPipe_prot (i : Nat) (f : PipeRt → PipeRt) : (m.modPipe i f).prot = m.prot := rfl
@[simp] theorem Mach.modPipe_sup (i : Nat) (f : PipeRt → PipeRt) : (m.modPipe i f).sup = m.sup := rfl
@[simp] theorem Mach.modPipe_ev (i : Nat) (f : PipeRt → PipeRt) : (m.modPipe i f).ev = m.ev := rfl
@[simp] theorem Mach.modPipe_items (i : Nat) (f : PipeRt → PipeRt) : (m.modPipe i f).items = m.items := rfl
@[simp] theorem Mach.modPipe_order (i : Nat) (f : PipeRt → PipeRt) : (m.modPipe i f).order = m.order := rfl
@[simp] theorem Mach.modPipe_ledger (i : Nat) (f : PipeRt → PipeRt) : (m.modPipe i f).ledger = m.ledger := rfl
@[simp] theorem Mach.modPipe_clusters (i : Nat) (f : PipeRt → PipeRt) : (m.modPipe i f).clusters = m.clusters := rfl
@[simp] theorem Mach.modPipe_heads (i : Nat) (f : PipeRt → PipeRt) : (m.modPipe i f).heads = m.heads := rfl
@[simp] theorem Mach.modPipe_net (i : Nat) (f : PipeRt → PipeRt) : (m.modPipe i f).net = m.net := rfl
@[simp] theorem Mach.modPipe_test (i : Nat) (f : PipeRt → PipeRt) : (m.modPipe i f).test = m.test := rfl
@[simp] theorem Mach.modPipe_an (i : Nat) (f : PipeRt → PipeRt) : (m.modPipe i f).an = m.an := rfl
@[simp] theorem Mach.modPipe_axes (i : Nat) (f : PipeRt → PipeRt) : (m.modPipe i f).axes = m.axes := rfl
@[simp] theorem Mach.modPipe_motion (i : Nat) (f : PipeRt → PipeRt) : (m.modPipe i f).motion = m.motion := rfl
@[simp] theorem Mach.modPipe_stations (i : Nat) (f : PipeRt → PipeRt) : (m.modPipe i f).stations = m.stations := rfl
@[simp] theorem Mach.modPipe_sl (i : Nat) (f : PipeRt → PipeRt) : (m.modPipe i f).sl = m.sl := rfl
@[simp] theorem Mach.modPipe_cams (i : Nat) (f : PipeRt → PipeRt) : (m.modPipe i f).cams = m.cams := rfl
@[simp] theorem Mach.modPipe_ctxs (i : Nat) (f : PipeRt → PipeRt) : (m.modPipe i f).ctxs = m.ctxs := rfl
@[simp] theorem Mach.modPipe_insp (i : Nat) (f : PipeRt → PipeRt) : (m.modPipe i f).insp = m.insp := rfl
@[simp] theorem Mach.modPipe_calSets (i : Nat) (f : PipeRt → PipeRt) : (m.modPipe i f).calSets = m.calSets := rfl
@[simp] theorem Mach.modPipe_calFlash (i : Nat) (f : PipeRt → PipeRt) : (m.modPipe i f).calFlash = m.calFlash := rfl
@[simp] theorem Mach.modPipe_calStoring (i : Nat) (f : PipeRt → PipeRt) : (m.modPipe i f).calStoring = m.calStoring := rfl
@[simp] theorem Mach.modPipe_calResult (i : Nat) (f : PipeRt → PipeRt) : (m.modPipe i f).calResult = m.calResult := rfl
@[simp] theorem Mach.modPipe_badWords (i : Nat) (f : PipeRt → PipeRt) : (m.modPipe i f).badWords = m.badWords := rfl
@[simp] theorem Mach.modPipe_flash (i : Nat) (f : PipeRt → PipeRt) : (m.modPipe i f).flash = m.flash := rfl
@[simp] theorem Mach.modPipe_uarts (i : Nat) (f : PipeRt → PipeRt) : (m.modPipe i f).uarts = m.uarts := rfl
@[simp] theorem Mach.modPipe_cf1 (i : Nat) (f : PipeRt → PipeRt) : (m.modPipe i f).cf1 = m.cf1 := rfl
@[simp] theorem Mach.modPipe_dev (i : Nat) (f : PipeRt → PipeRt) : (m.modPipe i f).dev = m.dev := rfl
@[simp] theorem Mach.modPipe_out (i : Nat) (f : PipeRt → PipeRt) : (m.modPipe i f).out = m.out := rfl
@[simp] theorem Mach.modPipe_stores (i : Nat) (f : PipeRt → PipeRt) : (m.modPipe i f).stores = m.stores := rfl
@[simp] theorem Mach.modPipe_g (i : Nat) (f : PipeRt → PipeRt) (j : Nat) : (m.modPipe i f).g j = m.g j := rfl
@[simp] theorem Mach.modPipe_h (i : Nat) (f : PipeRt → PipeRt) (j : Nat) : (m.modPipe i f).h j = m.h j := rfl

/-! ### modUart -/

@[simp] theorem Mach.modUart_variant (u : Nat) (f : UartRt → UartRt) : (m.modUart u f).variant = m.variant := rfl
@[simp] theorem Mach.modUart_dict (u : Nat) (f : UartRt → UartRt) : (m.modUart u f).dict = m.dict := rfl
@[simp] theorem Mach.modUart_held (u : Nat) (f : UartRt → UartRt) : (m.modUart u f).held = m.held := rfl
@[simp] theorem Mach.modUart_time (u : Nat) (f : UartRt → UartRt) : (m.modUart u f).time = m.time := rfl
@[simp] theorem Mach.modUart_fresh (u : Nat) (f : UartRt → UartRt) : (m.modUart u f).fresh = m.fresh := rfl
@[simp] theorem Mach.modUart_vmonLow (u : Nat) (f : UartRt → UartRt) : (m.modUart u f).vmonLow = m.vmonLow := rfl
@[simp] theorem Mach.modUart_prot (u : Nat) (f : UartRt → UartRt) : (m.modUart u f).prot = m.prot := rfl
@[simp] theorem Mach.modUart_sup (u : Nat) (f : UartRt → UartRt) : (m.modUart u f).sup = m.sup := rfl
@[simp] theorem Mach.modUart_ev (u : Nat) (f : UartRt → UartRt) : (m.modUart u f).ev = m.ev := rfl
@[simp] theorem Mach.modUart_items (u : Nat) (f : UartRt → UartRt) : (m.modUart u f).items = m.items := rfl
@[simp] theorem Mach.modUart_order (u : Nat) (f : UartRt → UartRt) : (m.modUart u f).order = m.order := rfl
@[simp] theorem Mach.modUart_ledger (u : Nat) (f : UartRt → UartRt) : (m.modUart u f).ledger = m.ledger := rfl
@[simp] theorem Mach.modUart_clusters (u : Nat) (f : UartRt → UartRt) : (m.modUart u f).clusters = m.clusters := rfl
@[simp] theorem Mach.modUart_heads (u : Nat) (f : UartRt → UartRt) : (m.modUart u f).heads = m.heads := rfl
@[simp] theorem Mach.modUart_net (u : Nat) (f : UartRt → UartRt) : (m.modUart u f).net = m.net := rfl
@[simp] theorem Mach.modUart_test (u : Nat) (f : UartRt → UartRt) : (m.modUart u f).test = m.test := rfl
@[simp] theorem Mach.modUart_an (u : Nat) (f : UartRt → UartRt) : (m.modUart u f).an = m.an := rfl
@[simp] theorem Mach.modUart_axes (u : Nat) (f : UartRt → UartRt) : (m.modUart u f).axes = m.axes := rfl
@[simp] theorem Mach.modUart_motion (u : Nat) (f : UartRt → UartRt) : (m.modUart u f).motion = m.motion := rfl
@[simp] theorem Mach.modUart_stations (u : Nat) (f : UartRt → UartRt) : (m.modUart u f).stations = m.stations := rfl
@[simp] theorem Mach.modUart_sl (u : Nat) (f : UartRt → UartRt) : (m.modUart u f).sl = m.sl := rfl
@[simp] theorem Mach.modUart_cams (u : Nat) (f : UartRt → UartRt) : (m.modUart u f).cams = m.cams := rfl
@[simp] theorem Mach.modUart_ctxs (u : Nat) (f : UartRt → UartRt) : (m.modUart u f).ctxs = m.ctxs := rfl
@[simp] theorem Mach.modUart_pipes (u : Nat) (f : UartRt → UartRt) : (m.modUart u f).pipes = m.pipes := rfl
@[simp] theorem Mach.modUart_insp (u : Nat) (f : UartRt → UartRt) : (m.modUart u f).insp = m.insp := rfl
@[simp] theorem Mach.modUart_calSets (u : Nat) (f : UartRt → UartRt) : (m.modUart u f).calSets = m.calSets := rfl
@[simp] theorem Mach.modUart_calFlash (u : Nat) (f : UartRt → UartRt) : (m.modUart u f).calFlash = m.calFlash := rfl
@[simp] theorem Mach.modUart_calStoring (u : Nat) (f : UartRt → UartRt) : (m.modUart u f).calStoring = m.calStoring := rfl
@[simp] theorem Mach.modUart_calResult (u : Nat) (f : UartRt → UartRt) : (m.modUart u f).calResult = m.calResult := rfl
@[simp] theorem Mach.modUart_badWords (u : Nat) (f : UartRt → UartRt) : (m.modUart u f).badWords = m.badWords := rfl
@[simp] theorem Mach.modUart_flash (u : Nat) (f : UartRt → UartRt) : (m.modUart u f).flash = m.flash := rfl
@[simp] theorem Mach.modUart_cf1 (u : Nat) (f : UartRt → UartRt) : (m.modUart u f).cf1 = m.cf1 := rfl
@[simp] theorem Mach.modUart_dev (u : Nat) (f : UartRt → UartRt) : (m.modUart u f).dev = m.dev := rfl
@[simp] theorem Mach.modUart_out (u : Nat) (f : UartRt → UartRt) : (m.modUart u f).out = m.out := rfl
@[simp] theorem Mach.modUart_stores (u : Nat) (f : UartRt → UartRt) : (m.modUart u f).stores = m.stores := rfl
@[simp] theorem Mach.modUart_g (u : Nat) (f : UartRt → UartRt) (j : Nat) : (m.modUart u f).g j = m.g j := rfl
@[simp] theorem Mach.modUart_h (u : Nat) (f : UartRt → UartRt) (j : Nat) : (m.modUart u f).h j = m.h j := rfl

/-! ### modSlice -/

@[simp] theorem Mach.modSlice_variant (s : Nat) (f : Slice → Slice) : (m.modSlice s f).variant = m.variant := rfl
@[simp] theorem Mach.modSlice_dict (s : Nat) (f : Slice → Slice) : (m.modSlice s f).dict = m.dict := rfl
@[simp] theorem Mach.modSlice_held (s : Nat) (f : Slice → Slice) : (m.modSlice s f).held = m.held := rfl
@[simp] theorem Mach.modSlice_time (s : Nat) (f : Slice → Slice) : (m.modSlice s f).time = m.time := rfl
@[simp] theorem Mach.modSlice_fresh (s : Nat) (f : Slice → Slice) : (m.modSlice s f).fresh = m.fresh := rfl
@[simp] theorem Mach.modSlice_vmonLow (s : Nat) (f : Slice → Slice) : (m.modSlice s f).vmonLow = m.vmonLow := rfl
@[simp] theorem Mach.modSlice_prot (s : Nat) (f : Slice → Slice) : (m.modSlice s f).prot = m.prot := rfl
@[simp] theorem Mach.modSlice_sup (s : Nat) (f : Slice → Slice) : (m.modSlice s f).sup = m.sup := rfl
@[simp] theorem Mach.modSlice_ev (s : Nat) (f : Slice → Slice) : (m.modSlice s f).ev = m.ev := rfl
@[simp] theorem Mach.modSlice_items (s : Nat) (f : Slice → Slice) : (m.modSlice s f).items = m.items := rfl
@[simp] theorem Mach.modSlice_order (s : Nat) (f : Slice → Slice) : (m.modSlice s f).order = m.order := rfl
@[simp] theorem Mach.modSlice_ledger (s : Nat) (f : Slice → Slice) : (m.modSlice s f).ledger = m.ledger := rfl
@[simp] theorem Mach.modSlice_clusters (s : Nat) (f : Slice → Slice) : (m.modSlice s f).clusters = m.clusters := rfl
@[simp] theorem Mach.modSlice_heads (s : Nat) (f : Slice → Slice) : (m.modSlice s f).heads = m.heads := rfl
@[simp] theorem Mach.modSlice_net (s : Nat) (f : Slice → Slice) : (m.modSlice s f).net = m.net := rfl
@[simp] theorem Mach.modSlice_test (s : Nat) (f : Slice → Slice) : (m.modSlice s f).test = m.test := rfl
@[simp] theorem Mach.modSlice_axes (s : Nat) (f : Slice → Slice) : (m.modSlice s f).axes = m.axes := rfl
@[simp] theorem Mach.modSlice_motion (s : Nat) (f : Slice → Slice) : (m.modSlice s f).motion = m.motion := rfl
@[simp] theorem Mach.modSlice_stations (s : Nat) (f : Slice → Slice) : (m.modSlice s f).stations = m.stations := rfl
@[simp] theorem Mach.modSlice_sl (s : Nat) (f : Slice → Slice) : (m.modSlice s f).sl = m.sl := rfl
@[simp] theorem Mach.modSlice_cams (s : Nat) (f : Slice → Slice) : (m.modSlice s f).cams = m.cams := rfl
@[simp] theorem Mach.modSlice_ctxs (s : Nat) (f : Slice → Slice) : (m.modSlice s f).ctxs = m.ctxs := rfl
@[simp] theorem Mach.modSlice_pipes (s : Nat) (f : Slice → Slice) : (m.modSlice s f).pipes = m.pipes := rfl
@[simp] theorem Mach.modSlice_insp (s : Nat) (f : Slice → Slice) : (m.modSlice s f).insp = m.insp := rfl
@[simp] theorem Mach.modSlice_calSets (s : Nat) (f : Slice → Slice) : (m.modSlice s f).calSets = m.calSets := rfl
@[simp] theorem Mach.modSlice_calFlash (s : Nat) (f : Slice → Slice) : (m.modSlice s f).calFlash = m.calFlash := rfl
@[simp] theorem Mach.modSlice_calStoring (s : Nat) (f : Slice → Slice) : (m.modSlice s f).calStoring = m.calStoring := rfl
@[simp] theorem Mach.modSlice_calResult (s : Nat) (f : Slice → Slice) : (m.modSlice s f).calResult = m.calResult := rfl
@[simp] theorem Mach.modSlice_badWords (s : Nat) (f : Slice → Slice) : (m.modSlice s f).badWords = m.badWords := rfl
@[simp] theorem Mach.modSlice_flash (s : Nat) (f : Slice → Slice) : (m.modSlice s f).flash = m.flash := rfl
@[simp] theorem Mach.modSlice_uarts (s : Nat) (f : Slice → Slice) : (m.modSlice s f).uarts = m.uarts := rfl
@[simp] theorem Mach.modSlice_cf1 (s : Nat) (f : Slice → Slice) : (m.modSlice s f).cf1 = m.cf1 := rfl
@[simp] theorem Mach.modSlice_dev (s : Nat) (f : Slice → Slice) : (m.modSlice s f).dev = m.dev := rfl
@[simp] theorem Mach.modSlice_out (s : Nat) (f : Slice → Slice) : (m.modSlice s f).out = m.out := rfl
@[simp] theorem Mach.modSlice_stores (s : Nat) (f : Slice → Slice) : (m.modSlice s f).stores = m.stores := rfl
@[simp] theorem Mach.modSlice_g (s : Nat) (f : Slice → Slice) (j : Nat) : (m.modSlice s f).g j = m.g j := rfl
@[simp] theorem Mach.modSlice_h (s : Nat) (f : Slice → Slice) (j : Nat) : (m.modSlice s f).h j = m.h j := rfl

/-! ### modPort -/

@[simp] theorem Mach.modPort_variant (p : Nat) (f : PortRt → PortRt) : (m.modPort p f).variant = m.variant := rfl
@[simp] theorem Mach.modPort_dict (p : Nat) (f : PortRt → PortRt) : (m.modPort p f).dict = m.dict := rfl
@[simp] theorem Mach.modPort_held (p : Nat) (f : PortRt → PortRt) : (m.modPort p f).held = m.held := rfl
@[simp] theorem Mach.modPort_time (p : Nat) (f : PortRt → PortRt) : (m.modPort p f).time = m.time := rfl
@[simp] theorem Mach.modPort_fresh (p : Nat) (f : PortRt → PortRt) : (m.modPort p f).fresh = m.fresh := rfl
@[simp] theorem Mach.modPort_vmonLow (p : Nat) (f : PortRt → PortRt) : (m.modPort p f).vmonLow = m.vmonLow := rfl
@[simp] theorem Mach.modPort_prot (p : Nat) (f : PortRt → PortRt) : (m.modPort p f).prot = m.prot := rfl
@[simp] theorem Mach.modPort_sup (p : Nat) (f : PortRt → PortRt) : (m.modPort p f).sup = m.sup := rfl
@[simp] theorem Mach.modPort_ev (p : Nat) (f : PortRt → PortRt) : (m.modPort p f).ev = m.ev := rfl
@[simp] theorem Mach.modPort_items (p : Nat) (f : PortRt → PortRt) : (m.modPort p f).items = m.items := rfl
@[simp] theorem Mach.modPort_order (p : Nat) (f : PortRt → PortRt) : (m.modPort p f).order = m.order := rfl
@[simp] theorem Mach.modPort_ledger (p : Nat) (f : PortRt → PortRt) : (m.modPort p f).ledger = m.ledger := rfl
@[simp] theorem Mach.modPort_clusters (p : Nat) (f : PortRt → PortRt) : (m.modPort p f).clusters = m.clusters := rfl
@[simp] theorem Mach.modPort_heads (p : Nat) (f : PortRt → PortRt) : (m.modPort p f).heads = m.heads := rfl
@[simp] theorem Mach.modPort_net (p : Nat) (f : PortRt → PortRt) : (m.modPort p f).net = m.net := rfl
@[simp] theorem Mach.modPort_test (p : Nat) (f : PortRt → PortRt) : (m.modPort p f).test = m.test := rfl
@[simp] theorem Mach.modPort_an (p : Nat) (f : PortRt → PortRt) : (m.modPort p f).an = m.an := rfl
@[simp] theorem Mach.modPort_axes (p : Nat) (f : PortRt → PortRt) : (m.modPort p f).axes = m.axes := rfl
@[simp] theorem Mach.modPort_stations (p : Nat) (f : PortRt → PortRt) : (m.modPort p f).stations = m.stations := rfl
@[simp] theorem Mach.modPort_sl (p : Nat) (f : PortRt → PortRt) : (m.modPort p f).sl = m.sl := rfl
@[simp] theorem Mach.modPort_cams (p : Nat) (f : PortRt → PortRt) : (m.modPort p f).cams = m.cams := rfl
@[simp] theorem Mach.modPort_ctxs (p : Nat) (f : PortRt → PortRt) : (m.modPort p f).ctxs = m.ctxs := rfl
@[simp] theorem Mach.modPort_pipes (p : Nat) (f : PortRt → PortRt) : (m.modPort p f).pipes = m.pipes := rfl
@[simp] theorem Mach.modPort_insp (p : Nat) (f : PortRt → PortRt) : (m.modPort p f).insp = m.insp := rfl
@[simp] theorem Mach.modPort_calSets (p : Nat) (f : PortRt → PortRt) : (m.modPort p f).calSets = m.calSets := rfl
@[simp] theorem Mach.modPort_calFlash (p : Nat) (f : PortRt → PortRt) : (m.modPort p f).calFlash = m.calFlash := rfl
@[simp] theorem Mach.modPort_calStoring (p : Nat) (f : PortRt → PortRt) : (m.modPort p f).calStoring = m.calStoring := rfl
@[simp] theorem Mach.modPort_calResult (p : Nat) (f : PortRt → PortRt) : (m.modPort p f).calResult = m.calResult := rfl
@[simp] theorem Mach.modPort_badWords (p : Nat) (f : PortRt → PortRt) : (m.modPort p f).badWords = m.badWords := rfl
@[simp] theorem Mach.modPort_flash (p : Nat) (f : PortRt → PortRt) : (m.modPort p f).flash = m.flash := rfl
@[simp] theorem Mach.modPort_uarts (p : Nat) (f : PortRt → PortRt) : (m.modPort p f).uarts = m.uarts := rfl
@[simp] theorem Mach.modPort_cf1 (p : Nat) (f : PortRt → PortRt) : (m.modPort p f).cf1 = m.cf1 := rfl
@[simp] theorem Mach.modPort_dev (p : Nat) (f : PortRt → PortRt) : (m.modPort p f).dev = m.dev := rfl
@[simp] theorem Mach.modPort_out (p : Nat) (f : PortRt → PortRt) : (m.modPort p f).out = m.out := rfl
@[simp] theorem Mach.modPort_stores (p : Nat) (f : PortRt → PortRt) : (m.modPort p f).stores = m.stores := rfl
@[simp] theorem Mach.modPort_g (p : Nat) (f : PortRt → PortRt) (j : Nat) : (m.modPort p f).g j = m.g j := rfl
@[simp] theorem Mach.modPort_h (p : Nat) (f : PortRt → PortRt) (j : Nat) : (m.modPort p f).h j = m.h j := rfl

/-! ### modBus -/

@[simp] theorem Mach.modBus_variant (b : Nat) (f : BusRt → BusRt) : (m.modBus b f).variant = m.variant := rfl
@[simp] theorem Mach.modBus_dict (b : Nat) (f : BusRt → BusRt) : (m.modBus b f).dict = m.dict := rfl
@[simp] theorem Mach.modBus_held (b : Nat) (f : BusRt → BusRt) : (m.modBus b f).held = m.held := rfl
@[simp] theorem Mach.modBus_time (b : Nat) (f : BusRt → BusRt) : (m.modBus b f).time = m.time := rfl
@[simp] theorem Mach.modBus_fresh (b : Nat) (f : BusRt → BusRt) : (m.modBus b f).fresh = m.fresh := rfl
@[simp] theorem Mach.modBus_vmonLow (b : Nat) (f : BusRt → BusRt) : (m.modBus b f).vmonLow = m.vmonLow := rfl
@[simp] theorem Mach.modBus_prot (b : Nat) (f : BusRt → BusRt) : (m.modBus b f).prot = m.prot := rfl
@[simp] theorem Mach.modBus_sup (b : Nat) (f : BusRt → BusRt) : (m.modBus b f).sup = m.sup := rfl
@[simp] theorem Mach.modBus_ev (b : Nat) (f : BusRt → BusRt) : (m.modBus b f).ev = m.ev := rfl
@[simp] theorem Mach.modBus_items (b : Nat) (f : BusRt → BusRt) : (m.modBus b f).items = m.items := rfl
@[simp] theorem Mach.modBus_order (b : Nat) (f : BusRt → BusRt) : (m.modBus b f).order = m.order := rfl
@[simp] theorem Mach.modBus_ledger (b : Nat) (f : BusRt → BusRt) : (m.modBus b f).ledger = m.ledger := rfl
@[simp] theorem Mach.modBus_clusters (b : Nat) (f : BusRt → BusRt) : (m.modBus b f).clusters = m.clusters := rfl
@[simp] theorem Mach.modBus_heads (b : Nat) (f : BusRt → BusRt) : (m.modBus b f).heads = m.heads := rfl
@[simp] theorem Mach.modBus_net (b : Nat) (f : BusRt → BusRt) : (m.modBus b f).net = m.net := rfl
@[simp] theorem Mach.modBus_test (b : Nat) (f : BusRt → BusRt) : (m.modBus b f).test = m.test := rfl
@[simp] theorem Mach.modBus_an (b : Nat) (f : BusRt → BusRt) : (m.modBus b f).an = m.an := rfl
@[simp] theorem Mach.modBus_axes (b : Nat) (f : BusRt → BusRt) : (m.modBus b f).axes = m.axes := rfl
@[simp] theorem Mach.modBus_stations (b : Nat) (f : BusRt → BusRt) : (m.modBus b f).stations = m.stations := rfl
@[simp] theorem Mach.modBus_sl (b : Nat) (f : BusRt → BusRt) : (m.modBus b f).sl = m.sl := rfl
@[simp] theorem Mach.modBus_cams (b : Nat) (f : BusRt → BusRt) : (m.modBus b f).cams = m.cams := rfl
@[simp] theorem Mach.modBus_ctxs (b : Nat) (f : BusRt → BusRt) : (m.modBus b f).ctxs = m.ctxs := rfl
@[simp] theorem Mach.modBus_pipes (b : Nat) (f : BusRt → BusRt) : (m.modBus b f).pipes = m.pipes := rfl
@[simp] theorem Mach.modBus_insp (b : Nat) (f : BusRt → BusRt) : (m.modBus b f).insp = m.insp := rfl
@[simp] theorem Mach.modBus_calSets (b : Nat) (f : BusRt → BusRt) : (m.modBus b f).calSets = m.calSets := rfl
@[simp] theorem Mach.modBus_calFlash (b : Nat) (f : BusRt → BusRt) : (m.modBus b f).calFlash = m.calFlash := rfl
@[simp] theorem Mach.modBus_calStoring (b : Nat) (f : BusRt → BusRt) : (m.modBus b f).calStoring = m.calStoring := rfl
@[simp] theorem Mach.modBus_calResult (b : Nat) (f : BusRt → BusRt) : (m.modBus b f).calResult = m.calResult := rfl
@[simp] theorem Mach.modBus_badWords (b : Nat) (f : BusRt → BusRt) : (m.modBus b f).badWords = m.badWords := rfl
@[simp] theorem Mach.modBus_flash (b : Nat) (f : BusRt → BusRt) : (m.modBus b f).flash = m.flash := rfl
@[simp] theorem Mach.modBus_uarts (b : Nat) (f : BusRt → BusRt) : (m.modBus b f).uarts = m.uarts := rfl
@[simp] theorem Mach.modBus_cf1 (b : Nat) (f : BusRt → BusRt) : (m.modBus b f).cf1 = m.cf1 := rfl
@[simp] theorem Mach.modBus_dev (b : Nat) (f : BusRt → BusRt) : (m.modBus b f).dev = m.dev := rfl
@[simp] theorem Mach.modBus_out (b : Nat) (f : BusRt → BusRt) : (m.modBus b f).out = m.out := rfl
@[simp] theorem Mach.modBus_stores (b : Nat) (f : BusRt → BusRt) : (m.modBus b f).stores = m.stores := rfl
@[simp] theorem Mach.modBus_g (b : Nat) (f : BusRt → BusRt) (j : Nat) : (m.modBus b f).g j = m.g j := rfl
@[simp] theorem Mach.modBus_h (b : Nat) (f : BusRt → BusRt) (j : Nat) : (m.modBus b f).h j = m.h j := rfl

/-! ### modBlk -/

@[simp] theorem Mach.modBlk_variant (b : Nat) (f : FlashBlk → FlashBlk) : (m.modBlk b f).variant = m.variant := rfl
@[simp] theorem Mach.modBlk_dict (b : Nat) (f : FlashBlk → FlashBlk) : (m.modBlk b f).dict = m.dict := rfl
@[simp] theorem Mach.modBlk_held (b : Nat) (f : FlashBlk → FlashBlk) : (m.modBlk b f).held = m.held := rfl
@[simp] theorem Mach.modBlk_time (b : Nat) (f : FlashBlk → FlashBlk) : (m.modBlk b f).time = m.time := rfl
@[simp] theorem Mach.modBlk_fresh (b : Nat) (f : FlashBlk → FlashBlk) : (m.modBlk b f).fresh = m.fresh := rfl
@[simp] theorem Mach.modBlk_vmonLow (b : Nat) (f : FlashBlk → FlashBlk) : (m.modBlk b f).vmonLow = m.vmonLow := rfl
@[simp] theorem Mach.modBlk_prot (b : Nat) (f : FlashBlk → FlashBlk) : (m.modBlk b f).prot = m.prot := rfl
@[simp] theorem Mach.modBlk_sup (b : Nat) (f : FlashBlk → FlashBlk) : (m.modBlk b f).sup = m.sup := rfl
@[simp] theorem Mach.modBlk_ev (b : Nat) (f : FlashBlk → FlashBlk) : (m.modBlk b f).ev = m.ev := rfl
@[simp] theorem Mach.modBlk_items (b : Nat) (f : FlashBlk → FlashBlk) : (m.modBlk b f).items = m.items := rfl
@[simp] theorem Mach.modBlk_order (b : Nat) (f : FlashBlk → FlashBlk) : (m.modBlk b f).order = m.order := rfl
@[simp] theorem Mach.modBlk_ledger (b : Nat) (f : FlashBlk → FlashBlk) : (m.modBlk b f).ledger = m.ledger := rfl
@[simp] theorem Mach.modBlk_clusters (b : Nat) (f : FlashBlk → FlashBlk) : (m.modBlk b f).clusters = m.clusters := rfl
@[simp] theorem Mach.modBlk_heads (b : Nat) (f : FlashBlk → FlashBlk) : (m.modBlk b f).heads = m.heads := rfl
@[simp] theorem Mach.modBlk_net (b : Nat) (f : FlashBlk → FlashBlk) : (m.modBlk b f).net = m.net := rfl
@[simp] theorem Mach.modBlk_test (b : Nat) (f : FlashBlk → FlashBlk) : (m.modBlk b f).test = m.test := rfl
@[simp] theorem Mach.modBlk_an (b : Nat) (f : FlashBlk → FlashBlk) : (m.modBlk b f).an = m.an := rfl
@[simp] theorem Mach.modBlk_axes (b : Nat) (f : FlashBlk → FlashBlk) : (m.modBlk b f).axes = m.axes := rfl
@[simp] theorem Mach.modBlk_motion (b : Nat) (f : FlashBlk → FlashBlk) : (m.modBlk b f).motion = m.motion := rfl
@[simp] theorem Mach.modBlk_stations (b : Nat) (f : FlashBlk → FlashBlk) : (m.modBlk b f).stations = m.stations := rfl
@[simp] theorem Mach.modBlk_sl (b : Nat) (f : FlashBlk → FlashBlk) : (m.modBlk b f).sl = m.sl := rfl
@[simp] theorem Mach.modBlk_cams (b : Nat) (f : FlashBlk → FlashBlk) : (m.modBlk b f).cams = m.cams := rfl
@[simp] theorem Mach.modBlk_ctxs (b : Nat) (f : FlashBlk → FlashBlk) : (m.modBlk b f).ctxs = m.ctxs := rfl
@[simp] theorem Mach.modBlk_pipes (b : Nat) (f : FlashBlk → FlashBlk) : (m.modBlk b f).pipes = m.pipes := rfl
@[simp] theorem Mach.modBlk_insp (b : Nat) (f : FlashBlk → FlashBlk) : (m.modBlk b f).insp = m.insp := rfl
@[simp] theorem Mach.modBlk_calSets (b : Nat) (f : FlashBlk → FlashBlk) : (m.modBlk b f).calSets = m.calSets := rfl
@[simp] theorem Mach.modBlk_calFlash (b : Nat) (f : FlashBlk → FlashBlk) : (m.modBlk b f).calFlash = m.calFlash := rfl
@[simp] theorem Mach.modBlk_calStoring (b : Nat) (f : FlashBlk → FlashBlk) : (m.modBlk b f).calStoring = m.calStoring := rfl
@[simp] theorem Mach.modBlk_calResult (b : Nat) (f : FlashBlk → FlashBlk) : (m.modBlk b f).calResult = m.calResult := rfl
@[simp] theorem Mach.modBlk_badWords (b : Nat) (f : FlashBlk → FlashBlk) : (m.modBlk b f).badWords = m.badWords := rfl
@[simp] theorem Mach.modBlk_uarts (b : Nat) (f : FlashBlk → FlashBlk) : (m.modBlk b f).uarts = m.uarts := rfl
@[simp] theorem Mach.modBlk_cf1 (b : Nat) (f : FlashBlk → FlashBlk) : (m.modBlk b f).cf1 = m.cf1 := rfl
@[simp] theorem Mach.modBlk_dev (b : Nat) (f : FlashBlk → FlashBlk) : (m.modBlk b f).dev = m.dev := rfl
@[simp] theorem Mach.modBlk_out (b : Nat) (f : FlashBlk → FlashBlk) : (m.modBlk b f).out = m.out := rfl
@[simp] theorem Mach.modBlk_stores (b : Nat) (f : FlashBlk → FlashBlk) : (m.modBlk b f).stores = m.stores := rfl
@[simp] theorem Mach.modBlk_g (b : Nat) (f : FlashBlk → FlashBlk) (j : Nat) : (m.modBlk b f).g j = m.g j := rfl
@[simp] theorem Mach.modBlk_h (b : Nat) (f : FlashBlk → FlashBlk) (j : Nat) : (m.modBlk b f).h j = m.h j := rfl

/-! ### modNode -/

@[simp] theorem Mach.modNode_variant (n : Nat) (f : NodeRt → NodeRt) : (m.modNode n f).variant = m.variant := rfl
@[simp] theorem Mach.modNode_dict (n : Nat) (f : NodeRt → NodeRt) : (m.modNode n f).dict = m.dict := rfl
@[simp] theorem Mach.modNode_held (n : Nat) (f : NodeRt → NodeRt) : (m.modNode n f).held = m.held := rfl
@[simp] theorem Mach.modNode_time (n : Nat) (f : NodeRt → NodeRt) : (m.modNode n f).time = m.time := rfl
@[simp] theorem Mach.modNode_fresh (n : Nat) (f : NodeRt → NodeRt) : (m.modNode n f).fresh = m.fresh := rfl
@[simp] theorem Mach.modNode_vmonLow (n : Nat) (f : NodeRt → NodeRt) : (m.modNode n f).vmonLow = m.vmonLow := rfl
@[simp] theorem Mach.modNode_prot (n : Nat) (f : NodeRt → NodeRt) : (m.modNode n f).prot = m.prot := rfl
@[simp] theorem Mach.modNode_sup (n : Nat) (f : NodeRt → NodeRt) : (m.modNode n f).sup = m.sup := rfl
@[simp] theorem Mach.modNode_ev (n : Nat) (f : NodeRt → NodeRt) : (m.modNode n f).ev = m.ev := rfl
@[simp] theorem Mach.modNode_items (n : Nat) (f : NodeRt → NodeRt) : (m.modNode n f).items = m.items := rfl
@[simp] theorem Mach.modNode_order (n : Nat) (f : NodeRt → NodeRt) : (m.modNode n f).order = m.order := rfl
@[simp] theorem Mach.modNode_ledger (n : Nat) (f : NodeRt → NodeRt) : (m.modNode n f).ledger = m.ledger := rfl
@[simp] theorem Mach.modNode_clusters (n : Nat) (f : NodeRt → NodeRt) : (m.modNode n f).clusters = m.clusters := rfl
@[simp] theorem Mach.modNode_heads (n : Nat) (f : NodeRt → NodeRt) : (m.modNode n f).heads = m.heads := rfl
@[simp] theorem Mach.modNode_net (n : Nat) (f : NodeRt → NodeRt) : (m.modNode n f).net = m.net := rfl
@[simp] theorem Mach.modNode_test (n : Nat) (f : NodeRt → NodeRt) : (m.modNode n f).test = m.test := rfl
@[simp] theorem Mach.modNode_an (n : Nat) (f : NodeRt → NodeRt) : (m.modNode n f).an = m.an := rfl
@[simp] theorem Mach.modNode_axes (n : Nat) (f : NodeRt → NodeRt) : (m.modNode n f).axes = m.axes := rfl
@[simp] theorem Mach.modNode_motion (n : Nat) (f : NodeRt → NodeRt) : (m.modNode n f).motion = m.motion := rfl
@[simp] theorem Mach.modNode_stations (n : Nat) (f : NodeRt → NodeRt) : (m.modNode n f).stations = m.stations := rfl
@[simp] theorem Mach.modNode_sl (n : Nat) (f : NodeRt → NodeRt) : (m.modNode n f).sl = m.sl := rfl
@[simp] theorem Mach.modNode_cams (n : Nat) (f : NodeRt → NodeRt) : (m.modNode n f).cams = m.cams := rfl
@[simp] theorem Mach.modNode_ctxs (n : Nat) (f : NodeRt → NodeRt) : (m.modNode n f).ctxs = m.ctxs := rfl
@[simp] theorem Mach.modNode_pipes (n : Nat) (f : NodeRt → NodeRt) : (m.modNode n f).pipes = m.pipes := rfl
@[simp] theorem Mach.modNode_insp (n : Nat) (f : NodeRt → NodeRt) : (m.modNode n f).insp = m.insp := rfl
@[simp] theorem Mach.modNode_calSets (n : Nat) (f : NodeRt → NodeRt) : (m.modNode n f).calSets = m.calSets := rfl
@[simp] theorem Mach.modNode_calFlash (n : Nat) (f : NodeRt → NodeRt) : (m.modNode n f).calFlash = m.calFlash := rfl
@[simp] theorem Mach.modNode_calStoring (n : Nat) (f : NodeRt → NodeRt) : (m.modNode n f).calStoring = m.calStoring := rfl
@[simp] theorem Mach.modNode_calResult (n : Nat) (f : NodeRt → NodeRt) : (m.modNode n f).calResult = m.calResult := rfl
@[simp] theorem Mach.modNode_badWords (n : Nat) (f : NodeRt → NodeRt) : (m.modNode n f).badWords = m.badWords := rfl
@[simp] theorem Mach.modNode_flash (n : Nat) (f : NodeRt → NodeRt) : (m.modNode n f).flash = m.flash := rfl
@[simp] theorem Mach.modNode_uarts (n : Nat) (f : NodeRt → NodeRt) : (m.modNode n f).uarts = m.uarts := rfl
@[simp] theorem Mach.modNode_dev (n : Nat) (f : NodeRt → NodeRt) : (m.modNode n f).dev = m.dev := rfl
@[simp] theorem Mach.modNode_out (n : Nat) (f : NodeRt → NodeRt) : (m.modNode n f).out = m.out := rfl
@[simp] theorem Mach.modNode_stores (n : Nat) (f : NodeRt → NodeRt) : (m.modNode n f).stores = m.stores := rfl
@[simp] theorem Mach.modNode_g (n : Nat) (f : NodeRt → NodeRt) (j : Nat) : (m.modNode n f).g j = m.g j := rfl
@[simp] theorem Mach.modNode_h (n : Nat) (f : NodeRt → NodeRt) (j : Nat) : (m.modNode n f).h j = m.h j := rfl

/-! ### Object values after a write -/

/-- A read of an object after a write of it gives the value written. -/
@[simp] theorem Mach.put_g_same (k v : Nat) : (m.put k v).g k = v := Store.get_put_same objDefault k v m.dict

/-- A write of an object leaves the others as they were. -/
theorem Mach.put_g_other {j k : Nat} (h : j ≠ k) (v : Nat) : (m.put k v).g j = m.g j :=
  Store.get_put_other objDefault h v m.dict

theorem Mach.put_g (j k v : Nat) : (m.put k v).g j = if j = k then v else m.g j := Store.get_put objDefault j k v m.dict

@[simp] theorem Mach.puti_g_same (w k : Nat) (v : Int) : (m.puti w k v).g k = ofInt w v := Mach.put_g_same m k _
theorem Mach.puti_g_other {j k : Nat} (h : j ≠ k) (w : Nat) (v : Int) : (m.puti w k v).g j = m.g j := Mach.put_g_other m h _

@[simp] theorem Mach.count_g_same (k n : Nat) : (m.count k n).g k = (m.g k + n) % 2 ^ 32 := Mach.put_g_same m k _
theorem Mach.count_g_other {j k : Nat} (h : j ≠ k) (n : Nat) : (m.count k n).g j = m.g j := Mach.put_g_other m h _

/-! ### puts -/

/-- What a list of writes keeps is what each write keeps. -/
theorem Mach.puts_keeps {α : Type} (f : Mach → α) (hf : ∀ (m : Mach) (k v : Nat), f (m.put k v) = f m) (l : List (Nat × Nat)) :
    ∀ m : Mach, f (m.puts l) = f m := by
  induction l with
  | nil => intro m; rfl
  | cons p l ih => intro m; exact (ih (m.put p.1 p.2)).trans (hf m p.1 p.2)

@[simp] theorem Mach.puts_variant (l : List (Nat × Nat)) : (m.puts l).variant = m.variant := Mach.puts_keeps (·.variant) (fun _ _ _ => rfl) l m
@[simp] theorem Mach.puts_held (l : List (Nat × Nat)) : (m.puts l).held = m.held := Mach.puts_keeps (·.held) (fun _ _ _ => rfl) l m
@[simp] theorem Mach.puts_time (l : List (Nat × Nat)) : (m.puts l).time = m.time := Mach.puts_keeps (·.time) (fun _ _ _ => rfl) l m
@[simp] theorem Mach.puts_fresh (l : List (Nat × Nat)) : (m.puts l).fresh = m.fresh := Mach.puts_keeps (·.fresh) (fun _ _ _ => rfl) l m
@[simp] theorem Mach.puts_vmonLow (l : List (Nat × Nat)) : (m.puts l).vmonLow = m.vmonLow := Mach.puts_keeps (·.vmonLow) (fun _ _ _ => rfl) l m
@[simp] theorem Mach.puts_prot (l : List (Nat × Nat)) : (m.puts l).prot = m.prot := Mach.puts_keeps (·.prot) (fun _ _ _ => rfl) l m
@[simp] theorem Mach.puts_sup (l : List (Nat × Nat)) : (m.puts l).sup = m.sup := Mach.puts_keeps (·.sup) (fun _ _ _ => rfl) l m
@[simp] theorem Mach.puts_ev (l : List (Nat × Nat)) : (m.puts l).ev = m.ev := Mach.puts_keeps (·.ev) (fun _ _ _ => rfl) l m
@[simp] theorem Mach.puts_items (l : List (Nat × Nat)) : (m.puts l).items = m.items := Mach.puts_keeps (·.items) (fun _ _ _ => rfl) l m
@[simp] theorem Mach.puts_order (l : List (Nat × Nat)) : (m.puts l).order = m.order := Mach.puts_keeps (·.order) (fun _ _ _ => rfl) l m
@[simp] theorem Mach.puts_ledger (l : List (Nat × Nat)) : (m.puts l).ledger = m.ledger := Mach.puts_keeps (·.ledger) (fun _ _ _ => rfl) l m
@[simp] theorem Mach.puts_clusters (l : List (Nat × Nat)) : (m.puts l).clusters = m.clusters := Mach.puts_keeps (·.clusters) (fun _ _ _ => rfl) l m
@[simp] theorem Mach.puts_heads (l : List (Nat × Nat)) : (m.puts l).heads = m.heads := Mach.puts_keeps (·.heads) (fun _ _ _ => rfl) l m
@[simp] theorem Mach.puts_net (l : List (Nat × Nat)) : (m.puts l).net = m.net := Mach.puts_keeps (·.net) (fun _ _ _ => rfl) l m
@[simp] theorem Mach.puts_test (l : List (Nat × Nat)) : (m.puts l).test = m.test := Mach.puts_keeps (·.test) (fun _ _ _ => rfl) l m
@[simp] theorem Mach.puts_an (l : List (Nat × Nat)) : (m.puts l).an = m.an := Mach.puts_keeps (·.an) (fun _ _ _ => rfl) l m
@[simp] theorem Mach.puts_axes (l : List (Nat × Nat)) : (m.puts l).axes = m.axes := Mach.puts_keeps (·.axes) (fun _ _ _ => rfl) l m
@[simp] theorem Mach.puts_motion (l : List (Nat × Nat)) : (m.puts l).motion = m.motion := Mach.puts_keeps (·.motion) (fun _ _ _ => rfl) l m
@[simp] theorem Mach.puts_stations (l : List (Nat × Nat)) : (m.puts l).stations = m.stations := Mach.puts_keeps (·.stations) (fun _ _ _ => rfl) l m
@[simp] theorem Mach.puts_sl (l : List (Nat × Nat)) : (m.puts l).sl = m.sl := Mach.puts_keeps (·.sl) (fun _ _ _ => rfl) l m
@[simp] theorem Mach.puts_cams (l : List (Nat × Nat)) : (m.puts l).cams = m.cams := Mach.puts_keeps (·.cams) (fun _ _ _ => rfl) l m
@[simp] theorem Mach.puts_ctxs (l : List (Nat × Nat)) : (m.puts l).ctxs = m.ctxs := Mach.puts_keeps (·.ctxs) (fun _ _ _ => rfl) l m
@[simp] theorem Mach.puts_pipes (l : List (Nat × Nat)) : (m.puts l).pipes = m.pipes := Mach.puts_keeps (·.pipes) (fun _ _ _ => rfl) l m
@[simp] theorem Mach.puts_insp (l : List (Nat × Nat)) : (m.puts l).insp = m.insp := Mach.puts_keeps (·.insp) (fun _ _ _ => rfl) l m
@[simp] theorem Mach.puts_calSets (l : List (Nat × Nat)) : (m.puts l).calSets = m.calSets := Mach.puts_keeps (·.calSets) (fun _ _ _ => rfl) l m
@[simp] theorem Mach.puts_calFlash (l : List (Nat × Nat)) : (m.puts l).calFlash = m.calFlash := Mach.puts_keeps (·.calFlash) (fun _ _ _ => rfl) l m
@[simp] theorem Mach.puts_calStoring (l : List (Nat × Nat)) : (m.puts l).calStoring = m.calStoring := Mach.puts_keeps (·.calStoring) (fun _ _ _ => rfl) l m
@[simp] theorem Mach.puts_calResult (l : List (Nat × Nat)) : (m.puts l).calResult = m.calResult := Mach.puts_keeps (·.calResult) (fun _ _ _ => rfl) l m
@[simp] theorem Mach.puts_badWords (l : List (Nat × Nat)) : (m.puts l).badWords = m.badWords := Mach.puts_keeps (·.badWords) (fun _ _ _ => rfl) l m
@[simp] theorem Mach.puts_flash (l : List (Nat × Nat)) : (m.puts l).flash = m.flash := Mach.puts_keeps (·.flash) (fun _ _ _ => rfl) l m
@[simp] theorem Mach.puts_uarts (l : List (Nat × Nat)) : (m.puts l).uarts = m.uarts := Mach.puts_keeps (·.uarts) (fun _ _ _ => rfl) l m
@[simp] theorem Mach.puts_cf1 (l : List (Nat × Nat)) : (m.puts l).cf1 = m.cf1 := Mach.puts_keeps (·.cf1) (fun _ _ _ => rfl) l m
@[simp] theorem Mach.puts_dev (l : List (Nat × Nat)) : (m.puts l).dev = m.dev := Mach.puts_keeps (·.dev) (fun _ _ _ => rfl) l m
@[simp] theorem Mach.puts_out (l : List (Nat × Nat)) : (m.puts l).out = m.out := Mach.puts_keeps (·.out) (fun _ _ _ => rfl) l m
@[simp] theorem Mach.puts_stores (l : List (Nat × Nat)) : (m.puts l).stores = m.stores := Mach.puts_keeps (·.stores) (fun _ _ _ => rfl) l m
@[simp] theorem Mach.puts_h (l : List (Nat × Nat)) (j : Nat) : (m.puts l).h j = m.h j := Mach.puts_keeps (·.h j) (fun _ _ _ => rfl) l m

/-- Writes leave an object that none of them names as it was. -/
theorem Mach.puts_g_other (j : Nat) (l : List (Nat × Nat)) (h : ∀ p ∈ l, p.1 ≠ j) : (m.puts l).g j = m.g j := by
  induction l generalizing m with
  | nil => rfl
  | cons p l ih =>
    show ((m.put p.1 p.2).puts l).g j = _
    rw [ih _ (fun x hx => h x (List.mem_cons_of_mem _ hx)), Mach.put_g_other m (Ne.symm (h p List.mem_cons_self))]

end Sys2Proof.Machine
end

