-- ==== Sys2Proof/Laws/Ops.lean ====
section
/-! SUPPORT. What the shared operations can do, said once: recording an event, changing a readiness, running a meaning, and an
access that is answered. -/

namespace Sys2Proof.Machine

open Sys2Proof

/-! ### Recording an event -/

/-- m' is m after something was recorded for its consumers: besides the records, only EV_LOG_DROPPED, the outputs, the EMCY
inhibit, the moment of the last dropped record and the deferred events may differ. -/
structure Noted (m m' : Mach) : Prop where
  rest : m' = { m with
    dict := m'.dict, ev := m'.ev, out := m'.out, net := { m.net with emcyUntil := m'.net.emcyUntil }
    flash := { m.flash with logDropAt := m'.flash.logDropAt }, dev := { m.dev with deferred := m'.dev.deferred } }
  vals : ∀ j, j ≠ K.EV_LOG_DROPPED → m'.g j = m.g j

theorem Noted.refl (m : Mach) : Noted m m := ⟨rfl, fun _ _ => rfl⟩

theorem Noted.trans {a b c : Mach} (h : Noted a b) (k : Noted b c) : Noted a c := by
  refine ⟨?_, fun j hj => (k.vals j hj).trans (h.vals j hj)⟩
  rw [k.rest, h.rest]

theorem Noted.foldl {α : Type} (f : Mach → α → Mach) (hf : ∀ m a, Noted m (f m a)) (l : List α) (m : Mach) :
    Noted m (l.foldl f m) := by
  induction l generalizing m with
  | nil => exact Noted.refl m
  | cons a l ih => exact (hf m a).trans (ih (f m a))

theorem Noted.ite {c : Prop} [Decidable c] {m a b : Mach} (ha : Noted m a) (hb : Noted m b) : Noted m (if c then a else b) := by
  split
  · exact ha
  · exact hb

theorem noted_emit (m : Mach) (o : Out) : Noted m (m.emit o) := ⟨rfl, fun _ _ => rfl⟩

theorem noted_ev (m : Mach) (e : EvState) : Noted m { m with ev := e } := ⟨rfl, fun _ _ => rfl⟩

theorem noted_dropped (m : Mach) : Noted m (m.count K.EV_LOG_DROPPED) :=
  ⟨rfl, fun _ hj => Mach.count_g_other m hj 1⟩

theorem noted_sendUrgent (m : Mach) (slot : Nat) : Noted m (m.sendUrgent slot) := by
  unfold Mach.sendUrgent
  exact Noted.ite (Noted.refl m) ⟨rfl, fun _ _ => rfl⟩

theorem noted_sendGathered (m : Mach) (slot : Nat) : Noted m (m.sendGathered slot) := by
  unfold Mach.sendGathered
  exact Noted.ite ⟨rfl, fun _ _ => rfl⟩ ((noted_ev m _).trans (Noted.foldl _ (fun m _ => noted_emit m _) _ _))

theorem noted_sendEmcy (m : Mach) : Noted m m.sendEmcy := by
  unfold Mach.sendEmcy
  refine Noted.ite (Noted.refl m) (Noted.foldl _ (fun m r => ?_) _ _)
  exact Noted.ite (Noted.refl m) ⟨rfl, fun _ _ => rfl⟩

theorem noted_pushSlot (m : Mach) (slot : Nat) (r : EvRec) : Noted m (m.pushSlot slot r) := by
  unfold Mach.pushSlot
  split
  · exact Noted.refl m
  · exact Noted.ite (Noted.refl m) (Noted.ite
      (((noted_ev m _).trans (noted_sendUrgent _ slot)).trans (noted_sendGathered _ slot))
      ((noted_ev m _).trans (noted_sendUrgent _ slot)))

theorem noted_record (m : Mach) (code : Nat) (data : List Nat) (time : Nat) : Noted m (m.record code data time).1 := by
  unfold Mach.record
  refine Noted.trans ?_ (noted_sendEmcy _)
  refine Noted.trans ?_ (Noted.foldl _ (fun m i => noted_pushSlot m i _) _ _)
  exact Noted.ite ((noted_ev m _).trans (noted_dropped _)) (noted_ev m _)

theorem noted_dropAt (m : Mach) (x : Option Nat) : Noted m { m with flash := { m.flash with logDropAt := x } } :=
  ⟨rfl, fun _ _ => rfl⟩

/-- The records of the consumers that lost one. -/
theorem noted_lost (m : Mach) (f : Mach → Nat → Nat) (lost : List Nat) :
    Noted m (lost.foldl (fun m c => (m.record 0x2F87 [c, f m c] m.time).1) m) :=
  Noted.foldl _ (fun m c => noted_record m 0x2F87 [c, f m c] m.time) lost m

/-- The record of dropped log records. -/
theorem noted_lastDrop (m : Mach) (b : Bool) (x : Nat) :
    Noted m (if b && m.flash.logDropAt != some x then
      ({ m with flash := { m.flash with logDropAt := some x } }.record 0x300A [m.g K.EV_LOG_DROPPED] m.time).1 else m) :=
  Noted.ite ((noted_dropAt m _).trans (noted_record _ _ _ _)) (Noted.refl m)

theorem noted_raiseAt (m : Mach) (code : Nat) (data : List Nat) (time : Nat) : Noted m (m.raiseAt code data time) := by
  unfold Mach.raiseAt
  obtain ⟨m1, lost, drop, e⟩ : ∃ a b c, m.record code data time = (a, b, c) := ⟨_, _, _, rfl⟩
  have h : Noted m m1 := by simpa only [e] using noted_record m code data time
  rw [e]
  exact (h.trans (noted_lost m1 (fun m c => if c = 0 then m.ev.cf0.lost else (m.ev.slots.getD (c - 1) {}).lost) lost)).trans
    (noted_lastDrop _ drop _)

/-- Everything raising an event can do. -/
theorem raise_only (m : Mach) (code : Nat) (data : List Nat) : Noted m (m.raise code data) := by
  unfold Mach.raise
  exact Noted.ite ⟨rfl, fun _ _ => rfl⟩ (noted_raiseAt m _ _ _)

theorem raiseIf_only (m : Mach) (b : Bool) (code : Nat) (data : List Nat) : Noted m (m.raiseIf b code data) := by
  unfold Mach.raiseIf
  exact Noted.ite (raise_only m code data) (Noted.refl m)

/-- Raising an event leaves every object but EV_LOG_DROPPED as it was. -/
theorem raise_g (m : Mach) (code : Nat) (data : List Nat) {j : Nat} (h : j ≠ K.EV_LOG_DROPPED) :
    (m.raise code data).g j = m.g j := (raise_only m code data).vals j h

/-! What an event leaves as it was, field by field. -/

theorem Noted.variant {m m' : Mach} (h : Noted m m') : m'.variant = m.variant := by rw [h.rest]
theorem Noted.held {m m' : Mach} (h : Noted m m') : m'.held = m.held := by rw [h.rest]
theorem Noted.time {m m' : Mach} (h : Noted m m') : m'.time = m.time := by rw [h.rest]
theorem Noted.fresh {m m' : Mach} (h : Noted m m') : m'.fresh = m.fresh := by rw [h.rest]
theorem Noted.vmonLow {m m' : Mach} (h : Noted m m') : m'.vmonLow = m.vmonLow := by rw [h.rest]
theorem Noted.prot {m m' : Mach} (h : Noted m m') : m'.prot = m.prot := by rw [h.rest]
theorem Noted.sup {m m' : Mach} (h : Noted m m') : m'.sup = m.sup := by rw [h.rest]
theorem Noted.items {m m' : Mach} (h : Noted m m') : m'.items = m.items := by rw [h.rest]
theorem Noted.order {m m' : Mach} (h : Noted m m') : m'.order = m.order := by rw [h.rest]
theorem Noted.ledger {m m' : Mach} (h : Noted m m') : m'.ledger = m.ledger := by rw [h.rest]
theorem Noted.clusters {m m' : Mach} (h : Noted m m') : m'.clusters = m.clusters := by rw [h.rest]
theorem Noted.heads {m m' : Mach} (h : Noted m m') : m'.heads = m.heads := by rw [h.rest]
theorem Noted.test {m m' : Mach} (h : Noted m m') : m'.test = m.test := by rw [h.rest]
theorem Noted.an {m m' : Mach} (h : Noted m m') : m'.an = m.an := by rw [h.rest]
theorem Noted.axes {m m' : Mach} (h : Noted m m') : m'.axes = m.axes := by rw [h.rest]
theorem Noted.motion {m m' : Mach} (h : Noted m m') : m'.motion = m.motion := by rw [h.rest]
theorem Noted.stations {m m' : Mach} (h : Noted m m') : m'.stations = m.stations := by rw [h.rest]
theorem Noted.sl {m m' : Mach} (h : Noted m m') : m'.sl = m.sl := by rw [h.rest]
theorem Noted.cams {m m' : Mach} (h : Noted m m') : m'.cams = m.cams := by rw [h.rest]
theorem Noted.ctxs {m m' : Mach} (h : Noted m m') : m'.ctxs = m.ctxs := by rw [h.rest]
theorem Noted.pipes {m m' : Mach} (h : Noted m m') : m'.pipes = m.pipes := by rw [h.rest]
theorem Noted.insp {m m' : Mach} (h : Noted m m') : m'.insp = m.insp := by rw [h.rest]
theorem Noted.calSets {m m' : Mach} (h : Noted m m') : m'.calSets = m.calSets := by rw [h.rest]
theorem Noted.calFlash {m m' : Mach} (h : Noted m m') : m'.calFlash = m.calFlash := by rw [h.rest]
theorem Noted.calStoring {m m' : Mach} (h : Noted m m') : m'.calStoring = m.calStoring := by rw [h.rest]
theorem Noted.calResult {m m' : Mach} (h : Noted m m') : m'.calResult = m.calResult := by rw [h.rest]
theorem Noted.badWords {m m' : Mach} (h : Noted m m') : m'.badWords = m.badWords := by rw [h.rest]
theorem Noted.uarts {m m' : Mach} (h : Noted m m') : m'.uarts = m.uarts := by rw [h.rest]
theorem Noted.cf1 {m m' : Mach} (h : Noted m m') : m'.cf1 = m.cf1 := by rw [h.rest]
theorem Noted.stores {m m' : Mach} (h : Noted m m') : m'.stores = m.stores := by rw [h.rest]

@[simp] theorem raise_variant (m : Mach) (code : Nat) (data : List Nat) : (m.raise code data).variant = m.variant := (raise_only m code data).variant
@[simp] theorem raise_held (m : Mach) (code : Nat) (data : List Nat) : (m.raise code data).held = m.held := (raise_only m code data).held
@[simp] theorem raise_time (m : Mach) (code : Nat) (data : List Nat) : (m.raise code data).time = m.time := (raise_only m code data).time
@[simp] theorem raise_fresh (m : Mach) (code : Nat) (data : List Nat) : (m.raise code data).fresh = m.fresh := (raise_only m code data).fresh
@[simp] theorem raise_vmonLow (m : Mach) (code : Nat) (data : List Nat) : (m.raise code data).vmonLow = m.vmonLow := (raise_only m code data).vmonLow
@[simp] theorem raise_prot (m : Mach) (code : Nat) (data : List Nat) : (m.raise code data).prot = m.prot := (raise_only m code data).prot
@[simp] theorem raise_sup (m : Mach) (code : Nat) (data : List Nat) : (m.raise code data).sup = m.sup := (raise_only m code data).sup
@[simp] theorem raise_items (m : Mach) (code : Nat) (data : List Nat) : (m.raise code data).items = m.items := (raise_only m code data).items
@[simp] theorem raise_order (m : Mach) (code : Nat) (data : List Nat) : (m.raise code data).order = m.order := (raise_only m code data).order
@[simp] theorem raise_ledger (m : Mach) (code : Nat) (data : List Nat) : (m.raise code data).ledger = m.ledger := (raise_only m code data).ledger
@[simp] theorem raise_clusters (m : Mach) (code : Nat) (data : List Nat) : (m.raise code data).clusters = m.clusters := (raise_only m code data).clusters
@[simp] theorem raise_heads (m : Mach) (code : Nat) (data : List Nat) : (m.raise code data).heads = m.heads := (raise_only m code data).heads
@[simp] theorem raise_test (m : Mach) (code : Nat) (data : List Nat) : (m.raise code data).test = m.test := (raise_only m code data).test
@[simp] theorem raise_an (m : Mach) (code : Nat) (data : List Nat) : (m.raise code data).an = m.an := (raise_only m code data).an
@[simp] theorem raise_axes (m : Mach) (code : Nat) (data : List Nat) : (m.raise code data).axes = m.axes := (raise_only m code data).axes
@[simp] theorem raise_motion (m : Mach) (code : Nat) (data : List Nat) : (m.raise code data).motion = m.motion := (raise_only m code data).motion
@[simp] theorem raise_stations (m : Mach) (code : Nat) (data : List Nat) : (m.raise code data).stations = m.stations := (raise_only m code data).stations
@[simp] theorem raise_sl (m : Mach) (code : Nat) (data : List Nat) : (m.raise code data).sl = m.sl := (raise_only m code data).sl
@[simp] theorem raise_cams (m : Mach) (code : Nat) (data : List Nat) : (m.raise code data).cams = m.cams := (raise_only m code data).cams
@[simp] theorem raise_ctxs (m : Mach) (code : Nat) (data : List Nat) : (m.raise code data).ctxs = m.ctxs := (raise_only m code data).ctxs
@[simp] theorem raise_pipes (m : Mach) (code : Nat) (data : List Nat) : (m.raise code data).pipes = m.pipes := (raise_only m code data).pipes
@[simp] theorem raise_insp (m : Mach) (code : Nat) (data : List Nat) : (m.raise code data).insp = m.insp := (raise_only m code data).insp
@[simp] theorem raise_calSets (m : Mach) (code : Nat) (data : List Nat) : (m.raise code data).calSets = m.calSets := (raise_only m code data).calSets
@[simp] theorem raise_calFlash (m : Mach) (code : Nat) (data : List Nat) : (m.raise code data).calFlash = m.calFlash := (raise_only m code data).calFlash
@[simp] theorem raise_calStoring (m : Mach) (code : Nat) (data : List Nat) : (m.raise code data).calStoring = m.calStoring := (raise_only m code data).calStoring
@[simp] theorem raise_calResult (m : Mach) (code : Nat) (data : List Nat) : (m.raise code data).calResult = m.calResult := (raise_only m code data).calResult
@[simp] theorem raise_badWords (m : Mach) (code : Nat) (data : List Nat) : (m.raise code data).badWords = m.badWords := (raise_only m code data).badWords
@[simp] theorem raise_uarts (m : Mach) (code : Nat) (data : List Nat) : (m.raise code data).uarts = m.uarts := (raise_only m code data).uarts
@[simp] theorem raise_cf1 (m : Mach) (code : Nat) (data : List Nat) : (m.raise code data).cf1 = m.cf1 := (raise_only m code data).cf1
@[simp] theorem raise_stores (m : Mach) (code : Nat) (data : List Nat) : (m.raise code data).stores = m.stores := (raise_only m code data).stores

theorem Noted.h {m m' : Mach} (h : Noted m m') (j : Nat) : m'.h j = m.h j := by unfold Mach.h; rw [h.held]
@[simp] theorem raise_h (m : Mach) (code : Nat) (data : List Nat) (j : Nat) : (m.raise code data).h j = m.h j := (raise_only m code data).h j
@[simp] theorem raise_sessions (m : Mach) (code : Nat) (data : List Nat) : (m.raise code data).net.sessions = m.net.sessions := by
  rw [(raise_only m code data).rest]
@[simp] theorem raise_nmt (m : Mach) (code : Nat) (data : List Nat) : (m.raise code data).net.nmt = m.net.nmt := by
  rw [(raise_only m code data).rest]
@[simp] theorem raise_warnAt (m : Mach) (code : Nat) (data : List Nat) : (m.raise code data).dev.warnAt = m.dev.warnAt := by
  rw [(raise_only m code data).rest]

/-! ### Running a meaning -/

/-- A run is the settling of what its meaning leaves. -/
theorem done_quiet (s : State) (f : Mem → Mach → Mach) : done s f = .next (s.settle (f s.mem s.quiet)) := rfl

/-! ### Accesses -/

/-- A value whose reserved fields are 0 is taken as written. -/
theorem taken_zero {m : Mach} {k v : Nat} {t : ObjTy} (h : v &&& m.reservedBits k v = 0) : m.taken k t v = (v, m) := by
  unfold Mach.taken
  rw [if_pos h]

/-- A write that passes its card is judged by its effect. -/
theorem judgeWrite_admits {s : State} {k : Nat} {bs : List Byte} {v : Nat} (eff : Nat → Mach → WriteResult) (h : s.admits k bs = some v) :
    s.quiet.judgeWrite k bs eff = eff v s.quiet := by
  unfold State.admits at h
  split at h
  · rename_i hr
    obtain ⟨ho, hs⟩ := hr
    cases hrow : objRow k with
    | none => rw [hrow] at h; cases h
    | some r =>
      rw [hrow] at h
      simp only at h
      split at h
      · rename_i hj
        obtain rfl : r.ty.encode bs = v := Option.some.inj h
        have ho' : s.quiet.reach (urgentKey k) = .open_ := ho
        have hs' : s.quiet.objStatus k = .ok := hs
        unfold Mach.judgeWrite
        rw [ho', hs', hrow]
        simp only [hj.1]
        have ht : s.quiet.taken k r.ty (r.ty.encode bs) = (r.ty.encode bs, s.quiet) := taken_zero hj.2
        rw [ht]
      · cases h
  · cases h

theorem reach_admits {s : State} {k : Nat} {bs : List Byte} {v : Nat} (h : s.admits k bs = some v) :
    s.quiet.reach (urgentKey k) = .open_ := by
  unfold State.admits at h
  split at h
  · rename_i hr; exact hr.1
  · cases h

/-- What a write of a command of its own leaves that passes its card, whatever its effect answers. -/
theorem hostWrite_judged {s : State} {k : Nat} {bs : List Byte} {v : Nat} {eff : Nat → Mach → WriteResult} {m' : Mach} {st : Status}
    (h : s.admits k bs = some v) (he : eff v s.quiet = (m', st)) :
    s.quiet.hostWrite k bs eff = { m' with out := if answersLate k bs then m'.out ++ [.reply st (m'.writeAnswer k bs)]
                                                  else .reply st (m'.writeAnswer k bs) :: m'.out } := by
  unfold Mach.hostWrite
  rw [reach_admits h, if_neg (by decide), judgeWrite_admits eff h, he]
  rfl

/-- What an accepted write of a command of its own leaves. -/
theorem hostWrite_answered {s : State} {k : Nat} {bs : List Byte} {v : Nat} {eff : Nat → Mach → WriteResult} {m' : Mach}
    (h : s.admits k bs = some v) (he : eff v s.quiet = (m', .ok)) :
    s.settle (s.quiet.hostWrite k bs eff) = s.answered k bs m' := by
  rw [hostWrite_judged h he]
  rfl

/-- What a read of a command of its own leaves. -/
theorem hostRead_shown {s : State} {k : Nat} {ty : ObjTy} {view : Mach → Nat} {eff : Mach → Mach} (h : s.reads k = some ty) :
    s.settle (s.quiet.hostRead k view eff) = s.shown ty (view s.quiet) (eff s.quiet) := by
  unfold State.reads at h
  split at h
  · rename_i hr
    obtain ⟨ho, hs⟩ := hr
    cases hrow : objRow k with
    | none => rw [hrow] at h; cases h
    | some r =>
      rw [hrow] at h
      simp only at h
      split at h
      · cases h
      · rename_i hacc
        obtain rfl : r.ty = ty := Option.some.inj h
        have ho' : s.quiet.reach false = .open_ := ho
        have hs' : s.quiet.objStatus k = .ok := hs
        have hw : s.quiet.judgeRead k view eff = (eff s.quiet, .ok, r.ty.decode (view s.quiet)) := by
          unfold Mach.judgeRead
          rw [ho', hs', hrow]
          simp only [if_neg hacc]
        unfold Mach.hostRead
        rw [ho', if_neg (by decide), hw]
        rfl
  · cases h

/-- A meaning whose effect on the machine it finds is known. -/
theorem done_run {s : State} {m m' : Mach} {f : Mem → Mach → Mach} (hq : s.quiet = m) (h : f s.mem m = m') :
    done s f = .next (s.settle m') := by
  subst hq
  subst h
  rfl

/-- A write command whose access passes its card and whose effect is known. -/
theorem done_write {s : State} {m m' : Mach} {k v : Nat} {bs : List Byte} {eff : Mem → Nat → Mach → WriteResult} (hq : s.quiet = m)
    (h : s.admits k bs = some v) (he : eff s.mem v m = (m', .ok)) :
    done s (fun x m => m.hostWrite k bs (eff x)) = .next (s.answered k bs m') := by
  subst hq
  exact congrArg Host.Outcome.next (hostWrite_answered h he)

/-- A read command whose access finds its sub-index. -/
theorem done_read {s : State} {m : Mach} {k : Nat} {ty : ObjTy} {view : Mach → Nat} {eff : Mach → Mach} (hq : s.quiet = m)
    (h : s.reads k = some ty) :
    done s (fun _ m => m.hostRead k view eff) = .next (s.shown ty (view m) (eff m)) := by
  subst hq
  exact congrArg Host.Outcome.next (hostRead_shown h)

/-- A settling without stores leaves memory and the machine. -/
theorem settle_nil {s : State} {m : Mach} (h : m.stores = []) : s.settle m = { s with m := m } := by
  have hb : List.filter (fun w => !(wholeWords []).contains w) m.badWords = m.badWords :=
    List.filter_eq_self.mpr (fun _ _ => rfl)
  have ht : m.markTouched = m.items := by unfold Mach.markTouched; rw [if_pos h]
  cases m
  simp only at h hb ht
  subst h
  simp only [State.settle, hb, ht]
  rfl

/-- A run of a meaning that stores nothing: memory stays, and the machine is what the meaning leaves. -/
theorem run_stores_nil (s : State) (f : Mem → Mach → Mach) (h : (f s.mem s.quiet).stores = []) :
    s.run f = { s with m := f s.mem s.quiet } := settle_nil h

end Sys2Proof.Machine
end

