-- ==== Sys2Proof/Laws/Steps.lean ====
section
/-! SUPPORT. What running a meaning and a loop over units can do: a meaning goes on and leaves the queue, and keeps device
memory canonical; a loop leaves what each of its steps leaves. -/

namespace Sys2Proof.Machine

open Sys2Proof

/-! ### Meanings -/

theorem done_goes (s : State) (f : Mem → Mach → Mach) : ∃ t, done s f = .next t ∧ t.pending = s.pending := ⟨_, rfl, rfl⟩

theorem sound_settle {s : State} (m : Mach) (h : s.mem.wf = true) : Sound (s.settle m) :=
  ⟨Store.wf_putAll _ _ _ h, rfl⟩

theorem done_sound {s t : State} {f : Mem → Mach → Mach} (h : Sound s) (e : done s f = .next t) : Sound t := by
  cases e
  exact sound_settle _ h.1

/-! ### Loops -/

theorem foldl_keeps {α β γ : Type} (g : β → γ) (f : β → α → β) (hf : ∀ m a, g (f m a) = g m) (l : List α) (m : β) : g (l.foldl f m) = g m := by
  induction l generalizing m with
  | nil => rfl
  | cons a l ih => rw [List.foldl_cons, ih, hf]

theorem ite_keeps {β γ : Type} (g : β → γ) {c : Prop} [Decidable c] {a b : β} {v : γ} (ha : g a = v) (hb : g b = v) :
    g (if c then a else b) = v := by
  split
  · exact ha
  · exact hb

theorem upto_id {σ : Type} (k : Nat) (s : σ) (f : σ → Nat → σ) (h : ∀ n, n < k → f s n = s) : upto k s f = s := by
  unfold upto
  have : ∀ l : List Nat, (∀ n, n ∈ l → n < k) → l.foldl f s = s := by
    intro l
    induction l with
    | nil => intro _; rfl
    | cons a l ih =>
      intro hl
      rw [List.foldl_cons, h a (hl a (List.mem_cons_self ..))]
      exact ih (fun n hn => hl n (List.mem_cons_of_mem _ hn))
  exact this _ (fun n hn => List.mem_range.mp hn)

theorem upto_one {σ : Type} (n : Nat) (s : σ) (f : σ → Nat → σ) (N : Nat) (h1 : ∀ k, k < N → k ≠ n → f s k = s)
    (h2 : ∀ k, k < N → k ≠ n → f (f s n) k = f s n) : upto N s f = if n < N then f s n else s := by
  unfold upto
  induction N with
  | zero => rfl
  | succ N ih =>
    rw [List.range_succ, List.foldl_append, ih (fun k hk => h1 k (by omega)) (fun k hk => h2 k (by omega))]
    simp only [List.foldl_cons, List.foldl_nil]
    by_cases hn : n < N
    · rw [if_pos hn, if_pos (by omega), h2 N (by omega) (by omega)]
    · rw [if_neg hn]
      by_cases he : n = N
      · subst he; rw [if_pos (by omega)]
      · rw [if_neg (by omega), h1 N (by omega) (by omega)]

theorem upto_at {σ : Type} (n k : Nat) (m r : σ) (f : σ → Nat → σ) (hk : k < n) (h1 : ∀ i, i < k → f m i = m) (h2 : f m k = r)
    (h3 : ∀ i, k < i → i < n → f r i = r) : upto n m f = r := by
  have key : ∀ j, j ≤ n → upto j m f = if k < j then r else m := by
    intro j
    induction j with
    | zero => intro _; simp [upto]
    | succ j ih =>
      intro hj
      have e : upto (j + 1) m f = f (upto j m f) j := by simp [upto, List.range_succ]
      rw [e, ih (by omega)]
      by_cases hc : k < j
      · rw [if_pos hc, if_pos (by omega)]; exact h3 j hc (by omega)
      · rw [if_neg hc]
        by_cases he : k = j
        · subst he; rw [if_pos (by omega)]; exact h2
        · rw [if_neg (by omega)]; exact h1 j (by omega)
  rw [key n (Nat.le_refl n), if_pos hk]

end Sys2Proof.Machine
end

