-- ==== Sys2Proof/Laws/Events.lean ====
section
/-! SUPPORT. Recording an event numbers it once and nothing it does after changes the number (R327). -/

namespace Sys2Proof.Machine

open Sys2Proof

theorem emcy_seq (m : Mach) : m.sendEmcy.ev.seq = m.ev.seq := by
  unfold Mach.sendEmcy
  refine ite_keeps (fun m : Mach => m.ev.seq) rfl (foldl_keeps (fun m : Mach => m.ev.seq) _ (fun m r => ?_) _ _)
  exact ite_keeps (fun m : Mach => m.ev.seq) rfl rfl

theorem sendUrgent_seq (m : Mach) (i : Nat) : (m.sendUrgent i).ev.seq = m.ev.seq := by
  unfold Mach.sendUrgent
  exact ite_keeps (fun m : Mach => m.ev.seq) rfl rfl

theorem sendGathered_seq (m : Mach) (i : Nat) : (m.sendGathered i).ev.seq = m.ev.seq := by
  unfold Mach.sendGathered
  exact ite_keeps (fun m : Mach => m.ev.seq) rfl
    ((foldl_keeps (fun m : Mach => m.ev.seq) (fun (m : Mach) (u : List Nat) => m.emit (.eventFrame (i + 1) u)) (fun m r => rfl) _ _).trans rfl)

theorem pushSlot_seq (m : Mach) (i : Nat) (r : EvRec) : (m.pushSlot i r).ev.seq = m.ev.seq := by
  unfold Mach.pushSlot
  split
  · rfl
  · refine ite_keeps (fun m : Mach => m.ev.seq) rfl (ite_keeps (fun m : Mach => m.ev.seq) ?_ ?_)
    · rw [sendGathered_seq, sendUrgent_seq]
    · rw [sendUrgent_seq]

theorem count_seq (m : Mach) (k : Nat) : (m.count k).ev = m.ev := rfl

theorem record_seq (m : Mach) (code : Nat) (data : List Nat) (time : Nat) : (m.record code data time).1.ev.seq = (m.ev.seq + 1) % 2 ^ 32 := by
  unfold Mach.record
  refine (emcy_seq _).trans ((foldl_keeps (fun m : Mach => m.ev.seq) _ (fun m i => pushSlot_seq m i _) _ _).trans ?_)
  exact ite_keeps (fun m : Mach => m.ev.seq) rfl rfl

end Sys2Proof.Machine
end

