-- ==== Sys2Proof/Laws/Fields.lean ====
section
/-! SUPPORT. Byte fields of a number below and above a power of 256, a field set to 0, and lists that are numbered or cut. -/

namespace Sys2Proof.Machine

open Sys2Proof

theorem fld_low {i k : Nat} (h : i < k) (lo z : Nat) : fld (lo + 256 ^ k * z) i 1 = fld lo i 1 := by
  unfold fld
  obtain ⟨d, rfl⟩ := Nat.exists_eq_add_of_lt h
  have : (256 : Nat) ^ (i + d + 1) * z = 256 ^ i * (256 * (256 ^ d * z)) := by ring
  rw [this, Nat.add_mul_div_left _ _ (by positivity), Nat.pow_one, Nat.add_mul_mod_self_left]

theorem fld_high {i k : Nat} (h : k ≤ i) {lo : Nat} (hl : lo < 256 ^ k) (z : Nat) : fld (lo + 256 ^ k * z) i 1 = fld z (i - k) 1 := by
  unfold fld
  obtain ⟨d, rfl⟩ := Nat.exists_eq_add_of_le h
  rw [Nat.pow_add, ← Nat.div_div_eq_div_mul, Nat.add_mul_div_left _ _ (by positivity), Nat.div_eq_of_lt hl, Nat.zero_add,
    Nat.add_sub_cancel_left]

theorem setFld_zero (x o n : Nat) : fld (setFld x o n 0) o n = 0 ∧ ∀ i, i < o ∨ o + n ≤ i → fld (setFld x o n 0) i 1 = fld x i 1 := by
  have h1 : x = x % 256 ^ o + 256 ^ o * (x / 256 ^ o) := (Nat.mod_add_div _ _).symm
  have h2 : x / 256 ^ o = (x / 256 ^ o) % 256 ^ n + 256 ^ n * (x / 256 ^ o / 256 ^ n) := (Nat.mod_add_div _ _).symm
  have hv : setFld x o n 0 = x % 256 ^ o + 256 ^ o * (256 ^ n * (x / 256 ^ o / 256 ^ n)) := by
    unfold setFld fld
    rw [Nat.zero_mod, Nat.zero_mul, Nat.add_zero]
    have h3 : x = x % 256 ^ o + 256 ^ o * ((x / 256 ^ o) % 256 ^ n) + 256 ^ o * (256 ^ n * (x / 256 ^ o / 256 ^ n)) := by
      rw [Nat.add_assoc, ← Nat.mul_add, ← h2, ← h1]
    have h4 : (x / 256 ^ o) % 256 ^ n * 256 ^ o = 256 ^ o * ((x / 256 ^ o) % 256 ^ n) := Nat.mul_comm _ _
    omega
  have hlt : x % 256 ^ o < 256 ^ o := Nat.mod_lt _ (by positivity)
  refine ⟨?_, fun i hi => ?_⟩
  · rw [hv]
    unfold fld
    rw [Nat.add_mul_div_left _ _ (by positivity), Nat.div_eq_of_lt hlt, Nat.zero_add, Nat.mul_mod_right]
  · rcases hi with hi | hi
    · rw [hv, fld_low hi]
      conv_rhs => rw [h1]
      rw [fld_low hi]
    · rw [hv, fld_high (by omega) hlt]
      conv_rhs => rw [h1]
      rw [fld_high (by omega) hlt]
      conv_rhs => rw [h2]
      rw [fld_high (by omega) (Nat.mod_lt _ (by positivity)), show 256 ^ n * (x / 256 ^ o / 256 ^ n) = 0 + 256 ^ n * (x / 256 ^ o / 256 ^ n) by omega,
        fld_high (by omega) (by positivity)]

theorem takeWhile_spec {α : Type} (p : α → Bool) (l : List α) : (∀ k, k < (l.takeWhile p).length → ∃ x, l[k]? = some x ∧ p x = true ∧ (l.takeWhile p)[k]? = some x)
    ∧ (∀ x, l[(l.takeWhile p).length]? = some x → p x = false) := by
  induction l with
  | nil => simp
  | cons a l ih =>
    by_cases h : p a = true
    · rw [List.takeWhile_cons_of_pos h]
      refine ⟨fun k hk => ?_, fun x hx => ?_⟩
      · cases k with
        | zero => exact ⟨a, rfl, h, rfl⟩
        | succ k => simpa using ih.1 k (by simpa using hk)
      · simp at hx
        exact ih.2 x (by simpa using hx)
    · rw [List.takeWhile_cons_of_neg h]
      simp
      simpa using h

theorem enumFrom_pairwise {α : Type} (l : List α) : ∀ n, (enumFrom n l).Pairwise (fun x y => x.1 < y.1) ∧ ∀ x ∈ enumFrom n l, n ≤ x.1 := by
  induction l with
  | nil => intro n; exact ⟨List.Pairwise.nil, by simp [enumFrom]⟩
  | cons a l ih =>
    intro n
    refine ⟨List.Pairwise.cons ?_ (ih (n + 1)).1, ?_⟩
    · intro x hx
      exact (ih (n + 1)).2 x hx
    · intro x hx
      simp only [enumFrom, List.mem_cons] at hx
      rcases hx with rfl | hx
      · exact Nat.le_refl _
      · exact Nat.le_of_succ_le ((ih (n + 1)).2 x hx)

end Sys2Proof.Machine
end

