-- ==== Sys2Proof/Laws/Requests.lean ====
section
/-! SUPPORT. An SDO read, a read of the vendor row, and a request of a Hywex Link session: what serving it leaves (R326, R331, R387). -/

namespace Sys2Proof.Machine

open Sys2Proof

/-! ### Reads -/

theorem view_vendor (m : Mach) : Mach.view K.NV_OTP_VENDOR m = setFld (m.flash.otp % 256 ^ 448) 0x60 32 0 := by
  have h1 : m.viewOf K.NV_OTP_VENDOR = m.viewFlash K.NV_OTP_VENDOR := by
    unfold Mach.viewOf
    simp only [show K.NV_OTP_VENDOR / 256 = 0x3010 by decide]
    rw [if_neg (by decide), if_pos (by decide)]
  unfold Mach.view
  rw [h1]
  unfold Mach.viewFlash
  repeat (first | rw [if_pos (by decide)] | rw [if_neg (by decide)])
  exact Option.getD_some

theorem read_vendor {s : State} {m : Mach} (count : Nat) (corr : List Nat) (h2 : m.reach false = .open_) (h3 : m.objStatus K.NV_OTP_VENDOR = .ok) :
    m.readObj s.mem K.NV_OTP_VENDOR count corr = (m, .ok, leBytes 448 (setFld (m.flash.otp % 256 ^ 448) 0x60 32 0)) := by
  unfold Mach.readObj Mach.judgeRead
  have hc : canWindow K.NV_OTP_VENDOR = none := by decide
  have hrow : objRow K.NV_OTP_VENDOR = some ⟨0x301001, 1, 0x1, 1, 1, (.dom 448), .ro, 0, .any, .atOnce⟩ := by decide
  have heff : readEff K.NV_OTP_VENDOR m = m := by rfl
  have hd : ∀ v, ObjTy.decode (.dom 448) v = leBytes 448 v := by intro v; unfold ObjTy.decode; simp only
  rw [hc]
  simp only [h2, h3, hrow, view_vendor, heff, hd]
  rw [if_neg (by decide)]

theorem sdo_read {s : State} {m : Mach} {cf k count : Nat} {corr : List Nat} {bs : List Byte} (ho : m.out = []) (h1 : m.sdoOpen cf = true)
    (hr : m.readObj s.mem k count corr = (m, .ok, bs)) : Mach.sdo s.mem cf false k count [] corr m = { m with out := [.sdo cf 0 bs] } := by
  unfold Mach.sdo
  simp [h1, hr, ho, Status.abort]

/-! ### Sessions -/

theorem remember_session {m m1 : Mach} {i : Nat} {f : RxFrame} {x : Session} {r : Option Out} (h : m.session i = some x)
    (h1 : m1 = m.remember i f r) : ∃ y, m1.session i = some y ∧ y.timeout = x.timeout ∧ y.pd = x.pd ∧ y.domain = x.domain := by
  subst h1
  unfold Mach.session at h ⊢
  refine ⟨{ x with last := x.last.set f.tc (some (f.seq, f.op, r)) }, ?_, rfl, rfl, rfl⟩
  · unfold Mach.remember
    simp only [List.getD_eq_getElem?_getD] at h ⊢
    rw [List.getElem?_modify]
    cases hh : m.net.sessions[i]? with
    | none => rw [hh] at h; cases h
    | some y => rw [hh] at h; simp only [Option.getD_some] at h; subst h; simp

theorem serve_asked {m m1 m2 : Mach} {e op i : Nat} {f : RxFrame} {x : Session} {run : RxFrame → Nat → Mach → Mach × Answer} {late : RxFrame → Bool}
    {st : Status} {data : List Byte} {more : Bool} (h : m.Asks e op f i x m1) (hl : late f = false) (hop : op < 6 ∨ 8 < op)
    (hr : run f i m1 = (m2, some (st, data, more))) :
    m.serve e op (fun f m => m.request e f (late f) (fun i m => run f i m)) = m1.responds m2 i x f st data more := by
  obtain ⟨h1, h2, h3, h4, h5, h6, h7⟩ := h
  unfold Mach.serve
  simp only [h1, h2, h3]
  unfold Mach.request
  simp only [h4, h5]
  have hs : ∀ sl, sl = decide (6 ≤ f.op ∧ f.op ≤ 8) → Mach.request.serveNew f (late f) (fun i m => run f i m) (m.rxPop e f) sl i
      = m1.responds m2 i x f st data more := by
    intro sl hsl
    have : sl = false := by rw [hsl, h3]; simp; omega
    subst this
    unfold Mach.request.serveNew
    have e1 : ({ m.rxPop e f with net := { (m.rxPop e f).net with sessions := (m.rxPop e f).net.sessions.modify i (fun (s : Option Session) =>
        s.map (fun (x : Session) => { x with last := x.last.set f.tc (some (f.seq, f.op, none)) })) } } : Mach) = m1 := by rw [h7]; rfl
    have ho : (m.rxPop e f).out = m1.out := by rw [h7]; rfl
    simp only [e1, hr, h5, hl]
    rw [ho]
    rfl
  cases hc : x.last.getD f.tc none with
  | none => simp only [Option.bind_some, hc]; simpa using hs _ rfl
  | some v =>
    obtain ⟨q, o, r⟩ := v
    have := h6 q o r hc
    simp only [Option.bind_some, hc]
    simp only [if_neg this]
    simpa using hs _ rfl

theorem serve_silent {m m1 m2 : Mach} {e op i : Nat} {f : RxFrame} {x : Session} {a : Answer} {run : RxFrame → Nat → Mach → Mach × Answer} {late : RxFrame → Bool}
    (h : m.Asks e op f i x m1) (hop : (6 ≤ op ∧ op ≤ 8) ∨ a = none)
    (hr : run f i m1 = (m2, a)) :
    m.serve e op (fun f m => m.request e f (late f) (fun i m => run f i m)) = m2 := by
  obtain ⟨h1, h2, h3, h4, h5, h6, h7⟩ := h
  unfold Mach.serve
  simp only [h1, h2, h3]
  unfold Mach.request
  simp only [h4, h5]
  have hs : ∀ sl, sl = decide (6 ≤ f.op ∧ f.op ≤ 8) → Mach.request.serveNew f (late f) (fun i m => run f i m) (m.rxPop e f) sl i
      = m2 := by
    intro sl hsl
    unfold Mach.request.serveNew
    have e1 : ({ m.rxPop e f with net := { (m.rxPop e f).net with sessions := (m.rxPop e f).net.sessions.modify i (fun (s : Option Session) =>
        s.map (fun (x : Session) => { x with last := x.last.set f.tc (some (f.seq, f.op, none)) })) } } : Mach) = m1 := by rw [h7]; rfl
    simp only [e1, hr]
    cases a with
    | none => rfl
    | some v =>
      have : sl = true := by
        rw [hsl, h3]
        rcases hop with h | h
        · simp [h]
        · cases h
      subst this
      rfl
  cases hc : x.last.getD f.tc none with
  | none => simp only [Option.bind_some, hc]; simpa using hs _ rfl
  | some v =>
    obtain ⟨q, o, r⟩ := v
    have := h6 q o r hc
    simp only [Option.bind_some, hc]
    simp only [if_neg this]
    simpa using hs _ rfl

theorem tpdo_pdoOn (m : Mach) (n k : Nat) (a b : Bool) : (m.tpdoSend n a b).pdoOn k = m.pdoOn k := by
  have hc : ∀ (m : Mach) p id d, (m.canSend p id d).dict = m.dict := by
    intro m p id d; unfold Mach.canSend; split <;> rfl
  have hf : ∀ (l : List Nat) (m : Mach) (g : Mach → Nat → Mach), (∀ m i, (g m i).dict = m.dict) → (l.foldl g m).dict = m.dict := by
    intro l; induction l with
    | nil => intro m g _; rfl
    | cons a l ih => intro m g hg; rw [List.foldl_cons, ih _ _ hg, hg]
  have hd : (m.tpdoSend n a b).dict = m.dict := by
    unfold Mach.tpdoSend
    simp only
    split
    · unfold upto
      rw [hf]
      · split
        · rw [hc]
        · rfl
      · intro m i
        split
        · split <;> rfl
        · rfl
    · split
      · rw [hc]
      · rfl
  unfold Mach.pdoOn Mach.g
  rw [hd]

end Sys2Proof.Machine
end

