-- ==== Sys2Proof/WellFormed.lean ====
section
/-! DEFINITION. Well-formed commands: every operand names a unit the largest variant has, and a written value fits the
type of its sub-index. Units absent on a variant are answered by the meanings (R4), not refused here. -/

namespace Sys2Proof

/-- Whether every operand of a command is in its field. -/
def WellFormed (i : Instr) : Bool :=
  match i with
  | .objectWrite index sub _ => decide (index < 2 ^ 16) && decide (sub < 2 ^ 8)
  | .lockstepDisagree => true
  | .supervisorReady => true
  | .itDefineAddr addr => decide (addr < 2 ^ 64)
  | .itDefineRecord _ => true
  | .itCancel id => decide (id < 2 ^ 16)
  | .itRelease id => decide (id < 2 ^ 16)
  | .itRetire id => decide (id < 2 ^ 16)
  | .itStationHold st v => decide (st < 5) && decide (v < 2 ^ 8)
  | .itSelect id => decide (id < 2 ^ 16)
  | .enterRendering => true
  | .commit id => decide (id < 2 ^ 16)
  | .admission id => decide (id < 2 ^ 16)
  | .enterPrinting id => decide (id < 2 ^ 16)
  | .itemDone id => decide (id < 2 ^ 16)
  | .bandInjection => true
  | .bandComplete cl cv _ => decide (cl < 4) && decide (cv < 17)
  | .remoteStealAttempt cl cv => decide (cl < 4) && decide (cv < 17)
  | .cloveHang cl cv => decide (cl < 4) && decide (cv < 17)
  | .cloveParityError cl cv => decide (cl < 4) && decide (cv < 17)
  | .spareCloveInService cl => decide (cl < 4)
  | .sramWordUncorrectable cl off => decide (cl < 4) && decide (off < 2 ^ 20)
  | .kernelImageReloaded cl => decide (cl < 4)
  | .headroomRecompute _ => true
  | .clusterDrain cl => decide (cl < 4)
  | .clusterDrained cl => decide (cl < 4)
  | .clusterLoad cl => decide (cl < 4)
  | .kernelLoadChecked cl => decide (cl < 4)
  | .clusterSelfTestDone cl failed => decide (cl < 4) && decide (failed < 2 ^ 17)
  | .clusterResume cl => decide (cl < 4)
  | .rdGenSelect gen => decide (gen < 2 ^ 32)
  | .planningRoundEnd id => decide (id < 2 ^ 16)
  | .renderInputWrite index sub _ => decide (index < 2 ^ 16) && decide (sub < 2 ^ 8)
  | .hpTrimBounds hp _ v => decide (hp < 4) && decide (v < 2 ^ 16)
  | .hpTrimUnfreeze hp v => decide (hp < 4) && decide (v < 2 ^ 8)
  | .hpPlanUnfreeze hp v => decide (hp < 4) && decide (v < 2 ^ 8)
  | .hpGainReset hp v => decide (hp < 4) && decide (v < 2 ^ 8)
  | .gainBoundsWrite hp _ v => decide (hp < 4) && decide (v < 2 ^ 16)
  | .thermistorStale hp thm => decide (hp < 4) && decide (thm < 8)
  | .hpMode hp v => decide (hp < 4) && decide (v < 2 ^ 8)
  | .lineTrigger hp _ => decide (hp < 4)
  | .encoderCountChange qe _ _ phase => decide (qe < 8) && decide (phase < 100)
  | .pepperOnTimeTrip hp group => decide (hp < 4) && decide (group < 16)
  | .pepperDutyTrip hp group => decide (hp < 4) && decide (group < 16)
  | .hpPepperClear hp v => decide (hp < 4) && decide (v < 2 ^ 8)
  | .hpPepperDutyMax hp => decide (hp < 4)
  | .headRemoved hp => decide (hp < 4)
  | .headPresentEdge hp => decide (hp < 4)
  | .headPowerEnable hp => decide (hp < 4)
  | .headIdReadStart hp => decide (hp < 4)
  | .headIdReadDone hp _ _ => decide (hp < 4)
  | .headIdReadRetry hp => decide (hp < 4)
  | .thTandemRestore st v => decide (st < 4) && decide (v < 2 ^ 8)
  | .thConfigured st v => decide (st < 4) && decide (v < 2 ^ 8)
  | .scanStepStart hp => decide (hp < 4)
  | .scanStepEnd hp => decide (hp < 4)
  | .hpDotRefTake hp v => decide (hp < 4) && decide (v < 2 ^ 8)
  | .hpDotMap hp _ => decide (hp < 4)
  | .dotHidingLimitsWrite hp which v => decide (hp < 4) && decide (which < 2) && decide (v < 2 ^ 16)
  | .thCalItem v => decide (v < 2 ^ 16)
  | .thCalApply v => decide (v < 2 ^ 8)
  | .calLoad => true
  | .calSet => true
  | .calStore => true
  | .calSetThenStore => true
  | .calStoreDone _ => true
  | .mediaAtRestReturn st => decide (st < 4)
  | .seekLimit st => decide (st < 4)
  | .thLearn st v => decide (st < 4) && decide (v < 2 ^ 8)
  | .snsUnfreeze st ch v => decide (st < 4) && decide (ch < 2) && decide (v < 2 ^ 8)
  | .ribbonWindow st => decide (st < 4)
  | .cutStroke st => decide (st < 4)
  | .thCutTimeout st => decide (st < 4)
  | .presenterMoveDone st => decide (st < 4)
  | .thPresTimeout st => decide (st < 4)
  | .lsScanMode v => decide (v < 2 ^ 8)
  | .scannerIdleStop => true
  | .scannerAtLockSpeed => true
  | .sosEdge phase _ => decide (phase < 32000)
  | .sosWindowMiss _ => true
  | .sosSearchTimeout => true
  | .lockTimeout => true
  | .slIndexPulse => true
  | .eosEdge phase => decide (phase < 32000)
  | .eosWindowEnd => true
  | .interlockOpen => true
  | .interlockClosed => true
  | .lsIntlkReenable v => decide (v < 2 ^ 8)
  | .lsIntlkEnable v => decide (v < 2 ^ 8)
  | .lsPwrClear v => decide (v < 2 ^ 8)
  | .scannerStopped => true
  | .lsProcMode v => decide (v < 2 ^ 8)
  | .processIdleStop => true
  | .processWarmupAdvance => true
  | .drumCleanEnd => true
  | .processStopComplete => true
  | .hvUpdate => true
  | .hvFault hv => decide (hv < 4)
  | .zeroCross phase => decide (phase < 100)
  | .lsFusTripClear v => decide (v < 2 ^ 8)
  | .heaterFault h => decide (h < 2)
  | .mainsLost => true
  | .lsProcClear v => decide (v < 2 ^ 8)
  | .pickStart => true
  | .sheetAtGate => true
  | .gateRelease => true
  | .gateWaitExpired => true
  | .rollerStart => true
  | .jamLate stage => decide (stage < 7)
  | .jamStay stage => decide (stage < 7)
  | .pickRetry => true
  | .lsJamClear v => decide (v < 2 ^ 8)
  | .lsPurge v => decide (v < 2 ^ 8)
  | .purgeDone => true
  | .axTableBase v => decide (v < 2 ^ 64)
  | .axRefresh n => decide (n < 2 ^ 8)
  | .planningTick => true
  | .axEnable ax v _ _ => decide (ax < 40) && decide (v < 2 ^ 8)
  | .axTarget ax v => decide (ax < 40) && decide (v < 2 ^ 32)
  | .axSpeed ax v => decide (ax < 40) && decide (v < 2 ^ 32)
  | .axAccel ax v => decide (ax < 40) && decide (v < 2 ^ 32)
  | .axDecel ax v => decide (ax < 40) && decide (v < 2 ^ 32)
  | .axJerk ax v => decide (ax < 40) && decide (v < 2 ^ 32)
  | .axVelocity ax v => decide (ax < 40) && decide (v < 2 ^ 32)
  | .axCurrent ax v => decide (ax < 40) && decide (v < 2 ^ 16)
  | .axFollow ax v => decide (ax < 40) && decide (v < 2 ^ 8)
  | .axHome ax v => decide (ax < 40) && decide (v < 2 ^ 8)
  | .axHalt ax v => decide (ax < 40) && decide (v < 2 ^ 8)
  | .axStop ax v => decide (ax < 40) && decide (v < 2 ^ 8)
  | .axClear ax v => decide (ax < 40) && decide (v < 2 ^ 8)
  | .axGroup ax v => decide (ax < 40) && decide (v < 2 ^ 8)
  | .sgStart g v => decide (g < 4) && decide (v < 2 ^ 8)
  | .senseInputEdge si _ phase => decide (si < 24) && decide (phase < 100)
  | .qeIndex qe => decide (qe < 8)
  | .sdStep sd _ phase => decide (sd < 8) && decide (phase < 100)
  | .stepperAddressUpdate => true
  | .chopperComparator pp _ phase => decide (pp < 100) && decide (phase < 500)
  | .maxOnExpired pp => decide (pp < 100)
  | .cmpDelayMeasure pp d => decide (pp < 100) && decide (d < 2 ^ 16)
  | .ppOfsUnfreeze pp v => decide (pp < 100) && decide (v < 2 ^ 8)
  | .phasePortFailed pp => decide (pp < 100)
  | .standstill ax => decide (ax < 40)
  | .dcLoopUpdate ax speed => decide (ax < 40) && decide (-(2 ^ 31) ≤ speed ∧ speed < 2 ^ 31)
  | .actuatorPullInEnd ax => decide (ax < 40)
  | .pwmPeriod ax _ angle rpm => decide (ax < 40) && decide (angle < 2 ^ 16) && decide (-(2 ^ 31) ≤ rpm ∧ rpm < 2 ^ 31)
  | .handoverTimeout ax => decide (ax < 40)
  | .observerLost ax => decide (ax < 40)
  | .flyProbeEnd ax rpm => decide (ax < 40) && decide (-(2 ^ 31) ≤ rpm ∧ rpm < 2 ^ 31)
  | .flyBrakeTimeout ax => decide (ax < 40)
  | .overCurrent pp => decide (pp < 100)
  | .drvFltN g => decide (g < 24)
  | .busLevelCrossing bus mv => decide (bus < 2) && decide (mv < 2 ^ 32)
  | .busOvCut bus => decide (bus < 2)
  | .chopperFbTimeout bus => decide (bus < 2)
  | .chopperRiseCheck bus => decide (bus < 2)
  | .shortRelease ax => decide (ax < 40)
  | .busClear bus v => decide (bus < 2) && decide (v < 2 ^ 8)
  | .busBrkClear bus v => decide (bus < 2) && decide (v < 2 ^ 8)
  | .busLevelWrite bus which v => decide (bus < 2) && decide (which < 5) && decide (v < 2 ^ 32)
  | .busPeak bus => decide (bus < 2)
  | .cpEnable cp v => decide (cp < 8) && decide (v < 2 ^ 8)
  | .cameraProbe cp _ => decide (cp < 8)
  | .cameraResetEnd cp => decide (cp < 8)
  | .cpInitReplayDone cp _ => decide (cp < 8)
  | .frameTimeout cp => decide (cp < 8)
  | .cpRestart cp v => decide (cp < 8) && decide (v < 2 ^ 8)
  | .csi2FrameStart cp num vc ecc => decide (cp < 8) && decide (num < 2 ^ 16) && decide (vc < 4) && decide (ecc < 3)
  | .csi2LongPacket cp vc dt ecc _ _ => decide (cp < 8) && decide (vc < 4) && decide (dt < 64) && decide (ecc < 3)
  | .csi2FrameEnd cp vc ecc => decide (cp < 8) && decide (vc < 4) && decide (ecc < 3)
  | .pipelineFrameStart ip => decide (ip < 4)
  | .pipelineFrameDone ip _ => decide (ip < 4)
  | .ipMode ip v => decide (ip < 4) && decide (v < 2 ^ 8)
  | .ipCtxEnable ip v => decide (ip < 4) && decide (v < 2 ^ 8)
  | .inCtxRecord ctx _ => decide (ctx < 8)
  | .inspectionTimeout id => decide (id < 2 ^ 16)
  | .inGainUnfreeze hp v => decide (hp < 4) && decide (v < 2 ^ 8)
  | .cpBufPeak cp => decide (cp < 8)
  | .slotBoundary phase => decide (phase < 16)
  | .conversionComplete slice raw phase => decide (slice < 5) && decide (raw < 16384) && decide (phase < 16)
  | .calibrationRotation ofs gain => decide (-(2 ^ 31) ≤ ofs ∧ ofs < 2 ^ 31) && decide (-(2 ^ 31) ≤ gain ∧ gain < 2 ^ 31)
  | .resetCalibrationEnd _ _ => true
  | .inServiceCheck => true
  | .sequenceEntryDue entry => decide (entry < 128)
  | .urgentRequest _ unit which chan phase window => decide (unit < 40) && decide (which < 3) && decide (chan < 88) && decide (phase < 16) && decide (window < 64)
  | .anSeqTable _ => true
  | .anChCfg ch v => decide (ch < 64) && decide (v < 2 ^ 16)
  | .anAccFilter acc v => decide (acc < 128) && decide (v < 2 ^ 8)
  | .anAccReset acc v => decide (acc < 128) && decide (v < 2 ^ 8)
  | .anMmReset mm v => decide (mm < 128) && decide (v < 2 ^ 8)
  | .anMmMax mm => decide (mm < 128)
  | .anSlUnfreeze sl v => decide (sl < 5) && decide (v < 2 ^ 8)
  | .sliceBoundsWrite sl bound v => decide (sl < 5) && decide (bound < 4) && decide (v < 2 ^ 32)
  | .converterPowerDown => true
  | .ethFrameReceived en _ => decide (en < 2)
  | .hwxRead en _ => decide (en < 2)
  | .hwxWrite en => decide (en < 2)
  | .memRead en _ => decide (en < 2)
  | .memWrite en => decide (en < 2)
  | .eventAck en => decide (en < 2)
  | .heartbeat en => decide (en < 2)
  | .pd en => decide (en < 2)
  | .open en => decide (en < 2)
  | .close en => decide (en < 2)
  | .netStopAll v => decide (v < 2 ^ 8)
  | .eventRetry => true
  | .eventGatherEnd => true
  | .heartbeatSend => true
  | .sessionTimeout slot => decide (slot < 4)
  | .ethLinkChange en speed => decide (en < 2) && decide (speed < 4)
  | .ethAddressAssigned en addr => decide (en < 2) && decide (addr < 2 ^ 32)
  | .netPortEnable en v => decide (en < 2) && decide (v < 2 ^ 8)
  | .nmtStart => true
  | .nmtEnterPreOperational => true
  | .nmtStop => true
  | .nmtResetCommunication => true
  | .nmtResetNode => true
  | .sdoTransfer cf _ index sub count _ _ => decide (cf < 2) && decide (index < 2 ^ 16) && decide (sub < 2 ^ 8) && decide (count < 2 ^ 32)
  | .sync => true
  | .timeMessage _ => true
  | .rpdo n _ => decide (n < 8)
  | .tpdoEventTimer n => decide (n < 8)
  | .canHeartbeatSend => true
  | .hostHeartbeatLapse => true
  | .emcyReceived node _ => decide (node < 128)
  | .canErrorStateChange cf state tec rec => decide (cf < 2) && decide (state < 3) && decide (tec < 2 ^ 8) && decide (rec < 2 ^ 8)
  | .busOffRecovery cf => decide (cf < 2)
  | .netCanRecover cf v => decide (cf < 2) && decide (v < 2 ^ 8)
  | .netCanRestart cf v => decide (cf < 2) && decide (v < 2 ^ 8)
  | .evCanAck v => decide (v < 2 ^ 32)
  | .memCanData cf win _ count _ _ => decide (cf < 2) && decide (win < 8) && decide (count < 2 ^ 32)
  | .ptpMessage en domain _ _ => decide (en < 2) && decide (domain < 2 ^ 8)
  | .ptpHoldover => true
  | .powerOn => true
  | .resetN lowNs => decide (lowNs < 2 ^ 32)
  | .resetRelease mv => decide (mv < 2 ^ 16)
  | .bootComplete => true
  | .dscClear v => decide (v < 2 ^ 8)
  | .dscLssAssign v => decide (v < 2 ^ 8)
  | .lssAssignmentEnd result => decide (result < 2 ^ 8)
  | .dscNmtAssign node v => decide (node < 128) && decide (v < 2 ^ 32)
  | .nodeBootUp node => decide (node < 128)
  | .nodeHeartbeat node nmt => decide (node < 128) && decide (nmt < 2 ^ 8)
  | .nodeIdentifyResponse node vendor product revision serial => decide (node < 128) && decide (vendor < 2 ^ 32) && decide (product < 2 ^ 32) && decide (revision < 2 ^ 32) && decide (serial < 2 ^ 32)
  | .nodeIdentifyTimeout node => decide (node < 128)
  | .nodeIdentifyRetry node => decide (node < 128)
  | .nmtBootTimeExpired => true
  | .nodeHeartbeatLapse node => decide (node < 128)
  | .bankProgram => true
  | .bankProgramDone _ _ => true
  | .bankSwap => true
  | .bankConfirm => true
  | .trialTimeout => true
  | .flashProgramDone _ => true
  | .flashEraseDone _ => true
  | .blockReplaced _ _ => true
  | .nvOpErase => true
  | .nvOpProgram => true
  | .nvWpLo v => decide (v < 2 ^ 64)
  | .nvWpHi v => decide (v < 2 ^ 64)
  | .protLoad => true
  | .protStore => true
  | .nvOtpCustomer _ _ => true
  | .nvAttestChallenge _ => true
  | .evLogRecord => true
  | .evLogClear v => decide (v < 2 ^ 8)
  | .uaMode ua v => decide (ua < 8) && decide (v < 2 ^ 8)
  | .uartCharacterReceived ua _ => decide (ua < 8)
  | .uartRingStore ua => decide (ua < 8)
  | .uartCharacterSent ua _ => decide (ua < 8)
  | .uaRate ua v => decide (ua < 8) && decide (v < 2 ^ 32)
  | .uaDataBits ua v => decide (ua < 8) && decide (v < 2 ^ 8)
  | .uaParity ua v => decide (ua < 8) && decide (v < 2 ^ 8)
  | .uaStop ua v => decide (ua < 8) && decide (v < 2 ^ 8)
  | .uaRlDiv ua v => decide (ua < 8) && decide (v < 2 ^ 16)
  | .uaRxRd ua v => decide (ua < 8) && decide (v < 2 ^ 16)
  | .uaTxWr ua v _ => decide (ua < 8) && decide (v < 2 ^ 16)
  | .uaTxBreak ua v => decide (ua < 8) && decide (v < 2 ^ 8)
  | .vmonWarning mv => decide (mv < 2 ^ 16)
  | .vmonRecover mv => decide (mv < 2 ^ 16)
  | .vmonWindowExpired => true
  | .vmonReset mv => decide (mv < 2 ^ 16)
  | .devVmonMin => true
  | .dieTempReading reading _ => decide (-(2 ^ 31) ≤ reading ∧ reading < 2 ^ 31)
  | .sensorNoReading => true
  | .throttleGraceEnd => true
  | .throttleRelease => true
  | .devThrottleForce v => decide (v < 2 ^ 8)
  | .devShutdownClear v => decide (v < 2 ^ 8)
  | .devTempPeak => true
  | .clockFailure cause => decide (cause < 4)
  | .powerEstimate _ => true
  | .cf0HostHeartbeat => true
  | .uartStartEdge ua sample => decide (ua < 8) && decide (sample < 8)
  | .uartCtsLow ua => decide (ua < 8)
  | .sosSearchResume => true
  | .powerLoss => true

end Sys2Proof
end

