-- ==== Sys2Proof/Tests/Slice0.lean ====
section
/-! SUPPORT. The model's own tests. -/

namespace Sys2Proof.Tests

set_option maxRecDepth 20000
set_option Elab.async false
set_option linter.unusedVariables false
open Sys2Proof Sys2Proof.Machine

/-- The block in service, nothing set. -/
def up : Mach := { Mach.atReset .mp6440 with sup := .ready }

/-- A state with a machine, empty memory and an empty queue. -/
def on (m : Mach) : State := { m }

/-- An item record (R30): identifier, station, flags, image format, passes, width, length, image base, stride, speed. -/
def record (id st flags : Nat) : Nat :=
  [(0x02, 1, st), (0x03, 1, flags), (0x07, 1, if st = 16 then 0 else 0x10), (0x08, 2, 64), (0x0C, 4, 1), (0x10, 5, 0x200000), (0x18, 4, 16), (0x20, 2, if st = 16 then 0 else 100)].foldl
    (fun r p => setFld r p.1 p.2.1 p.2.2) id

/-- An item of a station in a state. -/
def item (id st : Nat) (x : ItemState) (flags : Nat := 0) : Item := { id, record := record id st flags, state := x }

/-- The block in service with these items. -/
def withItems (l : List Item) : Mach := { up with items := l, order := l.length }

/-- Memory that holds bytes from an address. -/
def holds (a : Nat) (bs : List Byte) : Mem := Mem.write {} (bs.mapIdx (fun i b => (a + i, b)))

/-- An event record with a SEQ. -/
def event (seq : Nat) : EvRec :=
  { seq, code := 0x2301, tc1 := true, promoted := false, logged := false, time := 0, data := [], sent := 0, lastSent := 0 }

/-- A band of an item. -/
def band (id : Nat) : Band :=
  { item := id, kind := .thermalEnergy, unit := 0, attempt := 0, gen := 0, row := 0, col := 0, deadline := 0, src := 0, dst := 0,
    order := 0, failed := [] }

/-- A machine with a clove as given. -/
def withClove (m : Mach) (cl cv : Nat) (c : Clove) : Mach := m.modCluster cl (fun x => { x with cloves := x.cloves.set cv c })

/-- A machine on which an element reads a readiness. -/
def rdy (m : Mach) (sub v : Nat) : Mach := m.put (K.DEV_READINESS (sub - 1)) v

/-- A machine with object values. -/
def vals (m : Mach) (l : List (Nat × Nat)) : Mach := m.puts l

/-- A machine on which every element up to sub-index 0x50 reads `READY`. -/
def ready (m : Mach) : Mach := (List.range 0x50).foldl (fun m k => m.put (K.DEV_READINESS k) vReady) m

/-- A machine whose objects in use hold these values besides. -/
def inUse (m : Mach) (l : List (Nat × Nat)) : Mach := { m with held := l ++ m.held }

/-- The block in service with everything ready and the laser path on axes 0 to 5. -/
def laser : Mach :=
  inUse (ready up) [(K.LS_SCAN_AXIS, 0), (K.LS_DRUM_AXIS, 1), (K.LS_FUSER_AXIS, 2), (K.LS_PICK_AXIS, 3), (K.LS_REG_AXIS, 4), (K.LS_EXIT_AXIS, 5)]

theorem retryStarved_idle {m : Mach} (h : (m.items.filter (fun it => it.state == .rendering && it.span.isNone && !it.isSL)) = []) :
    m.retryStarved = m := by
  unfold Mach.retryStarved; rw [h]; rfl

theorem reserve_first {m : Mach} {it : Item} {n : Nat} (h : m.poolNeed it = (n, 0)) (h2 : m.poolSpans = []) (hn : n ≤ poolSize) :
    m.reserve it = some (m.modItem it.id (fun x => { x with span := some (poolBase, n) })) := by
  have h3 : m.poolFind n = some poolBase := by
    unfold Mach.poolFind; rw [h2]; simp only [firstFit]; exact if_pos (by omega)
  unfold Mach.reserve; simp only [h]; rw [h3]; rfl

/-- Station 0 configured with the head of port 0, which has 64 dots and power, on axis 0. -/
def headed : Mach :=
  { inUse (ready (up.puts [(K.TH_CONFIGURED 0, 1), (K.HP_MODE 0, 1)])) [(K.TH_PORTS 0, 1), (K.HP_DOTS 0, 64), (K.TH_FEED_AXIS 0, 0)] with
    heads := up.heads.modify 0 (fun x => { x with pwrEn := true, fit := .done }) }

/-- A sheet in the path for item 5. -/
def sheet : SheetRt := { item := 5, length := 2970, plan := { pieces := [], start10 := 0, origin := 0 } }

/-- The block in service with this sheet in the path. -/
def path (x : SheetRt) : Mach := up.modSl (fun y => { y with sheets := [x] })

/-- The block in service with the scanner in a state, its facets acquired at device time 0. -/
def scanning (st : Nat) : Mach := (up.put K.LS_SCAN_STATE st).modScan (fun x => { x with acquired := true })

/-- A table entry of a kind on ports 0 to 3 without inputs and encoders, with further fields. -/
def entry (kind : Nat) (l : List (Nat × Nat × Nat)) : Nat :=
  ([(0x05, 1, 1), (0x06, 1, 2), (0x07, 1, 3), (0x08, 1, 0xFF), (0x09, 1, 0xFF), (0x0A, 1, 0xFF), (0x0B, 1, 0xFF), (0x0C, 1, 0xFF)] ++ l).foldl
    (fun r (p : Nat × Nat × Nat) => setFld r p.1 p.2.1 p.2.2) kind

/-- The block in service with axis 0 of a kind, driven, in a state. -/
def motor (kind st : Nat) (l : List (Nat × Nat × Nat) := []) (f : AxisRt → AxisRt := id) : Mach :=
  { up.put (K.AX_STATE 0) st with
    axes := up.axes.modify 0 (fun x => f { x with work := entry kind l, drive := { x.drive with bridge := .driven } }) }

/-- The drive of axis 0 changed. -/
def drive (f : DriveRt → DriveRt) (x : AxisRt) : AxisRt := { x with drive := f x.drive }

theorem no_limit {m : Mach} {n seek : Nat} (h1 : m.si (m.axis n).limNeg = false) (h2 : m.si (m.axis n).limPos = false) (d : Int) :
    m.limitAhead n d seek = false := by
  unfold Mach.limitAhead; simp [h1, h2]

theorem pair_eta {α β : Type} (x : α × β) : x = (x.1, x.2) := rfl

theorem triple_eta {α β γ : Type} (x : α × β × γ) : x = (x.1, x.2.1, x.2.2) := rfl

theorem not_current {x : AxMode} (h : (match x with | .current _ => false | _ => true) = true) (ma : Int) : x ≠ .current ma := by
  rintro rfl; cases h

/-- A frame of context 0. -/
def frame : CamFrame := { num := 1, ctx := 0, record := 0, tFs := 0 }

/-- The block in service with camera 0 enabled, at a step, on pipeline 0, with frames. -/
def filming (st : CamStep) (l : List CamFrame := []) : Mach :=
  (up.puts [(K.CP_ENABLE 0, 1), (K.IP_MODE 0, 1), (K.IP_CTX_ENABLE 0, 1)]).modCam 0
    (fun x => { x with step := st, frames := l, receiving := !l.isEmpty })

/-- The block in service with a conversion that ends at slot 0 on slice 1. -/
def converting (discard : Bool) : Mach :=
  up.modSlice 1 (fun x => { x with conv := some { chan := 3, kind := .entry 2, start := 0, endSlot := 0, due := 0, discard, settled := true } })

/-- An open session. -/
def sess : Session := { number := 7, port := 0, addr := 9, udp := 10, timeout := 0, mask := 0, pd := true, lastSeen := 0 }

/-- A request of that session. -/
def req (op : Nat) (payload : List Byte) (more : Bool := false) : RxFrame :=
  { tc := 1, op, seq := 3, session := 7, more, addr := 9, udp := 10, payload }

/-- A request's payload (R323). -/
def payload (k off n : Nat) (data : List Byte := []) : List Byte :=
  leBytes 2 (k / 256) ++ leBytes 1 (k % 256) ++ [0] ++ leBytes 4 off ++ leBytes 2 n ++ [0, 0] ++ data

/-- The block in service with port 0 up, window 0 on the start of memory, and a frame received. -/
def serving (f : RxFrame) (sessions : List (Option Session) := [none, some sess, none, none]) : Mach :=
  { inUse (up.puts [(K.NET_PORT_ENABLE 0, 1), (K.NET_LINK 0, 3), (K.MEM_ENABLE 0, 1), (K.MEM_SIZE 0, 4096), (K.MEM_WRITABLE 0, 1)])
      [(K.NET_PD_ROUTE 0, 1)] with
    net := { up.net with sessions, rx := [[f], []] }
    flash := { up.flash with otp := 0 } }

theorem asks {m : Mach} {e op i : Nat} {f : RxFrame} {x : Session} (h1 : m.enOpen e = true) (h2 : m.rxNext e = some f) (h3 : f.op = op)
    (h4 : (m.rxPop e f).slotOf e f.session f.addr f.udp = some i) (h5 : (m.rxPop e f).session i = some x)
    (h6 : x.last = [none, none, none]) : m.Asks e op f i x ((m.rxPop e f).remember i f none) := by
  refine ⟨h1, h2, h3, h4, h5, ?_, rfl⟩
  have h7 : ∀ t, ([none, none, none] : List (Option (Nat × Nat × Option Out))).getD t none = none := by
    rintro (_ | _ | _ | t) <;> rfl
  intro q o r h
  rw [h6, h7] at h; cases h

theorem read_ok {x : Mach × Status × List Byte} {bs : List Byte} (h : x.2 = (.ok, bs)) : x = (x.1, .ok, bs) := by
  obtain ⟨a, b⟩ := x; cases h; rfl

theorem eff_ok {x : Mach × Status} (h : x.2 = .ok) : x = (x.1, .ok) := by
  obtain ⟨a, b⟩ := x; cases h; rfl

/-- An Ethernet frame to a port of MAC address 0 with an IP address (R329). -/
def udp (ip src sport dport : Nat) (data : List Byte) : List Byte :=
  let be (n v : Nat) := (leBytes n v).reverse
  be 6 0 ++ be 6 1 ++ be 2 0x0800 ++ [0x45, 0] ++ be 2 (28 + data.length) ++ be 4 0 ++ [64, 17] ++ be 2 0 ++ be 4 src ++ be 4 ip
    ++ be 2 sport ++ be 2 dport ++ be 2 (8 + data.length) ++ be 2 0 ++ data

/-- A Hywex Link frame of session 7 and class 1 (R318). -/
def hywex (op : Nat) (data : List Byte) : List Byte :=
  let h := [0x57, 0x48, 0x11] ++ leBytes 1 op ++ leBytes 2 3 ++ leBytes 2 7 ++ leBytes 2 data.length ++ [0, 0]
  h ++ leBytes 4 (crc32 (h ++ leBytes 4 0 ++ data)) ++ data

/-- The block in service with the host network in a state of R340 and its objects as given. -/
def nmt (s : Nmt) (l : List (Nat × Nat) := []) : Mach := { up.puts l with net := { up.net with nmt := s } }

theorem none_held {m : Mach} (h : m.net.rpdoHeld = List.replicate 8 none) (n : Nat) : m.net.rpdoHeld.getD n none = none := by
  rw [h, List.getD_eq_getElem?_getD, List.getElem?_replicate]; split <;> rfl

/-- The block in service as manager of the device network, with node 3 assigned and entered in the partner list as given. -/
def managing (assign entry : Nat) (f : NodeRt → NodeRt := id) : Mach :=
  (inUse (up.put (K.DSC_PARTNER 0) entry) [(K.DSC_NMT_MODE, 1), (K.DSC_NMT_ASSIGN 2, assign)]).modNode 3 f

theorem after_put {m : Mach} {j k v n : Nat} (h : n ≤ m.g j) (hj : j ≠ k) : n ≤ (m.put k v).g j := by
  unfold Mach.g Mach.put at *
  rw [Store.get_put_other objDefault hj]; exact h

/-- A flash image of no content, signed with key 1 of P-256 (R363). -/
def image : List Byte :=
  [0x000000000000000000000000000000000000000000000000000701014d524446,
   0,
   0x55b852781b9995a44c939b64e441ae2724b96f99c8f4fb9a141cfc9842c4b0e3,
   0x6b17d1f2e12c4247f8bce6e563a440f277037d812deb33a0f4a13945d898c296,
   0x4fe342e2fe1a7f9b8ee7eb4a7c0f9e162bce33576b315ececbb6406837bf51f5,
   0x7cf27b188d034f7e8a52380304b51ac3c08969e277f21b35a60b48fc47669978,
   0x2da15728b5e35d7d6e85a742fe0bbac76ff4de60ffa8f09d341ad0fc0a835837,
   0].flatMap (leBytes 32)

/-- The block in service with the SHA-256 of that key in its vendor row. -/
def keyed : Mach :=
  { up.puts [(K.NV_BANK_LEN, 256)] with
    flash := { up.flash with otp := setFld 0 0x40 32 0x970712fce5b339aeafde27b402bf49669d11642c558018102924fb715b5155a9 } }

/-- Memory that holds an image from address 0. -/
def stored (bs : List Byte) : Mem := { cells := (bs.mapIdx (fun i b => (i, b))).filter (fun p => p.2 != 0) }

theorem fst_ok {α β : Type} {x : α × β} {a : α} (h : x.1 = a) : x = (a, x.2) := by
  obtain ⟨b, c⟩ := x; cases h; rfl

theorem idle_cloves {l : List Clove} (h : (l.all fun v => v.cur == none) = true) (n : Nat) : (l.getD n { state := .off }).cur = none := by
  rw [List.getD_eq_getElem?_getD]
  cases e : l[n]? with
  | none => rfl
  | some v => exact beq_iff_eq.mp (List.all_eq_true.mp h v (List.mem_of_getElem? e))

/-! ### The spec's worked examples and standard check values -/

/-- 00_scope.md, "SL polygon speed in Configuration K": 35,433 rpm at 200 mm/s, 1,200 dpi, 2 beams and 8 facets. -/
theorem test_polygon_speed : polyRpm 2000 1200 2 8 = 35433 := by decide +kernel

/-- 04_thermal_energy_model.md, "plan size on S0": a line record of 2,048 dots is 4,192 bytes. -/
theorem test_line_record : lineRecordBytes 2048 = 4192 := by decide +kernel

/-- The head of 04_thermal_energy_model.md, "one dot on S1": dot 300 has 1,150 ohms, v_nom is 24 V. -/
def k2 : HeadCtx :=
  { dots := 1280, ert := 0, model := 0, gain := 0, res := setFld 0 600 2 4600, map := 0, w1 := 0, w2 := 0, vnom := r32 24, lat := 0,
    skew := 0, tandem := false, fallback := false, lead := true, otherDots := 0, otherMap := 0, otherLat := 0, masks := [] }

/-- The same example: 42.80625 µJ is the word 8,546. -/
theorem test_dot_word : k2.word 300 (r32 (4280625 / 100000)) = 8546 := by decide +kernel

/-- 04_thermal_energy_model.md, "the dot of the first example at fire time": BLOCK_SCALE at 58 °C is 110. -/
theorem test_block_scale :
    SubCtx.scale { c0 := .zero, c1 := .zero, c2 := .zero, g01 := .zero, g12 := .zero, g2a := .zero, gl0 := .zero, gl1 := .zero, eps := .zero,
                   thetaRef := r32 40, beta := r32 (8 / 1000), kappa := .zero, amb := .zero, limit := 0, thmBlocks := [], lookback := 0,
                   floor := 0 } (r32 58) = 110 := by decide +kernel

/-- The same example: the dot fires for 73.23 µs. -/
theorem test_fired_time : firedTime 8546 110 (-3) = 7323 := by decide +kernel

/-- 06_dot_health_and_alignment.md, "scanning HP2 on S1": a step of 1,280 dots takes 6.90 µs. -/
theorem test_scan_step : ((inUse (up.put (K.HP_MODE 2) 1) [(K.HP_DOTS 2, 1280), (K.HP_CMOS_DIV 2, 10)]).scanTimes 2).2 = 690 := by decide +kernel

/-- 06_dot_health_and_alignment.md, "tandem offset of S0": 15,118 with a TANDEM_ERR of 5 becomes 15,113. -/
theorem test_tandem_offset :
    (match exec (.thCalApply 1) (on { up.puts [(K.TH_CAL_STATE, 3), (K.TH_TANDEM_OFFSET 0, 15118),
        (K.TH_CAL_TANDEM_ERR, 5)] with calResult := (2, 0, 0) }) with
      | .next t => t.m.g (K.TH_TANDEM_OFFSET 0)
      | _ => 0) = 15113 := by decide +kernel

/-- The check value of CRC-32 (IEEE 802.3 polynomial, R330): "123456789" gives 0xCBF43926. -/
theorem test_crc32 : crc32 [0x31, 0x32, 0x33, 0x34, 0x35, 0x36, 0x37, 0x38, 0x39] = 0xCBF43926 := by decide +kernel

/-- FIPS 180-4: the SHA-256 of "abc" begins ba7816bf. -/
theorem test_sha256 : (Crypto.sha256 [0x61, 0x62, 0x63]).take 4 = [0xba, 0x78, 0x16, 0xbf] := by decide +kernel

/-! ### One step -/

/-- Commands run first in, first out. -/
theorem test_queue_order :
    (match step { on up with pending := [.itSelect 5, .itSelect 6] } with
      | .next t => (t.m.g K.IT_SELECT, t.pending)
      | _ => (0, [])) = (5, [.itSelect 6]) := by decide +kernel

/-- A step on an empty queue is one tick of device time. -/
theorem test_tick : (match step (on up) with | .next t => t.m.time | _ => 0) = 1 := by decide +kernel

/-- An item record written directly enters the item table in DEFINED (R30). -/
theorem test_define :
    (match exec (.itDefineRecord (leBytes 128 (record 5 0x10 0))) (on up) with
      | .next t => t.m.items.map (fun it => (it.id, it.state))
      | _ => []) = [(5, .defined)] := by decide +kernel

/-- The table gives no row any bits. -/
theorem test_no_word : decodeTableWord 8 0 = none := rfl

/-! ### Well-formed commands: one ill-formed command for each check, and each command at its bounds -/

theorem test_ill_formed_1 :
    ([.objectWrite (2 ^ 16) 0 [], .objectWrite 0 256 [], .itDefineAddr (2 ^ 64), .itCancel (2 ^ 16), .itRelease (2 ^ 16),
     .itRetire (2 ^ 16), .itStationHold 5 0, .itStationHold 0 256, .itSelect (2 ^ 16), .commit (2 ^ 16), .admission (2 ^ 16),
     .enterPrinting (2 ^ 16), .itemDone (2 ^ 16), .bandComplete 4 0 .none, .bandComplete 0 17 .none, .remoteStealAttempt 4 0,
     .remoteStealAttempt 0 17, .cloveHang 4 0, .cloveHang 0 17, .cloveParityError 4 0, .cloveParityError 0 17,
     .spareCloveInService 4, .sramWordUncorrectable 4 0, .sramWordUncorrectable 0 (2 ^ 20), .kernelImageReloaded 4, .clusterDrain 4,
     .clusterDrained 4, .clusterLoad 4, .kernelLoadChecked 4, .clusterSelfTestDone 4 0, .clusterSelfTestDone 0 (2 ^ 17),
     .clusterResume 4, .rdGenSelect (2 ^ 32), .planningRoundEnd (2 ^ 16), .renderInputWrite (2 ^ 16) 0 [],
     .renderInputWrite 0 256 [], .hpTrimBounds 4 false 0, .hpTrimBounds 0 false (2 ^ 16), .hpTrimUnfreeze 4 0, .hpTrimUnfreeze 0 256,
     .hpPlanUnfreeze 4 0, .hpPlanUnfreeze 0 256, .hpGainReset 4 0, .hpGainReset 0 256, .gainBoundsWrite 4 false 0,
     .gainBoundsWrite 0 false (2 ^ 16), .thermistorStale 4 0, .thermistorStale 0 8, .hpMode 4 0, .hpMode 0 256, .lineTrigger 4 false,
     .encoderCountChange 8 false false 0, .encoderCountChange 0 false false 100, .pepperOnTimeTrip 4 0, .pepperOnTimeTrip 0 16,
     .pepperDutyTrip 4 0, .pepperDutyTrip 0 16, .hpPepperClear 4 0, .hpPepperClear 0 256, .hpPepperDutyMax 4] : List Instr).all (fun i => !(WellFormed i)) = true := by decide +kernel

theorem test_ill_formed_2 :
    ([.headRemoved 4, .headPresentEdge 4, .headPowerEnable 4, .headIdReadStart 4, .headIdReadDone 4 false [], .headIdReadRetry 4,
     .thTandemRestore 4 0, .thTandemRestore 0 256, .thConfigured 4 0, .thConfigured 0 256, .scanStepStart 4, .scanStepEnd 4,
     .hpDotRefTake 4 0, .hpDotRefTake 0 256, .hpDotMap 4 [], .dotHidingLimitsWrite 4 0 0, .dotHidingLimitsWrite 0 2 0,
     .dotHidingLimitsWrite 0 0 (2 ^ 16), .thCalItem (2 ^ 16), .thCalApply 256, .mediaAtRestReturn 4, .seekLimit 4, .thLearn 4 0,
     .thLearn 0 256, .snsUnfreeze 4 0 0, .snsUnfreeze 0 2 0, .snsUnfreeze 0 0 256, .ribbonWindow 4, .cutStroke 4, .thCutTimeout 4,
     .presenterMoveDone 4, .thPresTimeout 4, .lsScanMode 256, .sosEdge 32000 false, .eosEdge 32000, .lsIntlkReenable 256,
     .lsIntlkEnable 256, .lsPwrClear 256, .lsProcMode 256, .hvFault 4, .zeroCross 100, .lsFusTripClear 256, .heaterFault 2,
     .lsProcClear 256, .jamLate 7, .jamStay 7, .lsJamClear 256, .lsPurge 256, .axTableBase (2 ^ 64), .axRefresh 256,
     .axEnable 40 0 none [], .axEnable 0 256 none [], .axTarget 40 0, .axTarget 0 (2 ^ 32), .axSpeed 40 0, .axSpeed 0 (2 ^ 32),
     .axAccel 40 0, .axAccel 0 (2 ^ 32), .axDecel 40 0, .axDecel 0 (2 ^ 32)] : List Instr).all (fun i => !(WellFormed i)) = true := by decide +kernel

theorem test_ill_formed_3 :
    ([.axJerk 40 0, .axJerk 0 (2 ^ 32), .axVelocity 40 0, .axVelocity 0 (2 ^ 32), .axCurrent 40 0, .axCurrent 0 (2 ^ 16),
     .axFollow 40 0, .axFollow 0 256, .axHome 40 0, .axHome 0 256, .axHalt 40 0, .axHalt 0 256, .axStop 40 0, .axStop 0 256,
     .axClear 40 0, .axClear 0 256, .axGroup 40 0, .axGroup 0 256, .sgStart 4 0, .sgStart 0 256, .senseInputEdge 24 false 0,
     .senseInputEdge 0 false 100, .qeIndex 8, .sdStep 8 false 0, .sdStep 0 false 100, .chopperComparator 100 false 0,
     .chopperComparator 0 false 500, .maxOnExpired 100, .cmpDelayMeasure 100 0, .cmpDelayMeasure 0 (2 ^ 16), .ppOfsUnfreeze 100 0,
     .ppOfsUnfreeze 0 256, .phasePortFailed 100, .standstill 40, .dcLoopUpdate 40 0, .dcLoopUpdate 0 (2 ^ 31),
     .dcLoopUpdate 0 (-2 ^ 31 - 1), .actuatorPullInEnd 40, .pwmPeriod 40 [] 0 0, .pwmPeriod 0 [] (2 ^ 16) 0,
     .pwmPeriod 0 [] 0 (2 ^ 31), .pwmPeriod 0 [] 0 (-2 ^ 31 - 1), .handoverTimeout 40, .observerLost 40, .flyProbeEnd 40 0,
     .flyProbeEnd 0 (2 ^ 31), .flyProbeEnd 0 (-2 ^ 31 - 1), .flyBrakeTimeout 40, .overCurrent 100, .drvFltN 24,
     .busLevelCrossing 2 0, .busLevelCrossing 0 (2 ^ 32), .busOvCut 2, .chopperFbTimeout 2, .chopperRiseCheck 2, .shortRelease 40,
     .busClear 2 0, .busClear 0 256, .busBrkClear 2 0, .busBrkClear 0 256] : List Instr).all (fun i => !(WellFormed i)) = true := by decide +kernel

theorem test_ill_formed_4 :
    ([.busLevelWrite 2 0 0, .busLevelWrite 0 5 0, .busLevelWrite 0 0 (2 ^ 32), .busPeak 2, .cpEnable 8 0, .cpEnable 0 256,
     .cameraProbe 8 none, .cameraResetEnd 8, .cpInitReplayDone 8 none, .frameTimeout 8, .cpRestart 8 0, .cpRestart 0 256,
     .csi2FrameStart 8 0 0 0, .csi2FrameStart 0 (2 ^ 16) 0 0, .csi2FrameStart 0 0 4 0, .csi2FrameStart 0 0 0 3,
     .csi2LongPacket 8 0 0 0 false [], .csi2LongPacket 0 4 0 0 false [], .csi2LongPacket 0 0 64 0 false [],
     .csi2LongPacket 0 0 0 3 false [], .csi2FrameEnd 8 0 0, .csi2FrameEnd 0 4 0, .csi2FrameEnd 0 0 3, .pipelineFrameStart 4,
     .pipelineFrameDone 4 [], .ipMode 4 0, .ipMode 0 256, .ipCtxEnable 4 0, .ipCtxEnable 0 256, .inCtxRecord 8 [],
     .inspectionTimeout (2 ^ 16), .inGainUnfreeze 4 0, .inGainUnfreeze 0 256, .cpBufPeak 8, .slotBoundary 16,
     .conversionComplete 5 0 0, .conversionComplete 0 16384 0, .conversionComplete 0 0 16, .calibrationRotation (2 ^ 31) 0,
     .calibrationRotation (-2 ^ 31 - 1) 0, .calibrationRotation 0 (2 ^ 31), .calibrationRotation 0 (-2 ^ 31 - 1),
     .sequenceEntryDue 128, .urgentRequest false 40 0 0 0 0, .urgentRequest false 0 3 0 0 0, .urgentRequest false 0 0 88 0 0,
     .urgentRequest false 0 0 0 16 0, .urgentRequest false 0 0 0 0 64, .anChCfg 64 0, .anChCfg 0 (2 ^ 16), .anAccFilter 128 0,
     .anAccFilter 0 256, .anAccReset 128 0, .anAccReset 0 256, .anMmReset 128 0, .anMmReset 0 256, .anMmMax 128, .anSlUnfreeze 5 0,
     .anSlUnfreeze 0 256, .sliceBoundsWrite 5 0 0] : List Instr).all (fun i => !(WellFormed i)) = true := by decide +kernel

theorem test_ill_formed_5 :
    ([.sliceBoundsWrite 0 4 0, .sliceBoundsWrite 0 0 (2 ^ 32), .ethFrameReceived 2 [], .hwxRead 2 [], .hwxWrite 2, .memRead 2 [],
     .memWrite 2, .eventAck 2, .heartbeat 2, .pd 2, .open 2, .close 2, .netStopAll 256, .sessionTimeout 4, .ethLinkChange 2 0,
     .ethLinkChange 0 4, .ethAddressAssigned 2 0, .ethAddressAssigned 0 (2 ^ 32), .netPortEnable 2 0, .netPortEnable 0 256,
     .sdoTransfer 2 false 0 0 0 [] [], .sdoTransfer 0 false (2 ^ 16) 0 0 [] [], .sdoTransfer 0 false 0 256 0 [] [],
     .sdoTransfer 0 false 0 0 (2 ^ 32) [] [], .rpdo 8 [], .tpdoEventTimer 8, .emcyReceived 128 [], .canErrorStateChange 2 0 0 0,
     .canErrorStateChange 0 3 0 0, .canErrorStateChange 0 0 256 0, .canErrorStateChange 0 0 0 256, .busOffRecovery 2,
     .netCanRecover 2 0, .netCanRecover 0 256, .netCanRestart 2 0, .netCanRestart 0 256, .evCanAck (2 ^ 32),
     .memCanData 2 0 false 0 [] [], .memCanData 0 8 false 0 [] [], .memCanData 0 0 false (2 ^ 32) [] [], .ptpMessage 2 0 false 0,
     .ptpMessage 0 256 false 0, .resetN (2 ^ 32), .resetRelease (2 ^ 16), .dscClear 256, .dscLssAssign 256, .lssAssignmentEnd 256,
     .dscNmtAssign 128 0, .dscNmtAssign 0 (2 ^ 32), .nodeBootUp 128, .nodeHeartbeat 128 0, .nodeHeartbeat 0 256,
     .nodeIdentifyResponse 128 0 0 0 0, .nodeIdentifyResponse 0 (2 ^ 32) 0 0 0, .nodeIdentifyResponse 0 0 (2 ^ 32) 0 0,
     .nodeIdentifyResponse 0 0 0 (2 ^ 32) 0, .nodeIdentifyResponse 0 0 0 0 (2 ^ 32), .nodeIdentifyTimeout 128,
     .nodeIdentifyRetry 128, .nodeHeartbeatLapse 128] : List Instr).all (fun i => !(WellFormed i)) = true := by decide +kernel

theorem test_ill_formed_6 :
    ([.nvWpLo (2 ^ 64), .nvWpHi (2 ^ 64), .evLogClear 256, .uaMode 8 0, .uaMode 0 256, .uartCharacterReceived 8 [], .uartRingStore 8,
     .uartCharacterSent 8 false, .uaRate 8 0, .uaRate 0 (2 ^ 32), .uaDataBits 8 0, .uaDataBits 0 256, .uaParity 8 0, .uaParity 0 256,
     .uaStop 8 0, .uaStop 0 256, .uaRlDiv 8 0, .uaRlDiv 0 (2 ^ 16), .uaRxRd 8 0, .uaRxRd 0 (2 ^ 16), .uaTxWr 8 0 false,
     .uaTxWr 0 (2 ^ 16) false, .uaTxBreak 8 0, .uaTxBreak 0 256, .vmonWarning (2 ^ 16), .vmonRecover (2 ^ 16), .vmonReset (2 ^ 16),
     .dieTempReading (2 ^ 31) false, .dieTempReading (-2 ^ 31 - 1) false, .devThrottleForce 256, .devShutdownClear 256,
     .clockFailure 4, .uartStartEdge 8 0, .uartStartEdge 0 8, .uartCtsLow 8] : List Instr).all (fun i => !(WellFormed i)) = true := by decide +kernel

theorem test_well_formed_1 :
    ([.objectWrite (2 ^ 16 - 1) 255 [], .lockstepDisagree, .supervisorReady, .itDefineAddr (2 ^ 64 - 1), .itDefineRecord [],
     .itCancel (2 ^ 16 - 1), .itRelease (2 ^ 16 - 1), .itRetire (2 ^ 16 - 1), .itStationHold 4 255, .itSelect (2 ^ 16 - 1),
     .enterRendering, .commit (2 ^ 16 - 1), .admission (2 ^ 16 - 1), .enterPrinting (2 ^ 16 - 1), .itemDone (2 ^ 16 - 1),
     .bandInjection, .bandComplete 3 16 .none, .remoteStealAttempt 3 16, .cloveHang 3 16, .cloveParityError 3 16,
     .spareCloveInService 3, .sramWordUncorrectable 3 (2 ^ 20 - 1), .kernelImageReloaded 3, .headroomRecompute [], .clusterDrain 3,
     .clusterDrained 3, .clusterLoad 3, .kernelLoadChecked 3, .clusterSelfTestDone 3 (2 ^ 17 - 1), .clusterResume 3,
     .rdGenSelect (2 ^ 32 - 1), .planningRoundEnd (2 ^ 16 - 1), .renderInputWrite (2 ^ 16 - 1) 255 [],
     .hpTrimBounds 3 false (2 ^ 16 - 1), .hpTrimUnfreeze 3 255, .hpPlanUnfreeze 3 255, .hpGainReset 3 255,
     .gainBoundsWrite 3 false (2 ^ 16 - 1), .thermistorStale 3 7, .hpMode 3 255, .lineTrigger 3 false,
     .encoderCountChange 7 false false 99, .pepperOnTimeTrip 3 15, .pepperDutyTrip 3 15, .hpPepperClear 3 255, .hpPepperDutyMax 3,
     .headRemoved 3, .headPresentEdge 3, .headPowerEnable 3, .headIdReadStart 3, .headIdReadDone 3 false [], .headIdReadRetry 3,
     .thTandemRestore 3 255, .thConfigured 3 255, .scanStepStart 3, .scanStepEnd 3, .hpDotRefTake 3 255, .hpDotMap 3 [],
     .dotHidingLimitsWrite 3 1 (2 ^ 16 - 1), .thCalItem (2 ^ 16 - 1), .thCalApply 255, .calLoad, .calSet, .calStore,
     .calSetThenStore, .calStoreDone false, .mediaAtRestReturn 3, .seekLimit 3, .thLearn 3 255, .snsUnfreeze 3 1 255,
     .ribbonWindow 3, .cutStroke 3, .thCutTimeout 3, .presenterMoveDone 3, .thPresTimeout 3] : List Instr).all WellFormed = true := by decide +kernel

theorem test_well_formed_2 :
    ([.lsScanMode 255, .scannerIdleStop, .scannerAtLockSpeed, .sosEdge 31999 false, .sosWindowMiss false, .sosSearchTimeout,
     .lockTimeout, .slIndexPulse, .eosEdge 31999, .eosWindowEnd, .interlockOpen, .interlockClosed, .lsIntlkReenable 255,
     .lsIntlkEnable 255, .lsPwrClear 255, .scannerStopped, .lsProcMode 255, .processIdleStop, .processWarmupAdvance, .drumCleanEnd,
     .processStopComplete, .hvUpdate, .hvFault 3, .zeroCross 99, .lsFusTripClear 255, .heaterFault 1, .mainsLost, .lsProcClear 255,
     .pickStart, .sheetAtGate, .gateRelease, .gateWaitExpired, .rollerStart, .jamLate 6, .jamStay 6, .pickRetry, .lsJamClear 255,
     .lsPurge 255, .purgeDone, .axTableBase (2 ^ 64 - 1), .axRefresh 255, .planningTick, .axEnable 39 255 none [],
     .axTarget 39 (2 ^ 32 - 1), .axSpeed 39 (2 ^ 32 - 1), .axAccel 39 (2 ^ 32 - 1), .axDecel 39 (2 ^ 32 - 1),
     .axJerk 39 (2 ^ 32 - 1), .axVelocity 39 (2 ^ 32 - 1), .axCurrent 39 (2 ^ 16 - 1), .axFollow 39 255, .axHome 39 255,
     .axHalt 39 255, .axStop 39 255, .axClear 39 255, .axGroup 39 255, .sgStart 3 255, .senseInputEdge 23 false 99, .qeIndex 7,
     .sdStep 7 false 99, .stepperAddressUpdate, .chopperComparator 99 false 499, .maxOnExpired 99, .cmpDelayMeasure 99 (2 ^ 16 - 1),
     .ppOfsUnfreeze 99 255, .phasePortFailed 99, .standstill 39, .dcLoopUpdate 39 (2 ^ 31 - 1), .actuatorPullInEnd 39,
     .pwmPeriod 39 [] (2 ^ 16 - 1) (2 ^ 31 - 1), .handoverTimeout 39, .observerLost 39, .flyProbeEnd 39 (2 ^ 31 - 1),
     .flyBrakeTimeout 39, .overCurrent 99] : List Instr).all WellFormed = true := by decide +kernel

theorem test_well_formed_3 :
    ([.drvFltN 23, .busLevelCrossing 1 (2 ^ 32 - 1), .busOvCut 1, .chopperFbTimeout 1, .chopperRiseCheck 1, .shortRelease 39,
     .busClear 1 255, .busBrkClear 1 255, .busLevelWrite 1 4 (2 ^ 32 - 1), .busPeak 1, .cpEnable 7 255, .cameraProbe 7 none,
     .cameraResetEnd 7, .cpInitReplayDone 7 none, .frameTimeout 7, .cpRestart 7 255, .csi2FrameStart 7 (2 ^ 16 - 1) 3 2,
     .csi2LongPacket 7 3 63 2 false [], .csi2FrameEnd 7 3 2, .pipelineFrameStart 3, .pipelineFrameDone 3 [], .ipMode 3 255,
     .ipCtxEnable 3 255, .inCtxRecord 7 [], .inspectionTimeout (2 ^ 16 - 1), .inGainUnfreeze 3 255, .cpBufPeak 7, .slotBoundary 15,
     .conversionComplete 4 16383 15, .calibrationRotation (2 ^ 31 - 1) (2 ^ 31 - 1), .resetCalibrationEnd [] [], .inServiceCheck,
     .sequenceEntryDue 127, .urgentRequest false 39 2 87 15 63, .anSeqTable [], .anChCfg 63 (2 ^ 16 - 1), .anAccFilter 127 255,
     .anAccReset 127 255, .anMmReset 127 255, .anMmMax 127, .anSlUnfreeze 4 255, .sliceBoundsWrite 4 3 (2 ^ 32 - 1),
     .converterPowerDown, .ethFrameReceived 1 [], .hwxRead 1 [], .hwxWrite 1, .memRead 1 [], .memWrite 1, .eventAck 1, .heartbeat 1,
     .pd 1, .open 1, .close 1, .netStopAll 255, .eventRetry, .eventGatherEnd, .heartbeatSend, .sessionTimeout 3, .ethLinkChange 1 3,
     .ethAddressAssigned 1 (2 ^ 32 - 1), .netPortEnable 1 255, .nmtStart, .nmtEnterPreOperational, .nmtStop, .nmtResetCommunication,
     .nmtResetNode, .sdoTransfer 1 false (2 ^ 16 - 1) 255 (2 ^ 32 - 1) [] [], .sync, .timeMessage [], .rpdo 7 [], .tpdoEventTimer 7,
     .canHeartbeatSend, .hostHeartbeatLapse, .emcyReceived 127 [], .canErrorStateChange 1 2 255 255] : List Instr).all WellFormed = true := by decide +kernel

theorem test_well_formed_4 :
    ([.busOffRecovery 1, .netCanRecover 1 255, .netCanRestart 1 255, .evCanAck (2 ^ 32 - 1), .memCanData 1 7 false (2 ^ 32 - 1) [] [],
     .ptpMessage 1 255 false 0, .ptpHoldover, .powerOn, .resetN (2 ^ 32 - 1), .resetRelease (2 ^ 16 - 1), .bootComplete,
     .dscClear 255, .dscLssAssign 255, .lssAssignmentEnd 255, .dscNmtAssign 127 (2 ^ 32 - 1), .nodeBootUp 127,
     .nodeHeartbeat 127 255, .nodeIdentifyResponse 127 (2 ^ 32 - 1) (2 ^ 32 - 1) (2 ^ 32 - 1) (2 ^ 32 - 1), .nodeIdentifyTimeout 127,
     .nodeIdentifyRetry 127, .nmtBootTimeExpired, .nodeHeartbeatLapse 127, .bankProgram, .bankProgramDone false [], .bankSwap,
     .bankConfirm, .trialTimeout, .flashProgramDone none, .flashEraseDone none, .blockReplaced false [], .nvOpErase, .nvOpProgram,
     .nvWpLo (2 ^ 64 - 1), .nvWpHi (2 ^ 64 - 1), .protLoad, .protStore, .nvOtpCustomer [] none, .nvAttestChallenge [], .evLogRecord,
     .evLogClear 255, .uaMode 7 255, .uartCharacterReceived 7 [], .uartRingStore 7, .uartCharacterSent 7 false,
     .uaRate 7 (2 ^ 32 - 1), .uaDataBits 7 255, .uaParity 7 255, .uaStop 7 255, .uaRlDiv 7 (2 ^ 16 - 1), .uaRxRd 7 (2 ^ 16 - 1),
     .uaTxWr 7 (2 ^ 16 - 1) false, .uaTxBreak 7 255, .vmonWarning (2 ^ 16 - 1), .vmonRecover (2 ^ 16 - 1), .vmonWindowExpired,
     .vmonReset (2 ^ 16 - 1), .devVmonMin, .dieTempReading (2 ^ 31 - 1) false, .sensorNoReading, .throttleGraceEnd, .throttleRelease,
     .devThrottleForce 255, .devShutdownClear 255, .devTempPeak, .clockFailure 3, .powerEstimate [], .cf0HostHeartbeat,
     .uartStartEdge 7 7, .uartCtsLow 7, .sosSearchResume, .powerLoss] : List Instr).all WellFormed = true := by decide +kernel

/-! ### Witnesses: for every clause of every statement that has hypotheses, a state and operands that meet them together -/

theorem witness_IdleStepTicks :
    (∃ (s : State), s.pending = []) :=
  ⟨on up, by decide +kernel⟩

theorem witness_ResetState :
    (∃ k, ((∀ u, u < 8 → k ≠ 0x201030 + u)) ∧ ((∀ i, i < 5 → k ≠ K.AN_SL_ROLE i)))
    ∧ (∃ u, u < 8)
    ∧ (∃ i, i < 5) :=
  ⟨⟨0, by decide +kernel, by decide +kernel⟩,
   ⟨7, by decide +kernel⟩,
   ⟨4, by decide +kernel⟩⟩

theorem witness_StepKeepsSound :
    (∃ (s : State) (t : State), Sound s ∧ step s = .next t) :=
  ⟨on up, _, ⟨by decide +kernel, rfl⟩, rfl⟩

theorem witness_SettleStoresOnly :
    (∃ (s : State), ∃ (m : Mach), ∃ a, ((∀ w, w ∈ m.stores → w.1 ≠ a)))
    ∧ (∃ (s : State), ∃ (m : Mach), ∃ a, ∃ b, ∃ before, ∃ after, m.stores = before ++ (a, b) :: after ∧ ((∀ w, w ∈ after → w.1 ≠ a)))
    ∧ (∃ (s : State) (m : Mach), m.stores = []) :=
  ⟨⟨on up, { up with stores := [(16, 5#8), (17, 6#8)] }, 18, by decide +kernel⟩,
   ⟨on up, { up with stores := [(16, 5#8), (16, 6#8), (17, 7#8)] }, 16, 6#8, [(16, 5#8)], [(17, 7#8)], by decide +kernel,
      by decide +kernel⟩,
   ⟨on up, up, by decide +kernel⟩⟩

theorem witness_EventsRecorded :
    (∃ (m : Mach), ∃ (code : Nat), ∃ (data : List Nat), ∃ k, k ≠ K.EV_LOG_DROPPED)
    ∧ (∃ (c : Consumer) (r : EvRec), c.queue.length ≤ 256 ∧ c.queue.length < 256)
    ∧ (∃ (c : Consumer) (r : EvRec), c.queue.length ≤ 256 ∧ c.queue.length = 256) :=
  ⟨⟨up, 0x2301, [], 1, by decide +kernel⟩,
   ⟨{ queue := List.replicate 255 (event 1) }, event 9, by decide +kernel, by decide +kernel⟩,
   ⟨{ queue := List.replicate 256 (event 1) }, event 9, by decide +kernel, by decide +kernel⟩⟩

theorem witness_AccessRights :
    (∃ (s : State) (m : Mach) (cf : Nat) (index : Nat) (sub : Nat) (r : ObjRow), s.quiet = m ∧ m.sdoOpen cf = true ∧ m.reach false =
        .open_ ∧ m.objStatus (index * 256 + sub) = .ok ∧ objRow (index * 256 + sub) = some r ∧ (r.acc = .ro ∨ r.acc = .const))
    ∧ (∃ (s : State) (m : Mach) (cf : Nat) (index : Nat) (sub : Nat) (r : ObjRow), s.quiet = m ∧ m.sdoOpen cf = true ∧ m.reach false =
        .open_ ∧ m.objStatus (index * 256 + sub) = .ok ∧ objRow (index * 256 + sub) = some r ∧ r.acc = .wo) :=
  ⟨⟨on up, _, 0, 0x3010, 1, _, rfl, by decide +kernel, by decide +kernel, by decide +kernel, (Option.some_get
      (by decide +kernel)).symm, by decide +kernel⟩,
   ⟨on up, _, 0, 0x2110, 2, _, rfl, by decide +kernel, by decide +kernel, by decide +kernel, (Option.some_get
      (by decide +kernel)).symm, by decide +kernel⟩⟩

theorem witness_RefusedWritesChangeNothing :
    (∃ (s : State) (m : Mach) (index : Nat) (sub : Nat) (k : Nat) (data : List Byte), s.quiet = m ∧ k = index * 256 + sub ∧
        answersAtTick k = false ∧ answersLate k data = false ∧ (m.sup = .reset ∨ m.sup = .booting))
    ∧ (∃ (s : State) (m : Mach) (index : Nat) (sub : Nat) (k : Nat) (data : List Byte), s.quiet = m ∧ k = index * 256 + sub ∧
        answersAtTick k = false ∧ answersLate k data = false ∧ ∃ (st : Status), (((m.sup = .restarting ∨ m.sup = .swapping) ∧
        urgentKey k = false ∧ st = .unavailable ∨ m.reach (urgentKey k) = .open_ ∧ m.objStatus k ≠ .ok ∧ st = m.objStatus k ∨ m.reach
        (urgentKey k) = .open_ ∧ m.objStatus k = .ok ∧ (∃ r, objRow k = some r ∧ r.acc.writable = true ∧ r.ty.lengthOk data.length =
        false) ∧ st = .length ∨ m.reach (urgentKey k) = .open_ ∧ m.objStatus k = .ok ∧ (∃ r, objRow k = some r ∧ r.acc.writable = true
        ∧ r.ty.lengthOk data.length = true ∧ r.rng.allows r.ty (r.ty.encode data) = false) ∧ st = .range))) :=
  ⟨⟨State.reset, _, 0x2310, 1, _, [5#8, 0#8], rfl, rfl, by decide +kernel, by decide +kernel, by decide +kernel⟩,
   ⟨on up, _, 0x2310, 1, _, [5#8], rfl, rfl, by decide +kernel, by decide +kernel, .length, Or.inr (Or.inr (Or.inl
      ⟨by decide +kernel, by decide +kernel, ⟨_, rfl, by decide +kernel, by decide +kernel⟩, rfl⟩))⟩⟩

theorem witness_SlotTable :
    (∃ (table : Nat), ∃ k, k < (slotsInUse table).length)
    ∧ (∃ (table : Nat), (slotsInUse table).length < 64)
    ∧ (∃ (mem : Mem) (m : Mach) (h : Nat) (a : Nat) (line : Nat) (it : Item), fld (it.s (K.HP_SLOT_TABLE h)) 0 2 = 0) :=
  ⟨⟨0x00050003, 1, by decide +kernel⟩,
   ⟨0x00050003, by decide +kernel⟩,
   ⟨{}, up, 0, 0, 0, item 5 0 .printing, by decide +kernel⟩⟩

theorem witness_FiredTime :
    (∃ (word : Nat) (scale : Nat) (trim : Int), -1024 ≤ trim ∧ 2 * ((word * scale : Nat) * (1024 + trim)) < 131072 * (2 * 65535 +
        1))
    ∧ (∃ (word : Nat) (scale : Nat) (trim : Int), -1024 ≤ trim ∧ 131072 * (2 * 65535 + 1) ≤ 2 * ((word * scale : Nat) * (1024 +
        trim))) :=
  ⟨⟨100, 128, -1024, by decide +kernel, by decide +kernel⟩,
   ⟨65535, 255, 511, by decide +kernel, by decide +kernel⟩⟩

theorem witness_Trackers :
    (∃ (m : Mach) (t : Nat) (code : Nat) (flag : Bool), code ≤ 4095)
    ∧ (∃ (s : State) (m : Mach) (t : Nat) (ty : ObjTy), s.quiet = m ∧ s.reads (K.AN_MM_MAX t) = some ty)
    ∧ (∃ (s : State) (m : Mach) (t : Nat), s.quiet = m ∧ s.admits (K.AN_MM_RESET t) (leBytes 1 1) = some 1) :=
  ⟨⟨up, 0, 4095, true, by decide +kernel⟩,
   ⟨on up, _, 127, _, rfl, rfl⟩,
   ⟨on up, _, 0, rfl, by decide +kernel⟩⟩

theorem witness_Attestation :
    (∃ (s : State) (m : Mach) (cf : Nat) (count : Nat) (v : Nat) (corr : List Nat), s.quiet = m ∧ m.sdoOpen cf = true ∧ m.reach
        false = .open_ ∧ m.objStatus K.NV_OTP_VENDOR = .ok ∧ v = setFld (m.flash.otp % 256 ^ 448) 0x60 32 0 ∧ ∃ i, i < 448 ∧ ((i <
        0x60 ∨ 0x80 ≤ i)))
    ∧ (∃ (s : State) (m : Mach) (data : List Byte) (v : Nat), s.quiet = m ∧ s.admits K.NV_ATTEST_CHALLENGE data = some v) :=
  ⟨⟨on up, _, 0, 448, _, [], rfl, by decide +kernel, by decide +kernel, by decide +kernel, rfl, 447, by decide +kernel,
      by decide +kernel⟩,
   ⟨on up, _, leBytes 32 7, 7, rfl, by decide +kernel⟩⟩

theorem witness_ItemDefined :
    (∃ (s : State) (m : Mach) (m1 : Mach) (data : List Byte) (v : Nat) (w : Nat) (it : Item), s.quiet = m ∧ s.admits
        K.IT_DEFINE_RECORD data = some v ∧ m.takenRecord (recordReserved (fld v 2 1 == 0x10)) 128 v = (w, m1) ∧ it =
        { id := fld w 0 2, record := w, order := m1.order } ∧ m1.defineRefusal it = none)
    ∧ (∃ (s : State) (m : Mach) (m1 : Mach) (a : Nat) (v : Nat) (w : Nat) (it : Item), s.quiet = m ∧ s.admits K.IT_DEFINE_ADDR
        (leBytes 8 a) = some a ∧ a + 128 ≤ 0xC0000000 ∧ v = s.mem.read a 128 ∧ m.takenRecord (recordReserved (fld v 2 1 == 0x10)) 128
        v = (w, m1) ∧ it = { id := fld w 0 2, record := w, order := m1.order } ∧ m1.defineRefusal it = none)
    ∧ (∃ (m : Mach) (mask : Nat) (v : Nat), v &&& mask = 0) :=
  ⟨⟨on up, _, _, leBytes 128 (record 5 0x10 0), record 5 0x10 0, _, _, rfl, by decide +kernel, rfl, rfl, by decide +kernel⟩,
   ⟨{ on up with mem := holds 0 (leBytes 128 (record 5 0x10 0)) }, _, _, 0, _, _, _, rfl, by decide +kernel, by decide +kernel, rfl,
      rfl, rfl, by decide +kernel⟩,
   ⟨up, 2, 1, by decide +kernel⟩⟩

theorem witness_ItemDefinitionRefused :
    (∃ (s : State) (m : Mach) (data : List Byte) (v : Nat) (code : Nat) (off : Nat) (it : Item), Sound s ∧ s.quiet = m ∧ s.admits
        K.IT_DEFINE_RECORD data = some v ∧ it = { id := fld v 0 2, record := v, order := m.order } ∧ m.defineRefusal it = some (code,
        off) ∧ v &&& recordReserved it.isSL = 0) :=
  ⟨on up, _, leBytes 128 (record 0 0x10 0), record 0 0x10 0, _, _, _, ⟨by decide +kernel, rfl⟩, rfl, by decide +kernel, rfl, rfl,
      by decide +kernel⟩

theorem witness_ItemCommandsComplete :
    (∃ (s : State) (m : Mach) (id : Nat) (it : Item), s.quiet = m ∧ s.admits K.IT_CANCEL (leBytes 2 id) = some id ∧ m.item? id =
        some it ∧ it.final = false ∧ it.state ≠ .printing ∧ it.state ≠ .admitted)
    ∧ (∃ (s : State) (m : Mach) (id : Nat) (it : Item), s.quiet = m ∧ s.admits K.IT_CANCEL (leBytes 2 id) = some id ∧ m.item? id =
        some it ∧ it.state = .printing ∧ it.station ≠ 0x10)
    ∧ (∃ (s : State) (m : Mach) (id : Nat) (it : Item), s.quiet = m ∧ s.admits K.IT_RELEASE (leBytes 2 id) = some id ∧ m.item? id =
        some it ∧ it.hold = true)
    ∧ (∃ (s : State) (m : Mach) (id : Nat) (it : Item), s.quiet = m ∧ s.admits K.IT_RETIRE (leBytes 2 id) = some id ∧ m.item? id =
        some it ∧ it.final = true)
    ∧ (∃ (s : State) (m : Mach) (st : Nat), s.quiet = m ∧ s.admits (K.IT_STATION_HOLD st) (leBytes 1 1) = some 1)
    ∧ (∃ (s : State) (m : Mach) (st : Nat), s.quiet = m ∧ s.admits (K.IT_STATION_HOLD st) (leBytes 1 0) = some 0 ∧ st < 4)
    ∧ (∃ (s : State) (m : Mach) (id : Nat), s.quiet = m ∧ s.admits K.IT_SELECT (leBytes 2 id) = some id) :=
  ⟨⟨on (withItems [item 5 0x10 .committed]), _, 5, _, rfl, by decide +kernel, rfl, by decide +kernel, by decide +kernel,
      by decide +kernel⟩,
   ⟨on (withItems [item 5 0 .printing]), _, 5, _, rfl, by decide +kernel, rfl, by decide +kernel, by decide +kernel⟩,
   ⟨on (withItems [item 5 0 .committed 2]), _, 5, _, rfl, by decide +kernel, rfl, by decide +kernel⟩,
   ⟨on (withItems [item 5 0x10 .done]), _, 5, _, rfl, by decide +kernel, rfl, by decide +kernel⟩,
   ⟨on up, _, 0, rfl, by decide +kernel⟩,
   ⟨on up, _, 3, rfl, by decide +kernel, by decide +kernel⟩,
   ⟨on up, _, 0xFFFF, rfl, by decide +kernel⟩⟩

theorem witness_ItemFlowCompletes :
    (∃ (s : State) (m : Mach) (m1 : Mach) (it : Item), s.quiet = m ∧ m.sup = .ready ∧ (∃ k, k < m.nClusters ∧ m.clusterUp k = true)
        ∧ m.retryStarved = m ∧ m.items.find? (fun x => x.state == .defined) = some it ∧ m.inFlightCount < m.flightRoom ∧ (m.modItem
        it.id (fun _ => m.renderingReads it)).reserve (m.renderingReads it) = some m1 ∧ ((it.station = 0x10 ∨ m1.speedFloor
        (m.renderingReads it) ≤ m1.initialSpeed (m.renderingReads it))))
    ∧ (∃ (s : State) (m : Mach) (id : Nat) (it : Item), s.quiet = m ∧ m.item? id = some it ∧ m.sup = .ready ∧ m.rendered it = true ∧
        ((it.vwinCount = 0 ∨ m.badIn it.vwinList (16 * it.vwinCount) = false)))
    ∧ (∃ (s : State) (m : Mach) (id : Nat) (it : Item), s.quiet = m ∧ m.item? id = some it ∧ m.admissible it = true)
    ∧ (∃ (s : State) (m : Mach) (id : Nat) (a : Nat) (it : Item) (o : Rat), s.quiet = m ∧ m.item? id = some it ∧ it.station ≠ 0x10 ∧
        it.state = .admitted ∧ m.feedAxis it.station = some a ∧ (m.axis a).begun = some (id, o))
    ∧ (∃ (s : State) (m : Mach) (id : Nat) (it : Item), s.quiet = m ∧ m.item? id = some it ∧ it.station = 0x10 ∧ it.state = .printing
        ∧ it.feedDone = true ∧ it.endDone = true ∧ it.length ≤ it.linesFired ∧ ((it.inspect = false ∨ it.inspected = true))) :=
  ⟨⟨on { ready up with items := [{ id := 5, record := record 5 0x10 0 }] }, _, _, _, rfl, by decide +kernel, ⟨0, by decide +kernel,
      by decide +kernel⟩, retryStarved_idle (by decide +kernel), rfl, by decide +kernel, reserve_first (n := 128) (by decide +kernel)
      (by decide +kernel) (by decide +kernel), .inl (by decide +kernel)⟩,
   ⟨on { withItems [] with items := [{ item 5 0x10 .rendering with span := some (0, 64) }] }, _, 5, _, rfl, rfl, by decide +kernel,
      by decide +kernel, by decide +kernel⟩,
   ⟨on { laser.put K.LS_SI_TRAY 0xFF with items := [item 5 0x10 .committed] }, _, 5, _, rfl, rfl, by decide +kernel⟩,
   ⟨on
      { up with items := [item 5 0 .admitted], axes := up.axes.modify 3 (fun x => { x with begun := some (5, 0) }), held := [(K.TH_FEED_AXIS 0, 3)] },
      _, 5, 3, _, 0, rfl, rfl, by decide +kernel, by decide +kernel, by decide +kernel, by decide +kernel⟩,
   ⟨on { up with items := [{ item 5 0x10 .printing with feedDone := true, endDone := true, linesFired := 1 }] }, _, 5, _, rfl, rfl,
      by decide +kernel, by decide +kernel, by decide +kernel, by decide +kernel, by decide +kernel, by decide +kernel⟩⟩

theorem witness_CloveCommandsComplete :
    (∃ (s : State) (m : Mach), s.quiet = m ∧ m.sup = .ready)
    ∧ (∃ (s : State) (m : Mach) (m1 : Mach) (cl : Nat) (cv : Nat) (b : Band) (f : EccFault), s.quiet = m ∧ ((m.cluster cl).cloves.getD
        cv { state := .off }).cur = some b ∧ m1 = (m.modCluster cl (fun c =>
        { c with cloves := c.cloves.modify cv (fun x => { x with cur := none, bands := (x.bands + 1) % 2 ^ 32, lastMark := m.time }) })).count
        (K.RD_CLOVE_BANDS (17 * cl + cv)) ∧ b.discard = true)
    ∧ (∃ (s : State) (m : Mach) (m1 : Mach) (cl : Nat) (cv : Nat) (b : Band) (it : Item), s.quiet = m ∧ ((m.cluster cl).cloves.getD cv
        { state := .off }).cur = some b ∧ m1 = (m.modCluster cl (fun c =>
        { c with cloves := c.cloves.modify cv (fun x => { x with cur := none, bands := (x.bands + 1) % 2 ^ 32, lastMark := m.time }) })).count
        (K.RD_CLOVE_BANDS (17 * cl + cv)) ∧ b.discard = false ∧ m.ledger.any (fun x => x.same b) = true ∧ m.item? b.item = some it ∧
        m1.bandInputBad it b = false)
    ∧ (∃ (s : State) (m : Mach) (cl : Nat) (cv : Nat), s.quiet = m ∧ cl < m.nClusters ∧ ((m.cluster cl).cloves.getD cv
        { state := .off }).lastMark + 200 ≤ m.time)
    ∧ (∃ (s : State) (m : Mach) (cl : Nat) (cv : Nat), s.quiet = m ∧ cl < m.nClusters)
    ∧ (∃ (s : State) (m : Mach) (cl : Nat), s.quiet = m ∧ ((m.cluster cl).cloves.getD 16 { state := .off }).state = .inService ∧
        ((m.cluster cl).cloves.getD 16 { state := .off }).loading = true ∧ ∃ (m1 : Mach), m1 = m.modCluster cl (fun c =>
        { c with cloves := c.cloves.modify 16 (fun x => { x with loading := false, lastMark := m.time }) }))
    ∧ (∃ (s : State) (m : Mach) (m1 : Mach) (m2 : Mach) (m3 : Mach) (cl : Nat) (cv : Nat) (k : Nat) (j : Nat) (v : Clove), s.quiet = m
        ∧ m.runCluster cl = m1 ∧ (m1.cluster cl).cloves.getD cv { state := .off } = v ∧ v.serving = true ∧ v.cur = none ∧ v.deque = []
        ∧ (m1.cluster cl).reloading = false ∧ m1.clusterUp cl = true ∧ ((∀ t, v.lastRemote = some t → t + 2 ≤ m1.time)) ∧ m2 =
        m1.modCluster cl (fun c => { c with cloves := c.cloves.modify cv (fun x => { x with lastRemote := some m1.time }) }) ∧
        ((List.range m2.nClusters).filter (fun k => k != cl && m2.clusterUp k && (m2.cluster k).gen == (m1.cluster cl).gen)) = [])
    ∧ (∃ (s : State) (m : Mach) (m1 : Mach) (m2 : Mach) (m3 : Mach) (cl : Nat) (cv : Nat) (k : Nat) (j : Nat) (v : Clove), s.quiet = m
        ∧ m.runCluster cl = m1 ∧ (m1.cluster cl).cloves.getD cv { state := .off } = v ∧ v.serving = true ∧ v.cur = none ∧ v.deque = []
        ∧ (m1.cluster cl).reloading = false ∧ m1.clusterUp cl = true ∧ ((∀ t, v.lastRemote = some t → t + 2 ≤ m1.time)) ∧ m2 =
        m1.modCluster cl (fun c => { c with cloves := c.cloves.modify cv (fun x => { x with lastRemote := some m1.time }) }) ∧
        (List.range m2.nClusters).filter (fun k => k != cl && m2.clusterUp k && (m2.cluster k).gen == (m1.cluster cl).gen) = [k] ∧
        (m2.cluster k).backlog ≠ 0 ∧ (m2.cluster k).deepest = some j ∧ m2.steal k j cl cv = (m3, true)) :=
  ⟨⟨on up, _, rfl, by decide +kernel⟩,
   ⟨on (withClove up 0 3 { state := .inService, cur := some { band 5 with discard := true } }), _, _, 0, 3, _, .none, rfl, rfl, rfl,
      by decide +kernel⟩,
   ⟨on { withClove up 0 3 { state := .inService, cur := some (band 5) } with ledger := [band 5], items := [item 5 0 .rendering] }, _,
      _, 0, 3, _, _, rfl, rfl, rfl, by decide +kernel, by decide +kernel, rfl, by decide +kernel⟩,
   ⟨on { up with time := 200 }, _, 3, 16, rfl, by decide +kernel, by decide +kernel⟩,
   ⟨on up, _, 3, 15, rfl, by decide +kernel⟩,
   ⟨on (withClove up 0 16 { state := .inService, loading := true }), _, 0, rfl, by decide +kernel, by decide +kernel, _, rfl⟩,
   ⟨on (rdy (withClove up 0 3 { state := .inService }) (rdyCluster 0) vReady), _, _, _, up, 0, 3, 0, 0, _, rfl, rfl, rfl,
      by decide +kernel, by decide +kernel, by decide +kernel, by decide +kernel, by decide +kernel, fun _ h => (Option.some_ne_none _
      (h.symm.trans (by decide +kernel))).elim, rfl, by decide +kernel⟩,
   ⟨on (rdy (rdy (withClove (withClove up 0 3 { state := .inService }) 1 2
      { state := .inService, deque := [band 5, band 6, band 7, band 8] }) (rdyCluster 0) vReady) (rdyCluster 1) vReady), _, _, _, _,
      0, 3, 1, 2, _, rfl, rfl, rfl, by decide +kernel, by decide +kernel, by decide +kernel, by decide +kernel, by decide +kernel, fun
      _ h => (Option.some_ne_none _ (h.symm.trans (by decide +kernel))).elim, rfl, by decide +kernel, by decide +kernel,
      by decide +kernel, rfl⟩⟩

theorem witness_ClusterCommandsComplete :
    (∃ (s : State) (m : Mach) (cl : Nat) (off : Nat) (home : Nat), s.quiet = m ∧ cl < m.nClusters ∧ off < 0x100000 ∧ home =
        (m.cluster cl).serves (off / 256) ∧ off / 256 ∈ (m.cluster cl).retired)
    ∧ (∃ (s : State) (m : Mach) (cl : Nat) (off : Nat) (home : Nat), s.quiet = m ∧ cl < m.nClusters ∧ off < 0x100000 ∧ home =
        (m.cluster cl).serves (off / 256) ∧ off / 256 ∉ (m.cluster cl).retired ∧ ∃ (m1 : Mach), m1 = ((m.modCluster cl (fun c =>
        c.retire (off / 256))).put (K.RD_CL_SRAM_RETIRED cl) (min 255 (m.g (K.RD_CL_SRAM_RETIRED cl) + 1))).raise 0x2404 [cl, off /
        256 * 256] ∧ home < 0x400)
    ∧ (∃ (s : State) (m : Mach) (cl : Nat) (off : Nat) (home : Nat), s.quiet = m ∧ cl < m.nClusters ∧ off < 0x100000 ∧ home =
        (m.cluster cl).serves (off / 256) ∧ off / 256 ∉ (m.cluster cl).retired ∧ ∃ (m1 : Mach), m1 = ((m.modCluster cl (fun c =>
        c.retire (off / 256))).put (K.RD_CL_SRAM_RETIRED cl) (min 255 (m.g (K.RD_CL_SRAM_RETIRED cl) + 1))).raise 0x2404 [cl, off /
        256 * 256] ∧ 0x400 ≤ home ∧ home < 0x510)
    ∧ (∃ (s : State) (m : Mach) (cl : Nat) (off : Nat) (home : Nat), s.quiet = m ∧ cl < m.nClusters ∧ off < 0x100000 ∧ home =
        (m.cluster cl).serves (off / 256) ∧ off / 256 ∉ (m.cluster cl).retired ∧ ∃ (m1 : Mach), m1 = ((m.modCluster cl (fun c =>
        c.retire (off / 256))).put (K.RD_CL_SRAM_RETIRED cl) (min 255 (m.g (K.RD_CL_SRAM_RETIRED cl) + 1))).raise 0x2404 [cl, off /
        256 * 256] ∧ 0x510 ≤ home ∧ (∀ n, ((m1.cluster cl).cloves.getD n { state := .off }).cur = none))
    ∧ (∃ (s : State) (m : Mach) (cl : Nat), s.quiet = m ∧ (m.cluster cl).reloading = true)
    ∧ (∃ (s : State) (m : Mach) (rates : List Nat) (v : Nat), s.quiet = m ∧ v = (if m.renderDemand rates = 0 then 0xFFFF else min
        0xFFFE (m.clovesInService * m.cloveRate * 1000000 * 100 / m.renderDemand rates)))
    ∧ (∃ (s : State) (m : Mach) (cl : Nat), s.quiet = m ∧ s.admits (K.RD_CL_CTRL cl) (leBytes 1 1) = some 1 ∧ ((m.ready (rdyCluster
        cl) = vReady ∨ m.ready (rdyCluster cl) = vDegraded)))
    ∧ (∃ (s : State) (m : Mach) (cl : Nat), s.quiet = m ∧ m.drained cl = true)
    ∧ (∃ (s : State) (m : Mach) (cl : Nat), s.quiet = m ∧ s.admits (K.RD_CL_CTRL cl) (leBytes 1 2) = some 2 ∧ ((m.ready (rdyCluster
        cl) = vOff ∨ m.ready (rdyCluster cl) = vFault)))
    ∧ (∃ (s : State) (m : Mach) (cl : Nat) (k : Nat), s.quiet = m ∧ (m.cluster cl).phase = .copying ∧ k = 2 * (m.cluster cl).loadSel +
        1)
    ∧ (∃ (s : State) (m : Mach) (m1 : Mach) (cl : Nat) (failed : Nat) (sp : Nat) (n : Nat) (cs : List Clove), s.quiet = m ∧ (m.cluster
        cl).phase = .selfTest ∧ selfTestCloves m.hasSpares (m.cluster cl).spareOf failed m.time (m.cluster cl).cloves = (cs, sp) ∧ n =
        (cs.filter (fun v => v.state == .inService)).length ∧ m1 = (m.modCluster cl (fun c =>
        { c with cloves := cs, spareOf := sp, phase := .idle, retired := [], replaced := [], reloading := false, verified := true, gen := c.loadGen })).put
        (K.RD_CL_SRAM_RETIRED cl) 0)
    ∧ (∃ (s : State) (m : Mach) (cl : Nat) (n : Nat), s.quiet = m ∧ s.admits (K.RD_CL_CTRL cl) (leBytes 1 3) = some 3 ∧ m.ready
        (rdyCluster cl) = vOff ∧ (m.cluster cl).verified = true ∧ n = ((m.cluster cl).cloves.filter (fun v => v.state ==
        .inService)).length ∧ ∃ (m1 : Mach), m1 = m.modCluster cl (fun c =>
        { c with phase := .idle, cloves := c.cloves.map (fun v => { v with lastMark := m.time }) }))
    ∧ (∃ (s : State) (m : Mach) (gen : Nat) (cl : Nat), s.quiet = m ∧ s.admits K.RD_GEN_SELECT (leBytes 4 gen) = some gen ∧ cl <
        m.nClusters ∧ m.isUp (rdyCluster cl) = true ∧ (m.cluster cl).gen = gen) :=
  ⟨⟨on (up.modCluster 1 (fun c => { c with retired := [2] })), _, 1, 767, _, rfl, by decide +kernel, by decide +kernel, rfl,
      by decide +kernel⟩,
   ⟨on up, _, 3, 0x3FFFF, _, rfl, by decide +kernel, by decide +kernel, rfl, by decide +kernel, _, rfl, by decide +kernel⟩,
   ⟨on up, _, 3, 0x50FFF, _, rfl, by decide +kernel, by decide +kernel, rfl, by decide +kernel, _, rfl, by decide +kernel,
      by decide +kernel⟩,
   ⟨on up, _, 3, 0x51000, _, rfl, by decide +kernel, by decide +kernel, rfl, by decide +kernel, _, rfl, by decide +kernel,
      idle_cloves (by decide +kernel)⟩,
   ⟨on (up.modCluster 1 (fun c => { c with reloading := true })), _, 1, rfl, by decide +kernel⟩,
   ⟨on up, _, [], _, rfl, rfl⟩,
   ⟨on (rdy up (rdyCluster 2) vReady), _, 2, rfl, by decide +kernel, by decide +kernel⟩,
   ⟨on (up.modCluster 1 (fun c => { c with phase := .draining })), _, 1, rfl, by decide +kernel⟩,
   ⟨on (rdy up (rdyCluster 2) vFault), _, 2, rfl, by decide +kernel, by decide +kernel⟩,
   ⟨on (up.modCluster 1 (fun c => { c with phase := .copying })), _, 1, _, rfl, by decide +kernel, rfl⟩,
   ⟨on (up.modCluster 1 (fun c => { c with phase := .selfTest })), _, _, 1, 1, _, _, _, rfl, by decide +kernel, rfl, rfl, rfl⟩,
   ⟨on (up.modCluster 2 (fun c => { c with verified := true })), _, 2, _, rfl, by decide +kernel, by decide +kernel,
      by decide +kernel, rfl, _, rfl⟩,
   ⟨on (rdy (up.modCluster 2 (fun c => { c with gen := 7 })) (rdyCluster 2) vDegraded), _, 7, 2, rfl, by decide +kernel,
      by decide +kernel, by decide +kernel, by decide +kernel⟩⟩

theorem witness_EnergyCommandsComplete :
    (∃ (s : State) (m : Mach) (id : Nat) (it : Item), s.quiet = m ∧ m.item? id = some it ∧ it.state = .rendering ∧ it.station ≠ 0x10
        ∧ it.plan.complete = false ∧ it.plan.heads ≠ [] ∧ it.plan.heads.all HeadPlan.reported = true)
    ∧ (∃ (s : State) (m : Mach) (index : Nat) (sub : Nat) (v : Nat) (st : Nat) (data : List Byte), s.quiet = m ∧ s.admits (index * 256
        + sub) data = some v ∧ renderInput (index * 256 + sub) = true ∧ 0x2700 ≤ index ∧ sub < 256 ∧ (index - 0x2700) % 0x20 ≠ 0x01 ∧
        (m.put (index * 256 + sub) v).inputStation (index * 256 + sub) = some st)
    ∧ (∃ (s : State) (m : Mach) (hp : Nat) (v : Nat), s.quiet = m ∧ s.admits (K.HP_TRIM_UPPER hp) (leBytes 2 v) = some v ∧ sext 16
        (m.g (K.HP_TRIM_LOWER hp)) ≤ sext 16 v)
    ∧ (∃ (s : State) (m : Mach) (hp : Nat) (v : Nat), s.quiet = m ∧ s.admits (K.HP_TRIM_LOWER hp) (leBytes 2 v) = some v ∧ sext 16 v ≤
        sext 16 (m.g (K.HP_TRIM_UPPER hp)))
    ∧ (∃ (s : State) (m : Mach) (hp : Nat), s.quiet = m ∧ s.admits (K.HP_TRIM_UNFREEZE hp) (leBytes 1 1) = some 1)
    ∧ (∃ (s : State) (m : Mach) (hp : Nat), s.quiet = m ∧ s.admits (K.HP_PLAN_UNFREEZE hp) (leBytes 1 1) = some 1)
    ∧ (∃ (s : State) (m : Mach) (hp : Nat), s.quiet = m ∧ s.admits (K.HP_GAIN_RESET hp) (leBytes 1 1) = some 1)
    ∧ (∃ (s : State) (m : Mach) (hp : Nat) (v : Nat) (k : Nat) (upper : Bool), s.quiet = m ∧ k = (if upper then K.HP_GAIN_UPPER hp
        else K.HP_GAIN_LOWER hp) ∧ s.admits k (leBytes 2 v) = some v)
    ∧ (∃ (s : State) (m : Mach) (hp : Nat) (thm : Nat) (t : Nat) (it : Item), s.quiet = m ∧ (m.head hp).thmBad.getD thm none = some t
        ∧ m.item? (m.g (K.HP_ITEM hp)) = some it ∧ (m.head hp).thmRaised.getD thm false = false ∧ t + 1000 * it.s (K.THM_STALE hp) <
        m.time ∧ thm < it.s (K.THM_COUNT hp)) :=
  ⟨⟨on
      { up with items := [{ item 5 0 .rendering with plan := { heads := [{ head := 0, dots := 64, addr := 0, sums := 0, reported := true }] } }] },
      _, 5, _, rfl, rfl, by decide +kernel, by decide +kernel, by decide +kernel, by decide +kernel, by decide +kernel⟩,
   ⟨on up, _, 0x2703, 2, 5, 0, leBytes 512 5, rfl, by decide +kernel, by decide +kernel, by decide +kernel, by decide +kernel,
      by decide +kernel, by decide +kernel⟩,
   ⟨on up, _, 0, 128, rfl, by decide +kernel, by decide +kernel⟩,
   ⟨on up, _, 3, 0, rfl, by decide +kernel, by decide +kernel⟩,
   ⟨on up, _, 0, rfl, by decide +kernel⟩,
   ⟨on up, _, 0, rfl, by decide +kernel⟩,
   ⟨on up, _, 0, rfl, by decide +kernel⟩,
   ⟨on up, _, 0, 6144, _, true, rfl, rfl, by decide +kernel⟩,
   ⟨on
      { up with time := 5000000, items := [{ item 5 0 .printing with snap := [(K.THM_COUNT 0, 8), (K.THM_STALE 0, 100)] }], heads := up.heads.modify 0 (fun x => { x with thmBad := [some 1, none, none, none, none, none, none, none] }), dict := (up.put (K.HP_ITEM 0) 5).dict },
      _, 0, 0, _, _, rfl, rfl, rfl, by decide +kernel, by decide +kernel, by decide +kernel⟩⟩

theorem witness_HeadModeCompletes :
    (∃ (s : State) (m : Mach) (hp : Nat) (v : Nat), s.quiet = m ∧ s.admits (K.HP_MODE hp) (leBytes 1 v) = some v ∧ m.g (K.HP_MODE
        hp) = 0 ∧ ((v = 2 ∨ v = 1 ∧ m.g (K.HP_LANES hp) ≤ 8)) ∧ ∃ (m1 : Mach) (m2 : Mach), m1 = (m.put (K.HP_MODE hp) v).sample
        (hpConfigKeys hp) ∧ m2 = m1.put (K.HP_LOAD_TIME hp) (m1.loadTime hp))
    ∧ (∃ (s : State) (m : Mach) (hp : Nat) (v : Nat), s.quiet = m ∧ s.admits (K.HP_MODE hp) (leBytes 1 v) = some v ∧ m.g (K.HP_MODE
        hp) ≠ 0 ∧ v = 0 ∧ m.portBusy hp = false) :=
  ⟨⟨on (up.put (K.HP_MODE 0) 0), _, 0, 2, rfl, by decide +kernel, by decide +kernel, .inl rfl, _, _, rfl, rfl⟩,
   ⟨on ((up.put (K.HP_MODE 0) 2).put (K.HP_ITEM 0) 0), _, 0, 0, rfl, by decide +kernel, by decide +kernel, by decide +kernel,
      by decide +kernel⟩⟩

theorem witness_FiringCommandsComplete :
    (∃ (s : State) (m : Mach) (hp : Nat) (r : Nat) (t : Nat) (due : List (Nat × Nat)) (bad : Bool) (it : Item), s.quiet = m ∧
        (m.head hp).due = (r, t) :: due ∧ hp < m.nHeads ∧ t ≤ m.now10 + 99 ∧ m.item? (m.g (K.HP_ITEM hp)) = some it)
    ∧ (∃ (s : State) (m : Mach) (m1 : Mach) (hp : Nat) (g : Nat) (st : Nat) (c : Nat), s.quiet = m ∧ hp < m.nHeads ∧ (m.head
        hp).pepper = false ∧ m.g (K.HP_MODE hp) ≠ 0 ∧ m1 = (((((m.strobesOff hp).modHead hp (fun x => { x with pepper := true })).puts
        [(K.HP_PEPPER_STATE hp, c), (K.HP_PEPPER_GROUP hp, g)]).count (K.HP_PEPPER_TRIPS hp)).raise (0x2500 + 0x80 * hp + c)
        [g]).refreshHead hp ∧ m1.stationOf hp = some st ∧ c = 1)
    ∧ (∃ (s : State) (m : Mach) (m1 : Mach) (hp : Nat) (g : Nat) (st : Nat) (c : Nat), s.quiet = m ∧ hp < m.nHeads ∧ (m.head
        hp).pepper = false ∧ m.g (K.HP_MODE hp) ≠ 0 ∧ m1 = (((((m.strobesOff hp).modHead hp (fun x => { x with pepper := true })).puts
        [(K.HP_PEPPER_STATE hp, c), (K.HP_PEPPER_GROUP hp, g)]).count (K.HP_PEPPER_TRIPS hp)).raise (0x2500 + 0x80 * hp + c)
        [g]).refreshHead hp ∧ m1.stationOf hp = some st ∧ c = 2 ∧ m.g (K.HP_PEPPER_DUTY_LIMIT hp) < 100)
    ∧ (∃ (s : State) (m : Mach) (hp : Nat), s.quiet = m ∧ s.admits (K.HP_PEPPER_CLEAR hp) (leBytes 1 1) = some 1 ∧ (m.head hp).pepper
        = true)
    ∧ (∃ (s : State) (m : Mach) (hp : Nat) (ty : ObjTy), s.quiet = m ∧ s.reads (K.HP_PEPPER_DUTY_MAX hp) = some ty) :=
  ⟨⟨on
      { ((up.put (K.HP_ITEM 0) 5).put (K.TH_SAVE_ENABLE 0) 0) with items := [item 5 0 .printing], heads := up.heads.modify 0 (fun x => { x with due := [(0, 0)] }) },
      _, 0, 0, 0, _, false, _, rfl, rfl, by decide +kernel, by decide +kernel, rfl⟩,
   ⟨on headed, _, _, 0, 1, 0, 1, rfl, by decide +kernel, by decide +kernel, by decide +kernel, rfl, by decide +kernel,
      by decide +kernel⟩,
   ⟨on (headed.put (K.HP_PEPPER_DUTY_LIMIT 0) 50), _, _, 0, 1, 0, 2, rfl, by decide +kernel, by decide +kernel, by decide +kernel,
      rfl, by decide +kernel, by decide +kernel, by decide +kernel⟩,
   ⟨on { up with heads := up.heads.modify 0 (fun x => { x with pepper := true }) }, _, 0, rfl, by decide +kernel, by decide +kernel⟩,
   ⟨on up, _, 0, _, rfl, rfl⟩⟩

theorem witness_HeadInsertionCompletes :
    (∃ (s : State) (m : Mach) (m1 : Mach) (hp : Nat), s.quiet = m ∧ hp < m.nHeads ∧ m1 = (m.modHead hp (fun x =>
        { x with presN := false, presSince := m.time })).put (K.HP_PRESENT hp) 1)
    ∧ (∃ (s : State) (m : Mach) (hp : Nat), s.quiet = m ∧ (m.head hp).fit = .seen ∧ (m.head hp).fitEdge + 50000 ≤ m.time)
    ∧ (∃ (s : State) (m : Mach) (hp : Nat), s.quiet = m ∧ (m.head hp).fit = .powered ∧ (m.head hp).fitEdge + 70000 ≤ m.time)
    ∧ (∃ (s : State) (m : Mach) (hp : Nat) (data : List Byte), s.quiet = m ∧ (m.head hp).fit = .reading ∧ data.length = m.h
        (K.HP_ID_LEN hp))
    ∧ (∃ (s : State) (m : Mach) (hp : Nat) (data : List Byte), s.quiet = m ∧ (m.head hp).fit = .reading)
    ∧ (∃ (s : State) (m : Mach) (hp : Nat), s.quiet = m ∧ (m.head hp).fit = .waitRetry ∧ (m.head hp).fitNext ≤ m.time)
    ∧ (∃ (s : State) (m : Mach) (hp : Nat), s.quiet = m ∧ hp < m.nHeads ∧ (((m.head hp).fit = .powered ∨ (m.head hp).fit = .reading ∨
        (m.head hp).fit = .waitRetry ∨ (m.head hp).fit = .scanning ∨ (m.head hp).fit = .done ∨ (m.head hp).fit = .failed))) :=
  ⟨⟨on up, _, _, 3, rfl, by decide +kernel, rfl⟩,
   ⟨on { up with time := 50000, heads := up.heads.modify 0 (fun x => { x with fit := .seen }) }, _, 0, rfl, by decide +kernel,
      by decide +kernel⟩,
   ⟨on { up with time := 70000, heads := up.heads.modify 0 (fun x => { x with fit := .powered }) }, _, 0, rfl, by decide +kernel,
      by decide +kernel⟩,
   ⟨on { up with heads := up.heads.modify 0 (fun x => { x with fit := .reading }) }, _, 0, List.replicate 32 0, rfl,
      by decide +kernel, by decide +kernel⟩,
   ⟨on { up with heads := up.heads.modify 0 (fun x => { x with fit := .reading }) }, _, 0, [], rfl, by decide +kernel⟩,
   ⟨on { up with heads := up.heads.modify 0 (fun x => { x with fit := .waitRetry }) }, _, 0, rfl, by decide +kernel,
      by decide +kernel⟩,
   ⟨on { up with heads := up.heads.modify 3 (fun x => { x with fit := .done }) }, _, 3, rfl, by decide +kernel, by decide +kernel⟩⟩

theorem witness_StationConfigurationCompletes :
    (∃ (s : State) (m : Mach) (st : Nat), s.quiet = m ∧ s.admits (K.TH_TANDEM_RESTORE st) (leBytes 1 1) = some 1 ∧ m.g (K.TH_ST_MODE
        st) = 2 ∧ ((∀ h, h ∈ m.stationPorts st → m.isUp (rdyHead h) = true)))
    ∧ (∃ (s : State) (m : Mach) (st : Nat), s.quiet = m ∧ s.admits (K.TH_CONFIGURED st) (leBytes 1 1) = some 1 ∧ m.g (K.TH_CONFIGURED
        st) = 0 ∧ m.stationRefused st = false)
    ∧ (∃ (s : State) (m : Mach) (st : Nat), s.quiet = m ∧ s.admits (K.TH_CONFIGURED st) (leBytes 1 0) = some 0 ∧ m.g (K.TH_CONFIGURED
        st) = 1 ∧ m.itemsOf st Item.inFlight = []) :=
  ⟨⟨on ((ready up).put (K.TH_ST_MODE 0) 2), _, 0, rfl, by decide +kernel, by decide +kernel, by decide +kernel⟩,
   ⟨on (up.puts [(K.TH_CONFIGURED 0, 0), (K.TH_PORTS 0, 1), (K.TH_LEAD 0, 0), (K.TH_FEED_AXIS 0, 0), (K.TH_LINE_COUNTS 0, 100)]), _,
      0, rfl, by decide +kernel, by decide +kernel, by decide +kernel⟩,
   ⟨on ((ready up).put (K.TH_CONFIGURED 0) 1), _, 0, rfl, by decide +kernel, by decide +kernel, by decide +kernel⟩⟩

theorem witness_DotCommandsComplete :
    (∃ (s : State) (m : Mach) (hp : Nat) (d : Nat) (g : Nat) (on : Nat) (st : Nat), s.quiet = m ∧ hp < m.nHeads ∧ m.scanMayStart hp
        = true ∧ nextDot (m.headDots hp) (m.head hp).scan.dot (m.head hp).scan.valid = some d ∧ m.scanTimes hp = (on, st) ∧ g =
        groupOf ((List.range (m.g (K.HP_SG_GROUPS hp))).map (fun i => m.g (K.HP_SG_START hp i))) d ∧ m.strobesForced hp = false)
    ∧ (∃ (s : State) (m : Mach) (hp : Nat), s.quiet = m ∧ hp < m.nHeads ∧ (m.head hp).scan.pulsing = true ∧ (m.head hp).scan.stepEnd ≤
        m.now10)
    ∧ (∃ (s : State) (m : Mach) (hp : Nat), s.quiet = m ∧ s.admits (K.HP_DOT_REF_TAKE hp) (leBytes 1 1) = some 1)
    ∧ (∃ (s : State) (m : Mach) (hp : Nat) (v : Nat) (data : List Byte), s.quiet = m ∧ s.admits (K.HP_DOT_MAP hp) data = some v ∧ ((∀
        d, d < (if m.g (K.HP_MODE hp) = 0 then m.g (K.HP_DOTS hp) else m.headDots hp) → dotClass v d < 6)))
    ∧ (∃ (s : State) (m : Mach) (hp : Nat) (which : Nat) (v : Nat) (bs : List Byte), s.quiet = m ∧ bs = leBytes (if which = 0 then 1
        else 2) v ∧ s.admits (hidingLimitKey hp which) bs = some v) :=
  ⟨⟨on (headed.put (K.HP_SCAN_ENABLE 0) 1), _, 0, 0, 0, _, _, rfl, by decide +kernel, by decide +kernel, by decide +kernel, rfl,
      by decide +kernel, by decide +kernel⟩,
   ⟨on { up with heads := up.heads.modify 0 (fun x => { x with scan := { x.scan with pulsing := true } }) }, _, 0, rfl,
      by decide +kernel, by decide +kernel, by decide +kernel⟩,
   ⟨on (up.put (K.HP_MODE 0) 1), _, 0, rfl, by decide +kernel⟩,
   ⟨on up, _, 0, 0, List.replicate 4096 0, rfl, by decide +kernel, fun d _ => (by simp [dotClass, fld] : dotClass 0 d < 6)⟩,
   ⟨on up, _, 0, 0, 3, _, rfl, rfl, by decide +kernel⟩⟩

theorem witness_CalibrationCompletes :
    (∃ (s : State) (m : Mach) (m1 : Mach) (v : Nat), s.quiet = m ∧ s.admits K.TH_CAL_ITEM (leBytes 2 v) = some v ∧ m1 = ((m.put
        K.TH_CAL_ITEM v).put K.TH_CAL_STATE 1).put K.TH_CAL_FAIL 0 ∧ ((m1.item? v = none ∨ ∃ it, m1.item? v = some it ∧ m1.calGate it
        = true)))
    ∧ (∃ (s : State) (m : Mach) (v : Nat) (off : Nat), s.quiet = m ∧ s.admits K.TH_CAL_APPLY (leBytes 1 v) = some v ∧ m.g
        K.TH_CAL_STATE = 3 ∧ m.calResult.1 = 2 ∧ (off : Int) = clampI 0 1048575 ((m.g (K.TH_TANDEM_OFFSET m.calResult.2.2) : Int) -
        m.gi 32 K.TH_CAL_TANDEM_ERR))
    ∧ (∃ (s : State) (m : Mach), s.quiet = m ∧ s.admits K.TH_CAL_CTRL [1#8] = some 1)
    ∧ (∃ (s : State) (m : Mach), s.quiet = m ∧ s.admits K.TH_CAL_CTRL [2#8] = some 2)
    ∧ (∃ (s : State) (m : Mach), s.quiet = m ∧ s.admits K.TH_CAL_CTRL [3#8] = some 3)
    ∧ (∃ (s : State) (m : Mach), s.quiet = m ∧ s.admits K.TH_CAL_CTRL [4#8] = some 4)
    ∧ (∃ (s : State) (m : Mach) (n : Nat) (x : Nat) (y : Nat) (seq : Nat) (rest : List (Nat × Nat)), s.quiet = m ∧ m.calStoring = (n,
        x) :: rest ∧ seq = fld (m.calSets.getD n 0) 0 4 + 1 ∧ y = calSealed (setFld x 0 4 seq)) :=
  ⟨⟨on up, _, _, 0, rfl, by decide +kernel, rfl, by decide +kernel⟩,
   ⟨on { up.put K.TH_CAL_STATE 3 with calResult := (2, 0, 0) }, _, 1, 0, rfl, by decide +kernel, by decide +kernel,
      by decide +kernel, by decide +kernel⟩,
   ⟨on up, _, rfl, by decide +kernel⟩,
   ⟨on up, _, rfl, by decide +kernel⟩,
   ⟨on up, _, rfl, by decide +kernel⟩,
   ⟨on up, _, rfl, by decide +kernel⟩,
   ⟨on { up with calStoring := [(0, 5)] }, _, _, _, _, _, _, rfl, rfl, rfl, rfl⟩⟩

theorem witness_MediaCommandsComplete :
    (∃ (s : State) (m : Mach) (st : Nat) (t : Nat), s.quiet = m ∧ (m.chan st 0).restBack = some t ∧ (m.chan st 0).out = true ∧
        m.feedAtRest st = true ∧ m.configured st = true ∧ t + 100000 ≤ m.time)
    ∧ (∃ (s : State) (m : Mach) (m1 : Mach) (st : Nat) (r : AlignRun), s.quiet = m ∧ m.configured st = true ∧ m.seekOver st = true ∧
        (m.sta st).aligns.find? (fun r => r.seek.isSome) = some r ∧ m1 = (m.stationHalt st).modSta st (fun x =>
        { x with aligns := x.aligns.filter (fun r => r.seek.isNone) }))
    ∧ (∃ (s : State) (m : Mach) (st : Nat) (a : Nat) (v : Rat), s.quiet = m ∧ s.admits (K.TH_LEARN st) (leBytes 1 1) = some 1 ∧
        m.feedAxis st = some a ∧ m.itemsOf st (fun it => it.state == .admitted || it.state == .printing) = [] ∧ (m.sta st).cut = .none
        ∧ m.configured st = true ∧ m.axEnabled a = true ∧ v = m.feedSpeed st (m.g (K.TH_LEARN_SPEED st)))
    ∧ (∃ (s : State) (m : Mach) (st : Nat) (ch : Nat), s.quiet = m ∧ s.admits (K.SNS_UNFREEZE st ch) (leBytes 1 1) = some 1)
    ∧ (∃ (s : State) (m : Mach) (st : Nat) (p : Int) (a : Rat) (b : Rat), s.quiet = m ∧ m.hasRibbon st = true ∧ m.ribbonThere st =
        true ∧ (m.sta st).heldAt = none ∧ (m.sta st).window = some (p, a, b) ∧ 16 * (m.g (K.TH_RIB_WIN st) : Int) ≤ m.linePos st - p) :=
  ⟨⟨on ({ headed with time := 200000 }.modSta 0 (fun x => { x with chans := [{ out := true, restBack := some 0 }, {}] })), _, 0, 0,
      rfl, by decide +kernel, by decide +kernel, by decide +kernel, by decide +kernel, by decide +kernel⟩,
   ⟨on (headed.modSta 0 (fun x => { x with aligns := [{ item := 5, seek := some (-100000000) }] })), _, _, 0, _, rfl,
      by decide +kernel, by decide +kernel, rfl, rfl⟩,
   ⟨on (headed.put (K.AX_STATE 0) 1), _, 0, 0, _, rfl, by decide +kernel, by decide +kernel, by decide +kernel, by decide +kernel,
      by decide +kernel, by decide +kernel, rfl⟩,
   ⟨on up, _, 3, 1, rfl, by decide +kernel⟩,
   ⟨on ((inUse (headed.puts [(K.TH_RIB_STATE 0, 1)]) [(K.TH_RIBBON 0, 1)]).modSta 0 (fun x =>
      { x with window := some (-100000000, 0, 0) })), _, 0, -100000000, 0, 0, rfl, by decide +kernel, by decide +kernel,
      by decide +kernel, by decide +kernel, by decide +kernel⟩⟩

theorem witness_CutterAndPresenterComplete :
    (∃ (s : State) (m : Mach) (st : Nat) (id : Nat) (it : Item), s.quiet = m ∧ m.configured st = true ∧ (m.sta st).cut = .ready id ∧
        m.item? id = some it ∧ it.state = .printing ∧ m.feedAtRest st = true ∧ ((it.endAction = 1 ∨ m.presenter st = none)))
    ∧ (∃ (s : State) (m : Mach) (st : Nat) (id : Nat), s.quiet = m ∧ (m.sta st).cut = .out id ∧ (m.sta st).cutDeadline ≤ m.time)
    ∧ (∃ (s : State) (m : Mach) (st : Nat) (a : Nat) (it : Item), s.quiet = m ∧ m.configured st = true ∧ m.presenter st = some a ∧
        m.axState a = axIdle ∧ m.g (K.TH_PRES_STATE st) = 1 ∧ m.item? (m.sta st).presItem = some it ∧ it.endAction = 3)
    ∧ (∃ (s : State) (m : Mach) (st : Nat) (a : Nat) (it : Item), s.quiet = m ∧ m.configured st = true ∧ m.presenter st = some a ∧
        m.axState a = axIdle ∧ m.g (K.TH_PRES_STATE st) = 3)
    ∧ (∃ (s : State) (m : Mach) (st : Nat) (a : Nat), s.quiet = m ∧ m.presenter st = some a ∧ m.g (K.TH_PRES_STATE st) = 2 ∧ (m.sta
        st).presTimeout ≠ 0 ∧ (m.sta st).presSince + 1000000 * (m.sta st).presTimeout ≤ m.time) :=
  ⟨⟨on ({ headed with items := [{ item 5 0 .printing with record := setFld (record 5 0 0) 0x26 1 1 }] }.modSta 0 (fun x =>
      { x with cut := .ready 5 })), _, 0, 5, _, rfl, by decide +kernel, by decide +kernel, rfl, by decide +kernel, by decide +kernel,
      .inr (by decide +kernel)⟩,
   ⟨on (up.modSta 2 (fun x => { x with cut := .out 5 })), _, 2, 5, rfl, by decide +kernel, by decide +kernel⟩,
   ⟨on
      ({ inUse (headed.puts [(K.AX_STATE 3, 1), (K.TH_PRES_STATE 0, 1)]) [(K.TH_PRES_AXIS 0, 3)] with items := [{ item 5 0 .done with record := setFld (record 5 0 0) 0x24 1 3 }] }.modSta
      0 (fun x => { x with presItem := 5 })), _, 0, 3, { item 5 0 .done with record := setFld (record 5 0 0) 0x24 1 3 }, rfl,
      by decide +kernel, by decide +kernel, by decide +kernel, by decide +kernel, by decide +kernel, by decide +kernel⟩,
   ⟨on (inUse (headed.puts [(K.AX_STATE 3, 1), (K.TH_PRES_STATE 0, 3)]) [(K.TH_PRES_AXIS 0, 3)]), _, 0, 3, item 5 0 .done, rfl,
      by decide +kernel, by decide +kernel, by decide +kernel, by decide +kernel⟩,
   ⟨on
      { (inUse (up.puts [(K.TH_PRES_STATE 0, 2)]) [(K.TH_PRES_AXIS 0, 3)]).modSta 0 (fun x => { x with presTimeout := 1 }) with time := 1000000 },
      _, 0, 3, rfl, by decide +kernel, by decide +kernel, by decide +kernel, by decide +kernel⟩⟩

theorem witness_ScannerCommandsComplete :
    (∃ (s : State) (m : Mach) (v : Nat), s.quiet = m ∧ s.admits K.LS_SCAN_MODE (leBytes 1 v) = some v ∧ v ≠ 0 ∧ m.scanState =
        scStopped ∧ ((v = 2 ∨ m.itemsOf 4 (fun it => !it.final) ≠ [])) ∧ m.scanRefused = false)
    ∧ (∃ (s : State) (m : Mach), s.quiet = m ∧ s.admits K.LS_SCAN_MODE (leBytes 1 0) = some 0 ∧ m.slBusy = false)
    ∧ (∃ (s : State) (m : Mach) (t : Nat), s.quiet = m ∧ m.sl.scan.idleAt = some t ∧ m.g K.LS_SCAN_MODE = 1 ∧ ((m.scanState = scSpinup
        ∨ m.scanState = scLocking ∨ m.scanState = scLocked)) ∧ t + 1000000 * m.g K.LS_SCAN_IDLE ≤ m.time)
    ∧ (∃ (s : State) (m : Mach), s.quiet = m ∧ m.scanState = scSpinup)
    ∧ (∃ (s : State) (m : Mach), s.quiet = m ∧ m.scanState = scLocking ∧ m.sl.scan.found = false ∧ m.sl.scan.pausedAt = none ∧
        m.sl.scan.searchAt + 1000 * m.h K.LS_SOS_SEARCH ≤ m.time)
    ∧ (∃ (s : State) (m : Mach) (t : Nat), s.quiet = m ∧ m.scanState = scLocking ∧ m.sl.scan.pausedAt = some t ∧ t + 10000 ≤ m.time)
    ∧ (∃ (s : State) (m : Mach), s.quiet = m ∧ ((m.scanState = scSpinup ∨ m.scanState = scLocking)) ∧ m.lockSuspended = false ∧
        m.sl.scan.startAt + 1000000 * m.h K.LS_LOCK_TIMEOUT ≤ m.time)
    ∧ (∃ (s : State) (m : Mach) (n : Mach), s.quiet = m ∧ m.scanState = scStopping ∧ m.axVel m.scanAxis = 0 ∧ n = (m.axDisableCore
        m.scanAxis).setScan scStopped)
    ∧ (∃ (s : State) (m : Mach) (phase : Nat) (t : Nat) (bad : Bool), s.quiet = m ∧ m.hasSL = true ∧ m.diodesOff = false ∧
        ((m.scanState = scLocking ∨ m.scanState = scLocked)) ∧ m.sl.scan.pausedAt = none ∧ m.sl.scan.acquired = false ∧ t = stampMicro
        * m.time + phase)
    ∧ (∃ (s : State) (m : Mach) (phase : Nat) (t : Nat) (bad : Bool), s.quiet = m ∧ m.hasSL = true ∧ m.diodesOff = false ∧
        ((m.scanState = scLocking ∨ m.scanState = scLocked)) ∧ m.sl.scan.pausedAt = none ∧ m.sl.scan.acquired = true ∧ m.layoutBad =
        false ∧ t = stampMicro * m.time + phase ∧ m.sl.scan.last < t ∧ m.nextSos ≤ t + 320 * m.h K.LS_SOS_LEAD ∧ t ≤ m.nextSos + 320 *
        m.h K.LS_SOS_LATE)
    ∧ (∃ (s : State) (m : Mach) (m1 : Mach) (bad : Bool), s.quiet = m ∧ m.hasSL = true ∧ m.sl.scan.acquired = true ∧ m.lockSuspended =
        false ∧ ((m.scanState = scLocking ∨ m.scanState = scLocked)) ∧ m.nextSos + 320 * m.h K.LS_SOS_LATE ≤ stampMicro * m.time ∧
        m.vmonLow = false ∧ m1 = (((m.count K.LS_SOS_MISSED).raiseIf (m.sl.scan.missRun == 0) 0x2803 []).modScan (fun x =>
        { x with missRun := x.missRun + 1, missed := true })).modScan (fun x => { x with last := m.nextSos, predicted := true }))
    ∧ (∃ (s : State) (m : Mach), s.quiet = m ∧ m.h K.LS_FACET_SYNC = 1 ∧ ((m.scanState = scLocking ∨ m.scanState = scLocked)) ∧
        m.sl.scan.acquired = true ∧ ((m.scanState = scLocking ∨ m.sl.scan.revStart = none ∨ m.sl.scan.sinceIndex = m.facets)))
    ∧ (∃ (s : State) (m : Mach) (m1 : Mach) (phase : Nat) (t : Nat) (v : Nat), s.quiet = m ∧ m.eosOn = true ∧ t = stampMicro * m.time
        + phase ∧ m.eosDue ≤ (t : Rat) + ((320 * m.h K.LS_SOS_LEAD : Nat) : Rat) ∧ (t : Rat) ≤ m.eosDue + ((320 * m.h K.LS_SOS_LATE :
        Nat) : Rat) ∧ v = (roundRat (((t - m.sl.scan.last : Nat) : Rat) * 16 / m.pixelPeriod)).toNat ∧ m1 = m.modScan (fun x =>
        { x with eosSeen := true }) ∧ v ≤ m1.h K.LS_SOS_EOS_NOM + m1.h K.LS_EOS_TOL ∧ m1.h K.LS_SOS_EOS_NOM ≤ v + m1.h K.LS_EOS_TOL)
    ∧ (∃ (s : State) (m : Mach), s.quiet = m ∧ m.eosOn = true ∧ m.eosDue + ((320 * m.h K.LS_SOS_LATE : Nat) : Rat) ≤ ((stampMicro *
        m.time : Nat) : Rat)) :=
  ⟨⟨on { up.puts [(K.LS_SCAN_AXIS, 0), (K.LS_BEAMS, 4)] with axes := up.axes.modify 0 (fun x => { x with work := 2 }) }, _, 2, rfl,
      by decide +kernel, by decide +kernel, by decide +kernel, .inl rfl, by decide +kernel⟩,
   ⟨on up, _, rfl, by decide +kernel, by decide +kernel⟩,
   ⟨on ((scanning 3).puts [(K.LS_SCAN_MODE, 1), (K.LS_SCAN_IDLE, 0)] |>.modScan (fun x => { x with idleAt := some 0 })), _, 0, rfl,
      by decide +kernel, by decide +kernel, .inr (.inr (by decide +kernel)), by decide +kernel⟩,
   ⟨on (scanning 1), _, rfl, by decide +kernel⟩,
   ⟨on { (scanning 2).modScan (fun x => { x with acquired := false }) with time := 100000000 }, _, rfl, by decide +kernel,
      by decide +kernel, by decide +kernel, by decide +kernel⟩,
   ⟨on { (scanning 2).modScan (fun x => { x with pausedAt := some 0 }) with time := 10000 }, _, 0, rfl, by decide +kernel,
      by decide +kernel, by decide +kernel⟩,
   ⟨on { scanning 2 with time := 200000000 }, _, rfl, .inr (by decide +kernel), by decide +kernel, by decide +kernel⟩,
   ⟨on (scanning 4), _, _, rfl, by decide +kernel, by decide +kernel, rfl⟩,
   ⟨on ((scanning 2).modScan (fun x => { x with acquired := false })), _, 3, _, false, rfl, by decide +kernel, by decide +kernel,
      .inl (by decide +kernel), by decide +kernel, by decide +kernel, rfl⟩,
   ⟨on { (scanning 3).put K.LS_POLY_RPM 1000 with time := 60000000 / (1000 * (inUse up []).facets) }, _, 3, _, false, rfl,
      by decide +kernel, by decide +kernel, .inr (by decide +kernel), by decide +kernel, by decide +kernel, by decide +kernel, rfl,
      by decide +kernel, by decide +kernel, by decide +kernel⟩,
   ⟨on { scanning 2 with time := 1000000 }, _, _, true, rfl, by decide +kernel, by decide +kernel, by decide +kernel,
      by decide +kernel, by decide +kernel, by decide +kernel, rfl⟩,
   ⟨on ((inUse (scanning 3) [(K.LS_FACET_SYNC, 1)]).modScan (fun x => { x with sinceIndex := x.sinceIndex + (inUse up []).facets })),
      _, rfl, by decide +kernel, .inr (by decide +kernel), by decide +kernel, .inr (by decide +kernel)⟩,
   ⟨on { inUse (scanning 3) [(K.LS_EOS_ENABLE, 1), (K.LS_SOS_EOS_NOM, 0)] with time := 0 }, _, _, 0, _, _, rfl, by decide +kernel,
      rfl, by decide +kernel, by decide +kernel, rfl, rfl, by decide +kernel, by decide +kernel⟩,
   ⟨on { inUse (scanning 3) [(K.LS_EOS_ENABLE, 1)] with time := 1000000 }, _, rfl, by decide +kernel, by decide +kernel⟩⟩

theorem witness_InterlockCommandsComplete :
    (∃ (s : State) (m : Mach) (m1 : Mach), s.quiet = m ∧ m.hasSL = true ∧ m.sl.scan.intlkOpen = false ∧ m1 = (m.modScan (fun x =>
        { x with intlkOpen := true })).count K.LS_INTLK_OPENINGS)
    ∧ (∃ (s : State) (m : Mach), s.quiet = m ∧ m.hasSL = true ∧ m.g K.LS_INTLK_STATE = 1)
    ∧ (∃ (s : State) (m : Mach), s.quiet = m ∧ s.admits K.LS_INTLK_REENABLE (leBytes 1 1) = some 1 ∧ m.g K.LS_INTLK_STATE = 2)
    ∧ (∃ (s : State) (m : Mach) (v : Nat), s.quiet = m ∧ s.admits K.LS_INTLK_ENABLE (leBytes 1 v) = some v ∧ ((v = 0 → m.intlkForce =
        false)) ∧ m.scanState = scStopped)
    ∧ (∃ (s : State) (m : Mach), s.quiet = m ∧ s.admits K.LS_PWR_CLEAR (leBytes 1 1) = some 1 ∧ m.g K.LS_PWR_LATCH ≠ 0xFF) :=
  ⟨⟨on up, _, _, rfl, by decide +kernel, by decide +kernel, rfl⟩,
   ⟨on (up.put K.LS_INTLK_STATE 1), _, rfl, by decide +kernel, by decide +kernel⟩,
   ⟨on (up.put K.LS_INTLK_STATE 2), _, rfl, by decide +kernel, by decide +kernel⟩,
   ⟨on up, _, 0, rfl, by decide +kernel, by decide +kernel, by decide +kernel⟩,
   ⟨on (up.put K.LS_PWR_LATCH 2), _, rfl, by decide +kernel, by decide +kernel⟩⟩

theorem witness_ProcessCommandsComplete :
    (∃ (s : State) (m : Mach), s.quiet = m ∧ s.admits K.LS_PROC_MODE (leBytes 1 3) = some 3 ∧ m.procState = prOff)
    ∧ (∃ (s : State) (m : Mach) (m1 : Mach) (v : Nat), s.quiet = m ∧ s.admits K.LS_PROC_MODE (leBytes 1 v) = some v ∧ ((v = 0 ∨ v =
        2)) ∧ m.slBusy = false ∧ ((m.procState = prWarming ∨ m.procState = prReady)) ∧ m1 = m.put K.LS_PROC_MODE v)
    ∧ (∃ (s : State) (m : Mach) (t : Nat), s.quiet = m ∧ m.sl.idleAt = some t ∧ m.g K.LS_PROC_MODE = 1 ∧ m.procState = prReady ∧ t +
        1000000 * m.g K.LS_PROC_IDLE ≤ m.time)
    ∧ (∃ (s : State) (m : Mach), s.quiet = m ∧ m.procState = prWarming ∧ m.sl.warm = 1 ∧ (sext 16 (m.g K.LS_FUS_ROTATE) : Rat) ≤
        m.fuserTemp 0)
    ∧ (∃ (s : State) (m : Mach), s.quiet = m ∧ m.procState = prWarming ∧ m.sl.warm = 4 ∧ m.g (K.HV_STATE 0) = 2)
    ∧ (∃ (s : State) (m : Mach), s.quiet = m ∧ m.procState = prStopping ∧ m.sl.stop = 1 ∧ m.sl.stopAt + 1000 * m.g K.LS_DRUM_CLEAN ≤
        m.time)
    ∧ (∃ (s : State) (m : Mach), s.quiet = m ∧ m.procState = prStopping ∧ m.sl.stop = 3 ∧ ((∀ a, a ∈ m.procAxes → m.axVel a = 0)) ∧
        m.procRest.g K.LS_PROC_MODE = 0) :=
  ⟨⟨on up, _, rfl, by decide +kernel, by decide +kernel⟩,
   ⟨on (up.put K.LS_PROC_STATE 3), _, _, 0, rfl, by decide +kernel, .inl rfl, by decide +kernel, .inr (by decide +kernel), rfl⟩,
   ⟨on
      { (up.puts [(K.LS_PROC_STATE, 3), (K.LS_PROC_MODE, 1), (K.LS_PROC_IDLE, 1)]).modSl (fun x => { x with idleAt := some 0 }) with time := 1000000 },
      _, 0, rfl, by decide +kernel, by decide +kernel, by decide +kernel, by decide +kernel⟩,
   ⟨on ((up.puts [(K.LS_PROC_STATE, 2), (K.LS_FUS_ROTATE, 0), (K.LS_FUS_TEMP 0, 100)]).modSl (fun x => { x with warm := 1 })), _,
      rfl, by decide +kernel, by decide +kernel, by decide +kernel⟩,
   ⟨on ((up.puts [(K.LS_PROC_STATE, 2), (K.HV_STATE 0, 2)]).modSl (fun x => { x with warm := 4 })), _, rfl, by decide +kernel,
      by decide +kernel, by decide +kernel⟩,
   ⟨on { (up.put K.LS_PROC_STATE 4).modSl (fun x => { x with stop := 1 }) with time := 100000000 }, _, rfl, by decide +kernel,
      by decide +kernel, by decide +kernel⟩,
   ⟨on ((up.put K.LS_PROC_STATE 4).modSl (fun x => { x with stop := 3 })), _, rfl, by decide +kernel, by decide +kernel,
      by decide +kernel, by decide +kernel⟩⟩

theorem witness_FuserAndHighVoltageComplete :
    (∃ (s : State) (m : Mach), s.quiet = m ∧ m.hasSL = true ∧ m.sl.hvAt + 100 ≤ m.time)
    ∧ (∃ (s : State) (m : Mach) (hv : Nat) (c : Nat), s.quiet = m ∧ m.hvFaultDue hv = some c ∧ m.hasSL = true ∧ m.g (K.HV_STATE hv) ≠
        4)
    ∧ (∃ (s : State) (m : Mach) (m1 : Mach) (phase : Nat), s.quiet = m ∧ m.hasSL = true ∧ m.sl.zc = none ∧ m.procState ≠ prWarming ∧
        m1 = upto 3 m (fun m n => m.put (K.LS_FUS_TEMP n) (ofInt 16 (roundRat (m.fuserTemp n)))) ∧ m1.sl.zc = none ∧ ∃ (m2 : Mach), m2
        = m1.modSl (fun x => { x with zc := some (m.now10 + phase) }) ∧ m2.procState ≠ prWarming)
    ∧ (∃ (s : State) (m : Mach) (m1 : Mach) (phase : Nat) (t : Nat), s.quiet = m ∧ m.hasSL = true ∧ m1 = upto 3 m (fun m n => m.put
        (K.LS_FUS_TEMP n) (ofInt 16 (roundRat (m.fuserTemp n)))) ∧ m1.sl.zc = some t ∧ ∃ (m2 : Mach), m2 = (m1.modSl (fun x =>
        { x with zc := some (m.now10 + phase) })).put K.LS_MAINS_HALF (min 65535 (roundDiv (m.now10 + phase - t) 100)) ∧ m2.heating =
        true ∧ 769000 ≤ m.now10 + phase - t ∧ m.now10 + phase - t ≤ 1111000)
    ∧ (∃ (s : State) (m : Mach) (m1 : Mach) (phase : Nat) (t : Nat), s.quiet = m ∧ m.hasSL = true ∧ m1 = upto 3 m (fun m n => m.put
        (K.LS_FUS_TEMP n) (ofInt 16 (roundRat (m.fuserTemp n)))) ∧ m1.sl.zc = some t ∧ ∃ (m2 : Mach), m2 = (m1.modSl (fun x =>
        { x with zc := some (m.now10 + phase) })).put K.LS_MAINS_HALF (min 65535 (roundDiv (m.now10 + phase - t) 100)) ∧ m2.heating =
        true ∧ m.now10 + phase - t < 769000)
    ∧ (∃ (s : State) (m : Mach), s.quiet = m ∧ s.admits K.LS_FUS_TRIP_CLEAR (leBytes 1 1) = some 1 ∧ ((∀ n, n < 3 → m.sl.fusCodes.getD
        n 0 ≠ 0 ∧ m.sl.fusCodes.getD n 0 ≠ 4095 ∧ if m.h K.LS_FUS_THM_POL = 1 then m.g (K.LS_FUS_RESET n) < m.sl.fusCodes.getD n 0
        else m.sl.fusCodes.getD n 0 < m.g (K.LS_FUS_RESET n))))
    ∧ (∃ (s : State) (m : Mach) (h : Nat) (t : Nat) (q : Rat), s.quiet = m ∧ (m.sl.heaters.getD h {}).rise = some (t, q) ∧ m.heating =
        true ∧ t + 1000000 * m.g K.LS_FUS_RISE_TIME ≤ m.time ∧ m.fuserTemp h - q < (m.g K.LS_FUS_RISE_MIN : Rat))
    ∧ (∃ (s : State) (m : Mach) (t : Nat), s.quiet = m ∧ m.sl.zc = some t ∧ m.heating = true ∧ t + 2500000 ≤ m.now10)
    ∧ (∃ (s : State) (m : Mach), s.quiet = m ∧ s.admits K.LS_PROC_CLEAR (leBytes 1 1) = some 1 ∧ m.procState = prFault ∧ m.g
        K.LS_FUS_TRIPPED = 0 ∧ m.g K.LS_PATH_STATE ≠ 2) :=
  ⟨⟨on { up with time := 100 }, _, rfl, by decide +kernel, by decide +kernel⟩,
   ⟨on { up.modSl (fun x => { x with hv := x.hv.set 2 { limSince := some 0 } }) with time := 100000000 }, _, 2, 2, rfl,
      by decide +kernel, by decide +kernel, by decide +kernel⟩,
   ⟨on up, _, _, 7, rfl, by decide +kernel, by decide +kernel, by decide +kernel, rfl, by decide +kernel, _, rfl, by decide +kernel⟩,
   ⟨on { (up.put K.LS_FUS_STATE 1).modSl (fun x => { x with zc := some 0 }) with time := 10000 }, _, _, 0, 0, rfl, by decide +kernel,
      rfl, by decide +kernel, _, rfl, by decide +kernel, by decide +kernel, by decide +kernel⟩,
   ⟨on { (up.put K.LS_FUS_STATE 1).modSl (fun x => { x with zc := some 0 }) with time := 1000 }, _, _, 0, 0, rfl, by decide +kernel,
      rfl, by decide +kernel, _, rfl, by decide +kernel, by decide +kernel⟩,
   ⟨on (inUse (up.modSl (fun x => { x with fusCodes := [4000, 4000, 4000] })) [(K.LS_FUS_THM_POL, 1)]), _, rfl, by decide +kernel,
      by decide +kernel⟩,
   ⟨on
      { (up.puts [(K.LS_FUS_STATE, 1), (K.LS_FUS_RISE_MIN, 10)]).modSl (fun x => { x with heaters := [{}, { rise := some (0, 0) }] }) with time := 1000000000 },
      _, 1, 0, 0, rfl, by decide +kernel, by decide +kernel, by decide +kernel, by decide +kernel⟩,
   ⟨on { (up.put K.LS_FUS_STATE 1).modSl (fun x => { x with zc := some 0 }) with time := 25000 }, _, 0, rfl, by decide +kernel,
      by decide +kernel, by decide +kernel⟩,
   ⟨on (up.put K.LS_PROC_STATE 5), _, rfl, by decide +kernel, by decide +kernel, by decide +kernel, by decide +kernel⟩⟩

theorem witness_SheetPathCompletes :
    (∃ (s : State) (m : Mach) (it : Item) (t : Nat), s.quiet = m ∧ m.nextPick = some it ∧ m.pickDue it = true ∧ m.g K.LS_FUS_TARGET
        = m.fuserSet it.mediaClass ∧ m.sl.bandSince = some t ∧ t + 1000 * m.g K.LS_FUS_SETTLE ≤ m.time ∧ m.residual = none)
    ∧ (∃ (s : State) (m : Mach) (x : SheetRt), s.quiet = m ∧ m.sl.sheets.find? (fun x => x.gate.isNone && x.released.isNone &&
        x.missedAt.isNone) = some x ∧ x.plan.end10 ≤ m.now10 ∧ m.si (m.h (K.LS_SI 2)) = true)
    ∧ (∃ (s : State) (m : Mach) (x : SheetRt), s.quiet = m ∧ m.gateSheet = some x ∧ m.g K.LS_PATH_STATE ≤ 1 ∧ m.sl.causeHold = false ∧
        m.releaseMin ≤ m.time ∧ m.ready rdySL = vReady)
    ∧ (∃ (s : State) (m : Mach) (x : SheetRt), s.quiet = m ∧ m.gateSheet = some x ∧ m.g K.LS_PATH_STATE ≤ 1 ∧ m.ready rdySL ≠ vReady ∧
        max (x.gate.getD m.time) m.releaseMin + 1000 * m.g K.LS_GATE_WAIT ≤ m.time)
    ∧ (∃ (s : State) (m : Mach) (m1 : Mach) (x : SheetRt) (t : Int) (v : Rat), s.quiet = m ∧ m.sl.sheets.find? (fun x =>
        x.released.isSome && !x.rolled) = some x ∧ m.rollAt x = some t ∧ t ≤ (m.time : Int) ∧ m.g K.LS_PATH_STATE ≤ 1 ∧ v =
        m.hvPlan.procV ∧ m1 = m.hvPlan.modSheet x.item (fun y =>
        { y with rolled := true, plan := { pieces := joinPieces [rampPiece (10 * (m.hvPlan.h K.LS_PATH_ACCEL : Rat)) 0 0 0 0 v] [flatPiece 0 0 1000000 v], start10 := m.hvPlan.now10, origin := 0 } }))
    ∧ (∃ (s : State) (m : Mach) (i : Nat) (x : SheetRt), s.quiet = m ∧ m.g K.LS_PATH_STATE ≤ 1 ∧ m.sl.sheets.find? (fun x =>
        !(x.lead.contains i) && x.missedAt.isNone && decide (m.stagePos i + (m.g K.LS_JAM_LATE : Rat) ≤ m.sheetPos x)) = some x)
    ∧ (∃ (s : State) (m : Mach) (i : Nat) (x : SheetRt), s.quiet = m ∧ m.g K.LS_PATH_STATE ≤ 1 ∧ m.sl.sheets.find? (fun x =>
        x.lead.contains i && !(x.trail.contains i) && decide (m.stagePos i + (x.length : Rat) + (m.g K.LS_JAM_LATE : Rat) ≤ m.sheetPos
        x)) = some x)
    ∧ (∃ (s : State) (m : Mach) (x : SheetRt) (it : Item), s.quiet = m ∧ m.g K.LS_PATH_STATE ≤ 1 ∧ m.sl.sheets.find? (fun x => match
        x.missedAt with | some t => decide (t + 100000 ≤ m.time) | none => false) = some x ∧ m.item? x.item = some it)
    ∧ (∃ (s : State) (m : Mach) (m1 : Mach), s.quiet = m ∧ s.admits K.LS_JAM_CLEAR (leBytes 1 1) = some 1 ∧ m.g K.LS_PATH_STATE = 2 ∧
        ((∀ i, i < 7 → m.si (m.h (K.LS_SI i)) = false ∧ m.motion.siAt.getD (m.h (K.LS_SI i)) 0 + 1000000 ≤ m.time)) ∧ m1 = ((m.modSl
        (fun x => { x with sheets := [], wins := [], pages := x.pages.filter (fun p => p.blank.isNone) })).put K.LS_PATH_STATE 0).put
        K.LS_SHEETS 0 ∧ m1.g K.LS_FUS_TRIPPED = 0)
    ∧ (∃ (s : State) (m : Mach) (m1 : Mach), s.quiet = m ∧ s.admits K.LS_PURGE (leBytes 1 1) = some 1 ∧ m.g K.LS_PATH_STATE = 0 ∧
        m.itemsOf 4 (fun it => it.state == .admitted || it.state == .printing) = [] ∧ m1 = ((m.put K.LS_PATH_STATE 3).put K.LS_PURGED
        0).modSl (fun x => { x with purgeAt := m.time }))
    ∧ (∃ (s : State) (m : Mach) (m1 : Mach), s.quiet = m ∧ m.g K.LS_PATH_STATE = 3 ∧ m.sl.purgeAt + ceilDiv (m.g K.LS_PURGE_DIST *
        1000000) m.procV ≤ m.time ∧ m1 = m.put K.LS_PATH_STATE 0 ∧ ∃ (m2 : Mach), (m2 = ((if m1.procState = prReady ∨ m1.procState =
        prWarming then [m1.h K.LS_REG_AXIS] else [m1.h K.LS_REG_AXIS, m1.h K.LS_DRUM_AXIS, m1.h K.LS_FUSER_AXIS, m1.h
        K.LS_EXIT_AXIS]).foldl (fun m a => m.axRun a 0) m1).raise 0x281A [m1.g K.LS_PURGED]) ∧ m2.residual = none) :=
  ⟨⟨on
      { (up.puts [(K.LS_PROC_STATE, 3), (K.LS_FUS_TARGET, 0), (K.LS_FUSER_SET 0, 0)]).modSl (fun x => { x with bandSince := some 0 }) with items := [item 5 0x10 .admitted], time := 1000000000 },
      _, _, 0, rfl, rfl, by decide +kernel, by decide +kernel, by decide +kernel, by decide +kernel, by decide +kernel⟩,
   ⟨on (inUse ((path sheet).put K.SI_STATE 2) [(K.LS_SI 2, 1)]), _, sheet, rfl, by decide +kernel, by decide +kernel,
      by decide +kernel⟩,
   ⟨on ((path { sheet with gate := some 0 }).put (K.DEV_READINESS (rdySL - 1)) vReady), _, _, rfl, rfl, by decide +kernel,
      by decide +kernel, by decide +kernel, by decide +kernel⟩,
   ⟨on { path { sheet with gate := some 0 } with time := 1000000000 }, _, _, rfl, rfl, by decide +kernel, by decide +kernel,
      by decide +kernel⟩,
   ⟨on (path { sheet with released := some 0 }), _, _, _, 0, _, rfl, rfl, by decide +kernel, by decide +kernel, by decide +kernel,
      rfl, rfl⟩,
   ⟨on (path { sheet with plan := { sheet.plan with origin := 10000000 } }), _, 1,
      { sheet with plan := { sheet.plan with origin := 10000000 } }, rfl, by decide +kernel, by decide +kernel⟩,
   ⟨on (path { sheet with lead := [1], plan := { sheet.plan with origin := 10000000 } }), _, 1,
      { sheet with lead := [1], plan := { sheet.plan with origin := 10000000 } }, rfl, by decide +kernel, by decide +kernel⟩,
   ⟨on { path { sheet with missedAt := some 0 } with items := [item 5 0x10 .printing], time := 1000000 }, _, _, _, rfl,
      by decide +kernel, rfl, rfl⟩,
   ⟨on { up.put K.LS_PATH_STATE 2 with time := 1000000 }, _, _, rfl, by decide +kernel, by decide +kernel, by decide +kernel, rfl,
      by decide +kernel⟩,
   ⟨on (up.put K.LS_PATH_STATE 0), _, _, rfl, by decide +kernel, by decide +kernel, by decide +kernel, rfl⟩,
   ⟨on { up.puts [(K.LS_PATH_STATE, 3), (K.LS_PROC_STATE, 3)] with time := 1000000000 }, _, _, rfl, by decide +kernel,
      by decide +kernel, rfl, _, rfl, by decide +kernel⟩⟩

theorem witness_AxisSetupCompletes :
    (∃ (s : State) (m : Mach) (v : Nat), s.quiet = m ∧ s.admits K.AX_TABLE_BASE (leBytes 8 v) = some v ∧ v % 256 = 0 ∧ v + 10240 ≤
        0xC0000000 ∧ ((∀ n, n < m.nAxes → m.axState n = axDisabled)))
    ∧ (∃ (s : State) (m : Mach) (n : Nat), s.quiet = m ∧ s.admits K.AX_REFRESH (leBytes 1 n) = some n ∧ n < m.nAxes)
    ∧ (∃ (s : State) (m : Mach) (m1 : Mach) (ax : Nat) (ds : List Nat), s.quiet = m ∧ s.admits (K.AX_ENABLE ax) (leBytes 1 1) = some 1
        ∧ m.axState ax = axDisabled ∧ (m.axis ax).kind ≠ 0 ∧ m1 = (List.range (m.axis ax).ports.length).foldl (fun m' i => m'.put
        (K.PP_CMP_DELAY (m'.phys ((m.axis ax).ports.getD i 0))) (ds.getD i 0 % 2 ^ 16)) ((m.axEnableCore ax).commanded ax))
    ∧ (∃ (s : State) (m : Mach) (ax : Nat) (f : Option Nat) (ds : List Nat), s.quiet = m ∧ s.admits (K.AX_ENABLE ax) (leBytes 1 0) =
        some 0 ∧ m.axState ax ≠ axDisabled ∧ m.axState ax ≠ axStopped ∧ m.axVel ax = 0)
    ∧ (∃ (s : State) (m : Mach) (ax : Nat), s.quiet = m ∧ s.admits (K.AX_CLEAR ax) (leBytes 1 1) = some 1 ∧ m.axState ax = axStopped ∧
        m.causePersists ax = false)
    ∧ (∃ (s : State) (m : Mach) (ax : Nat) (v : Nat), s.quiet = m ∧ s.admits (K.AX_GROUP ax) (leBytes 1 v) = some v ∧ m.axOwner ax =
        0)
    ∧ (∃ (s : State) (m : Mach) (g : Nat), s.quiet = m ∧ s.admits (K.SG_START g) (leBytes 1 1) = some 1)
    ∧ (∃ (s : State) (m : Mach) (ax : Nat) (v : Nat), s.quiet = m ∧ m.axOwner ax = 0 ∧ (m.axis ax).kind ≠ 4 ∧ s.admits (K.AX_SPEED ax)
        (leBytes 4 v) = some v ∧ v ≤ (m.axis ax).vMax)
    ∧ (∃ (s : State) (m : Mach) (ax : Nat) (v : Nat), s.quiet = m ∧ m.axOwner ax = 0 ∧ (m.axis ax).kind ≠ 4 ∧ s.admits (K.AX_ACCEL ax)
        (leBytes 4 v) = some v ∧ v ≤ (m.axis ax).aMax)
    ∧ (∃ (s : State) (m : Mach) (ax : Nat) (v : Nat), s.quiet = m ∧ m.axOwner ax = 0 ∧ (m.axis ax).kind ≠ 4 ∧ s.admits (K.AX_DECEL ax)
        (leBytes 4 v) = some v ∧ v ≤ (m.axis ax).dMax)
    ∧ (∃ (s : State) (m : Mach) (ax : Nat) (v : Nat), s.quiet = m ∧ m.axOwner ax = 0 ∧ (m.axis ax).kind ≠ 4 ∧ s.admits (K.AX_JERK ax)
        (leBytes 4 v) = some v ∧ (((m.axis ax).jMax = 0 ∨ v ≤ (m.axis ax).jMax))) :=
  ⟨⟨on up, _, 256, rfl, by decide +kernel, by decide +kernel, by decide +kernel, by decide +kernel⟩,
   ⟨on up, _, 3, rfl, by decide +kernel, by decide +kernel⟩,
   ⟨on (motor 1 0), _, _, 0, [], rfl, by decide +kernel, by decide +kernel, by decide +kernel, rfl⟩,
   ⟨on (motor 3 1), _, 0, none, [], rfl, by decide +kernel, by decide +kernel, by decide +kernel, by decide +kernel⟩,
   ⟨on (motor 1 9), _, 0, rfl, by decide +kernel, by decide +kernel, by decide +kernel⟩,
   ⟨on up, _, 3, 2, rfl, by decide +kernel, by decide +kernel⟩,
   ⟨on up, _, 1, rfl, by decide +kernel⟩,
   ⟨on (motor 1 1 [(0x10, 4, 1000)]), _, 0, 1000, rfl, by decide +kernel, by decide +kernel, by decide +kernel, by decide +kernel⟩,
   ⟨on (motor 1 1 [(0x14, 4, 1000)]), _, 0, 1000, rfl, by decide +kernel, by decide +kernel, by decide +kernel, by decide +kernel⟩,
   ⟨on (motor 1 1 [(0x18, 4, 1000)]), _, 0, 1000, rfl, by decide +kernel, by decide +kernel, by decide +kernel, by decide +kernel⟩,
   ⟨on (motor 1 1), _, 0, 1000, rfl, by decide +kernel, by decide +kernel, by decide +kernel, .inl (by decide +kernel)⟩⟩

theorem witness_AxisCommandsComplete :
    (∃ (s : State) (m : Mach) (ax : Nat), s.quiet = m ∧ (m.axis ax).kind ≠ 4 ∧ m.axFree ax = true ∧ (((m.axis ax).homeRequired =
        false ∨ m.g (K.AX_POS_LOST ax) = 0)) ∧ ∃ (v : Nat), s.admits (K.AX_TARGET ax) (leBytes 4 v) = some v ∧ m.softApply ax = false
        ∧ (∀ d : Int, m.limitAhead ax d 0xFF = false))
    ∧ (∃ (s : State) (m : Mach) (ax : Nat), s.quiet = m ∧ (m.axis ax).kind ≠ 4 ∧ m.axFree ax = true ∧ (((m.axis ax).homeRequired =
        false ∨ m.g (K.AX_POS_LOST ax) = 0)) ∧ ∃ (v : Nat), s.admits (K.AX_VELOCITY ax) (leBytes 4 v) = some v ∧ m.limitAhead ax (sext
        32 v) 0xFF = false)
    ∧ (∃ (s : State) (m : Mach) (ax : Nat), s.quiet = m ∧ (m.axis ax).kind ≠ 4 ∧ m.axFree ax = true ∧ (((m.axis ax).homeRequired =
        false ∨ m.g (K.AX_POS_LOST ax) = 0)) ∧ ∃ (v : Nat), s.admits (K.AX_CURRENT ax) (leBytes 2 v) = some v ∧ (((m.axis ax).kind ≠ 1
        ∨ (m.axis ax).enc ≠ 0xFF)) ∧ m.limitAhead ax (sext 16 v) 0xFF = false)
    ∧ (∃ (s : State) (m : Mach) (ax : Nat), s.quiet = m ∧ (m.axis ax).kind ≠ 4 ∧ m.axFree ax = true ∧ (((m.axis ax).homeRequired =
        false ∨ m.g (K.AX_POS_LOST ax) = 0)) ∧ s.admits (K.AX_FOLLOW ax) (leBytes 1 1) = some 1 ∧ (m.axis ax).sd ≠ 0xFF)
    ∧ (∃ (s : State) (m : Mach) (ax : Nat), s.quiet = m ∧ (m.axis ax).kind ≠ 4 ∧ m.axFree ax = true ∧ (((m.axis ax).homeRequired =
        false ∨ m.g (K.AX_POS_LOST ax) = 0)) ∧ s.admits (K.AX_HOME ax) (leBytes 1 1) = some 1 ∧ (∀ d : Int, m.limitAhead ax d (m.axis
        ax).homeSi = false)) :=
  ⟨⟨on (motor 1 1), _, 0, rfl, by decide +kernel, by decide +kernel, .inl (by decide +kernel), 500, by decide +kernel,
      by decide +kernel, no_limit (by decide +kernel) (by decide +kernel)⟩,
   ⟨on (motor 1 1), _, 0, rfl, by decide +kernel, by decide +kernel, .inl (by decide +kernel), 500, by decide +kernel,
      by decide +kernel⟩,
   ⟨on (motor 3 1), _, 0, rfl, by decide +kernel, by decide +kernel, .inl (by decide +kernel), 500, by decide +kernel, .inl
      (by decide +kernel), by decide +kernel⟩,
   ⟨on (motor 1 1 [(0x09, 1, 0)]), _, 0, rfl, by decide +kernel, by decide +kernel, .inl (by decide +kernel), by decide +kernel,
      by decide +kernel⟩,
   ⟨on (motor 1 1), _, 0, rfl, by decide +kernel, by decide +kernel, .inl (by decide +kernel), by decide +kernel, fun d => no_limit
      (by decide +kernel) (by decide +kernel) d⟩⟩

theorem witness_AxisStopsComplete :
    (∃ (s : State) (m : Mach) (ax : Nat), s.quiet = m ∧ s.admits (K.AX_HALT ax) (leBytes 1 1) = some 1 ∧ m.axOwner ax = 0 ∧
        m.axEnabled ax = true ∧ (m.axis ax).kind ≠ 4)
    ∧ (∃ (s : State) (m : Mach) (ax : Nat), s.quiet = m ∧ s.admits (K.AX_STOP ax) (leBytes 1 1) = some 1 ∧ m.axEnabled ax = true ∧
        m.axOwner ax = 0)
    ∧ (∃ (s : State) (m : Mach) (ax : Nat), s.quiet = m ∧ s.admits (K.AX_STOP ax) (leBytes 1 1) = some 1 ∧ m.axEnabled ax = true ∧ 1 ≤
        m.axOwner ax ∧ m.axOwner ax ≤ 4)
    ∧ (∃ (s : State) (m : Mach) (ax : Nat), s.quiet = m ∧ s.admits (K.AX_STOP ax) (leBytes 1 1) = some 1 ∧ m.axEnabled ax = true ∧
        m.axOwner ax = 5) :=
  ⟨⟨on (motor 1 1), _, 0, rfl, by decide +kernel, by decide +kernel, by decide +kernel, by decide +kernel⟩,
   ⟨on (motor 1 1), _, 0, rfl, by decide +kernel, by decide +kernel, by decide +kernel⟩,
   ⟨on (headed.put (K.AX_STATE 0) 1), _, 0, rfl, by decide +kernel, by decide +kernel, by decide +kernel, by decide +kernel⟩,
   ⟨on (inUse ((motor 2 1).put K.LS_PROC_STATE 3) [(K.LS_DRUM_AXIS, 0)]), _, 0, rfl, by decide +kernel, by decide +kernel,
      by decide +kernel⟩⟩

theorem witness_PlanningTickCompletes :
    (∃ (s : State) (m : Mach), s.quiet = m ∧ m.time % 20 = 0 ∧ m.motion.lastTick ≠ some m.time) :=
  ⟨on { up with time := 20 }, _, rfl, by decide +kernel, by decide +kernel⟩

theorem witness_MotionInputsComplete :
    (∃ (s : State) (m : Mach) (m1 : Mach) (qe : Nat) (phase : Nat) (old : Nat) (new : Nat) (d : Nat) (a : Bool) (b : Bool), s.quiet
        = m ∧ m.gb (K.QE_ENABLE qe) = true ∧ old = m.motion.qePhase.getD qe 0 ∧ new = b2n a + 2 * b2n b ∧ d = grayMoved old new ∧ m1 =
        { m with motion := { m.motion with qePhase := m.motion.qePhase.set qe new } } ∧ d = 0)
    ∧ (∃ (s : State) (m : Mach) (m1 : Mach) (qe : Nat) (phase : Nat) (old : Nat) (new : Nat) (d : Nat) (a : Bool) (b : Bool), s.quiet
        = m ∧ m.gb (K.QE_ENABLE qe) = true ∧ old = m.motion.qePhase.getD qe 0 ∧ new = b2n a + 2 * b2n b ∧ d = grayMoved old new ∧ m1 =
        { m with motion := { m.motion with qePhase := m.motion.qePhase.set qe new } } ∧ ∃ (m2 : Mach), m2 = (m1.count (K.QE_ERRORS
        qe)).raise 0x2A07 [qe] ∧ d = 2)
    ∧ (∃ (s : State) (m : Mach) (m1 : Mach) (qe : Nat) (phase : Nat) (old : Nat) (new : Nat) (d : Nat) (a : Bool) (b : Bool), s.quiet
        = m ∧ m.gb (K.QE_ENABLE qe) = true ∧ old = m.motion.qePhase.getD qe 0 ∧ new = b2n a + 2 * b2n b ∧ d = grayMoved old new ∧ m1 =
        { m with motion := { m.motion with qePhase := m.motion.qePhase.set qe new } } ∧ ∃ (m2 : Mach) (m3 : Mach) (t : Nat) (c : Int),
        (d = 1 ∨ d = 3) ∧ c = m.gi 32 (K.QE_COUNT qe) ∧ t = m.now10 + phase ∧ m2 =
        { m1 with motion := { m1.motion with qeHist := (t, qe, c) :: m1.motion.qeHist.filter (fun (e : Nat × Nat × Int) => decide (t < e.1 + 2000000)) } }.puti
        32 (K.QE_COUNT qe) (c + (if (d = 1) = (m.h (K.QE_INVERT qe) = 0) then 1 else -1)) ∧ m3 = upto m2.nStations m2 (fun m st => if
        m.configured st && m.h (K.TH_TRIG_SRC st) == qe + 1 then (m.stationPorts st).foldl (fun m' h => m'.encoderAt h (m2.gi 32
        (K.QE_COUNT qe) * 65536) t) m else m))
    ∧ (∃ (s : State) (m : Mach) (qe : Nat), s.quiet = m ∧ m.gb (K.QE_ENABLE qe) = true)
    ∧ (∃ (s : State) (m : Mach) (m1 : Mach) (sd : Nat) (phase : Nat) (dir : Bool), s.quiet = m ∧ m.gb (K.SD_ENABLE sd) = true ∧ m1 =
        { m with motion := { m.motion with sdLast := m.motion.sdLast.set sd (some (m.now10 + phase)) } }.puti 32 (K.SD_COUNT sd) (m.gi
        32 (K.SD_COUNT sd) + (if dir != (m.h (K.SD_DIR_INVERT sd) == 1) then 1 else -1)) ∧ ((∀ t, m.motion.sdLast.getD sd none = some
        t → t + 20 ≤ m.now10 + phase)))
    ∧ (∃ (s : State) (m : Mach) (si : Nat) (phase : Nat) (high : Bool), s.quiet = m ∧ m.si si = (high != bit (m.g (K.SI_CFG si)) 0))
    ∧ (∃ (s : State) (m : Mach) (m1 : Mach) (m2 : Mach) (m3 : Mach) (si : Nat) (phase : Nat) (st : Nat) (high : Bool) (active : Bool),
        s.quiet = m ∧ active = (high != bit (m.g (K.SI_CFG si)) 0) ∧ m.si si ≠ active ∧ st = m.siStamp si phase ∧ m1 = ((m.put
        K.SI_STATE (withBit (m.g K.SI_STATE) si active)).count (K.SI_EDGES si)).sampleSi si ∧ m2 = upto m1.nStations m1 (fun m' x =>
        m'.mediaEdge x si active (m'.linePosAt x st)) ∧ m3 = (m2.pathEdge si active).axisEdge si active st) :=
  ⟨⟨on (up.put (K.QE_ENABLE 3) 1), _, _, 3, 7, _, _, _, false, false, rfl, by decide +kernel, rfl, rfl, rfl, rfl, by decide +kernel⟩,
   ⟨on (up.put (K.QE_ENABLE 3) 1), _, _, 3, 7, _, _, _, true, true, rfl, by decide +kernel, rfl, rfl, rfl, rfl, _, rfl,
      by decide +kernel⟩,
   ⟨on (up.put (K.QE_ENABLE 3) 1), _, _, 3, 7, _, _, _, true, false, rfl, by decide +kernel, rfl, rfl, rfl, rfl, _, _, _, _, .inl
      (by decide +kernel), rfl, rfl, rfl, rfl⟩,
   ⟨on (up.put (K.QE_ENABLE 3) 1), _, 3, rfl, by decide +kernel⟩,
   ⟨on (up.put (K.SD_ENABLE 1) 1), _, _, 1, 7, false, rfl, by decide +kernel, rfl, fun t h => (Option.some_ne_none _ (h.symm.trans
      (by decide +kernel))).elim⟩,
   ⟨on up, _, 5, 7, false, rfl, by decide +kernel⟩,
   ⟨on (up.put K.SI_STATE 2), _, _, _, _, 1, 7, _, false, _, rfl, rfl, by decide +kernel, rfl, rfl, rfl, rfl⟩⟩

theorem witness_ChopperCommandsComplete :
    (∃ (s : State) (m : Mach) (m1 : Mach), s.quiet = m ∧ upto m.nAxes m (fun m' n => m'.stepperUpdate n) = m1)
    ∧ (∃ (m : Mach) (m1 : Mach) (n : Nat) (pa : Nat) (pb : Nat) (ad : Nat) (ps : List Nat), (m.axis n).kind = 1 ∧ m.axEnabled n = true
        ∧ (∀ ma, (m.axis n).mode ≠ .current ma) ∧ (m.axis n).ports = pa :: pb :: ps ∧ ad = (if (m.axis n).dirInvert then (512 -
        (m.axis n).addrOf (m.axPos n)) % 512 else (m.axis n).addrOf (m.axPos n)).toNat ∧ m1 = m.put (K.AX_ADDR n) ad ∧ m1.drives n =
        true)
    ∧ (∃ (s : State) (m : Mach) (m0 : Mach) (pp : Nat) (n : Nat) (phase : Nat) (ns : Nat), s.quiet = m ∧ ns = 1000 * m.time + 2 *
        phase ∧ m0 = m.decayDue pp ns ∧ m0.chopAxis pp = some n ∧ (m0.port pp).driving = true)
    ∧ (∃ (s : State) (m : Mach) (m0 : Mach) (pp : Nat) (n : Nat) (phase : Nat) (ns : Nat), s.quiet = m ∧ ns = 1000 * m.time + 2 *
        phase ∧ m0 = m.decayDue pp ns ∧ m0.chopAxis pp = some n ∧ ∃ (m1 : Mach), (m0.port pp).driving = false ∧ (m0.port pp).changed =
        true ∧ 10 * (m0.axis n).f 0x8A 2 ≤ ns - (m0.port pp).since ∧ m1 = (m0.modPort pp (fun x =>
        { x with driving := true, since := ns, lowSeen := false })).put (K.PP_T_OFF pp) ((ns - (m0.port pp).since) % 2 ^ 32))
    ∧ (∃ (s : State) (m : Mach) (m0 : Mach) (pp : Nat) (n : Nat) (phase : Nat) (ns : Nat), s.quiet = m ∧ ns = 1000 * m.time + 2 *
        phase ∧ m0 = m.decayDue pp ns ∧ m0.chopAxis pp = some n ∧ (m0.port pp).driving = false ∧ ns - (m0.port pp).since < 10 *
        (m0.axis n).f 0x8A 2)
    ∧ (∃ (s : State) (m : Mach) (pp : Nat) (n : Nat), s.quiet = m ∧ m.chopAxis pp = some n ∧ (m.port pp).driving = true ∧ (m.port
        pp).since + 1000 * (m.axis n).f 0x8E 2 ≤ 1000 * m.time)
    ∧ (∃ (s : State) (m : Mach) (pp : Nat) (n : Nat) (d : Nat), s.quiet = m ∧ m.chopAxis pp = some n ∧ (m.port pp).driving = false)
    ∧ (∃ (s : State) (m : Mach) (pp : Nat), s.quiet = m ∧ s.admits (K.PP_OFS_UNFREEZE pp) (leBytes 1 1) = some 1)
    ∧ (∃ (s : State) (m : Mach) (m1 : Mach) (pp : Nat) (n : Nat), s.quiet = m ∧ pp < m.nPortsAll ∧ pp < 96 ∧ (m.port pp).failed =
        false ∧ m1 = (m.modPort pp (fun x => { x with failed := true })).raise 0x2B01 [pp, 1] ∧ m1.portAxis pp = some n) :=
  ⟨⟨on up, _, _, rfl, rfl⟩,
   ⟨motor 1 1 [] (fun x => { x with mode := .velocity 5 }), _, 0, 0, 1, _, [], by decide +kernel, by decide +kernel, not_current
      (by decide +kernel), by decide +kernel, rfl, rfl, by decide +kernel⟩,
   ⟨on ((motor 1 1).modPort 1 (fun x => { x with driving := true })), _, _, 1, 0, 7, _, rfl, rfl, rfl, by decide +kernel,
      by decide +kernel⟩,
   ⟨on ((motor 1 1).modPort 1 (fun x => { x with changed := true })), _, _, 1, 0, 7, _, rfl, rfl, rfl, by decide +kernel, _,
      by decide +kernel, by decide +kernel, by decide +kernel, rfl⟩,
   ⟨on (motor 1 1 [(0x8A, 2, 50)]), _, _, 1, 0, 7, _, rfl, rfl, rfl, by decide +kernel, by decide +kernel, by decide +kernel⟩,
   ⟨on { (motor 1 1).modPort 1 (fun x => { x with driving := true }) with time := 100 }, _, 1, 0, rfl, by decide +kernel,
      by decide +kernel, by decide +kernel⟩,
   ⟨on (motor 1 1), _, 1, 0, 2, rfl, by decide +kernel, by decide +kernel⟩,
   ⟨on up, _, 3, rfl, by decide +kernel⟩,
   ⟨on (motor 1 1), _, _, 1, 0, rfl, by decide +kernel, by decide +kernel, by decide +kernel, rfl, by decide +kernel⟩⟩

theorem witness_DriveLoopsComplete :
    (∃ (s : State) (m : Mach) (ax : Nat), s.quiet = m ∧ (m.axis ax).kind = 1 ∧ m.axEnabled ax = true ∧ m.axVel ax = 0 ∧ (m.axis
        ax).queue = [] ∧ (∀ ma, (m.axis ax).mode ≠ .current ma) ∧ (m.axis ax).focHeld = false ∧ (m.axis ax).restSince + 1000 * (m.axis
        ax).f 0x84 2 ≤ m.time ∧ (m.axis ax).f 0x86 1 % 4 = 0)
    ∧ (∃ (s : State) (m : Mach) (ax : Nat), s.quiet = m ∧ (m.axis ax).kind = 1 ∧ m.axEnabled ax = true ∧ m.axVel ax = 0 ∧ (m.axis
        ax).queue = [] ∧ (∀ ma, (m.axis ax).mode ≠ .current ma) ∧ (m.axis ax).focHeld = false ∧ (m.axis ax).restSince + 1000 * (m.axis
        ax).f 0x84 2 ≤ m.time ∧ (m.axis ax).f 0x86 1 % 4 = 2)
    ∧ (∃ (s : State) (m : Mach) (ax : Nat), s.quiet = m ∧ (m.axis ax).kind = 1 ∧ m.axEnabled ax = true ∧ m.axVel ax = 0 ∧ (m.axis
        ax).queue = [] ∧ (∀ ma, (m.axis ax).mode ≠ .current ma) ∧ (m.axis ax).focHeld = false ∧ (m.axis ax).restSince + 1000 * (m.axis
        ax).f 0x84 2 ≤ m.time ∧ (m.axis ax).f 0x86 1 % 4 = 1)
    ∧ (∃ (s : State) (m : Mach) (ax : Nat) (p : Nat) (ps : List Nat) (v : Int) (i : Rat) (z : Rat), s.quiet = m ∧ (m.axis ax).kind = 3
        ∧ m.drives ax = true ∧ m.currentRef ax (v : Rat) (m.axVel ax) (m.axFollowErr ax) (1 / 100000) = (i, z) ∧ (m.axis ax).ports = p
        :: ps ∧ ∃ (m1 : Mach), m1 = m.modAxis ax (fun a => { a with drive := { a.drive with iq := i, speedInt := z } }))
    ∧ (∃ (s : State) (m : Mach) (ax : Nat), s.quiet = m ∧ (m.axis ax).kind = 4 ∧ (m.axis ax).drive.energised = true ∧ m.axEnabled ax =
        true ∧ (m.axis ax).drive.pullSince + 1000 * (m.axis ax).f 0x84 2 ≤ m.time)
    ∧ (∃ (s : State) (m : Mach) (ax : Nat), s.quiet = m ∧ (((m.axis ax).drive.foc = .align ∨ (m.axis ax).drive.foc = .openLoop)) ∧
        (m.axis ax).drive.focSince + 1000 * ((m.axis ax).f 0xCA 2 + (m.axis ax).f 0xCC 2 + 100) ≤ m.time)
    ∧ (∃ (s : State) (m : Mach) (ax : Nat), s.quiet = m ∧ (m.axis ax).sensorless = true ∧ (m.axis ax).drive.foc = .closed ∧ ((((m.axis
        ax).f 0xC6 2 : Rat) ≤ (m.axis ax).toRpm (m.axVel ax) ∨ ((m.axis ax).f 0xC6 2 : Rat) ≤ -(m.axis ax).toRpm (m.axVel ax))))
    ∧ (∃ (s : State) (m : Mach) (ax : Nat) (rpm : Int), s.quiet = m ∧ (m.axis ax).drive.foc = .probe ∧ (m.axis ax).drive.focSince +
        1000 * (m.axis ax).f 0xD2 2 ≤ m.time ∧ rpm = 0 ∧ 0 < (m.axis ax).f 0xC4 2)
    ∧ (∃ (s : State) (m : Mach) (ax : Nat) (rpm : Int), s.quiet = m ∧ (m.axis ax).drive.foc = .probe ∧ (m.axis ax).drive.focSince +
        1000 * (m.axis ax).f 0xD2 2 ≤ m.time ∧ 0 < rpm ∧ 0 < m.commandSign ax ∧ ((m.axis ax).f 0xC4 2 : Rat) / 50 ≤ (rpm : Rat) ∧
        ((m.axis ax).f 0xC6 2 : Rat) ≤ (rpm : Rat))
    ∧ (∃ (s : State) (m : Mach) (ax : Nat), s.quiet = m ∧ (m.axis ax).drive.foc = .brake ∧ (m.axis ax).drive.focSince + 1000 * (m.axis
        ax).f 0xD6 2 ≤ m.time) :=
  ⟨⟨on (motor 1 1), _, 0, rfl, by decide +kernel, by decide +kernel, by decide +kernel, by decide +kernel, not_current
      (by decide +kernel), by decide +kernel, by decide +kernel, by decide +kernel⟩,
   ⟨on (motor 1 1 [(0x86, 1, 2)]), _, 0, rfl, by decide +kernel, by decide +kernel, by decide +kernel, by decide +kernel, not_current
      (by decide +kernel), by decide +kernel, by decide +kernel, by decide +kernel⟩,
   ⟨on (motor 1 1 [(0x86, 1, 1)]), _, 0, rfl, by decide +kernel, by decide +kernel, by decide +kernel, by decide +kernel, not_current
      (by decide +kernel), by decide +kernel, by decide +kernel, by decide +kernel⟩,
   ⟨on (motor 3 1), _, 0, 0, [], 5, _, _, rfl, by decide +kernel, by decide +kernel, pair_eta _, by decide +kernel, _, rfl⟩,
   ⟨on (motor 4 1 [] (drive (fun d => { d with energised := true }))), _, 0, rfl, by decide +kernel, by decide +kernel,
      by decide +kernel, by decide +kernel⟩,
   ⟨on { motor 2 1 [] (drive (fun d => { d with foc := .align })) with time := 100000 }, _, 0, rfl, .inl (by decide +kernel),
      by decide +kernel⟩,
   ⟨on (motor 2 1 [] (drive (fun d => { d with foc := .closed }))), _, 0, rfl, by decide +kernel, by decide +kernel,
      by decide +kernel⟩,
   ⟨on (motor 2 1 [(0xC4, 2, 1)] (drive (fun d => { d with foc := .probe }))), _, 0, 0, rfl, by decide +kernel, by decide +kernel,
      by decide +kernel, by decide +kernel⟩,
   ⟨on (motor 2 1 [] (drive (fun d => { d with foc := .probe }))), _, 0, 1, rfl, by decide +kernel, by decide +kernel,
      by decide +kernel, by decide +kernel, by decide +kernel, by decide +kernel⟩,
   ⟨on (motor 2 1 [] (drive (fun d => { d with foc := .brake }))), _, 0, rfl, by decide +kernel, by decide +kernel⟩⟩

theorem witness_PwmPeriodCompletes :
    (∃ (s : State) (m : Mach) (m1 : Mach) (ax : Nat) (angle : Nat) (cur : List Int) (rpm : Int) (id : Rat) (iq : Rat), s.quiet = m ∧
        (m.axis ax).kind = 2 ∧ m.drives ax = true ∧ (m.axis ax).drive.foc ≠ .probe ∧ m.currentLoops ax cur angle rpm = (m1, id, iq)) :=
  ⟨on (motor 2 1), _, _, 0, 3, [1, 2, -3], 5, _, _, rfl, by decide +kernel, by decide +kernel, by decide +kernel, triple_eta _⟩

theorem witness_DriveFaultsAndBusesComplete :
    (∃ (s : State) (m : Mach) (pp : Nat) (n : Nat), s.quiet = m ∧ m.workAxis pp = some n ∧ m.axEnabled n = true)
    ∧ (∃ (s : State) (m : Mach) (g : Nat), s.quiet = m ∧ ((∀ n, n < m.nAxes → (∀ p, p ∈ (m.axis n).ports → p / 4 ≠ g) ∨ m.axEnabled n
        = false)))
    ∧ (∃ (s : State) (m : Mach) (g : Nat) (n : Nat), s.quiet = m ∧ n < m.nAxes ∧ (∃ p, p ∈ (m.axis n).ports ∧ p / 4 = g) ∧ m.axEnabled
        n = true ∧ ((∀ k, k < m.nAxes → k ≠ n → (∀ p, p ∈ (m.axis k).ports → p / 4 ≠ g) ∨ m.axEnabled k = false)) ∧ ((∀ k, k < m.nAxes
        → k ≠ n → (∀ p, p ∈ ((m.drvFault n 2).axis k).ports → p / 4 ≠ g) ∨ (m.drvFault n 2).axEnabled k = false)))
    ∧ (∃ (s : State) (m : Mach) (m1 : Mach) (m2 : Mach) (b : Nat) (mv : Nat), s.quiet = m ∧ 100 * m.g (K.BUS_BRK_ON b) ≤ mv ∧ 100 *
        m.g (K.BUS_WARN b) ≤ mv ∧ (m.busRt b).onSince = none ∧ (m.busRt b).warning = true ∧ m1 = m.modBus b (fun x =>
        { x with level := mv, warning := true, braking := true, brakeMicros := (m.busRt b).brakeMicros, onSince := some (x.onSince.getD m.time), onVoltage := if !x.braking then m.busVoltage b else x.onVoltage, checked := if !x.braking then false else x.checked })
        ∧ m2 = (m1.showBus b).shortRegen b ∧ mv = max (m.busRt b).level (100 * m.g (K.BUS_OV_CUT b)))
    ∧ (∃ (m : Mach) (m1 : Mach) (b : Nat), (m.busRt b).cut = false ∧ m1 = (m.busAxes b).foldl (fun m n => m.axStop n 6) ((((m.modBus b
        (fun x => { x with cut := true })).showBus b).count (K.BUS_CUTS b)).raise 0x2B13 [b]))
    ∧ (∃ (s : State) (m : Mach) (b : Nat) (t : Nat), s.quiet = m ∧ (m.busRt b).onSince = some t ∧ m.gb (K.BUS_FB_ENABLE b) = true ∧ t
        + m.g (K.BUS_FB_TIME b) ≤ m.time ∧ (m.busRt b).failed = false)
    ∧ (∃ (s : State) (m : Mach) (b : Nat) (t : Nat), s.quiet = m ∧ (m.busRt b).onSince = some t ∧ (m.busRt b).checked = false ∧ t +
        200 ≤ m.time)
    ∧ (∃ (s : State) (m : Mach) (ax : Nat), s.quiet = m ∧ m.axState ax = axStopped ∧ (m.axis ax).drive.bridge = .shorted ∧ (((m.axis
        ax).kind = 2 ∨ (m.axis ax).drive.shortSince + 100000 ≤ m.time)))
    ∧ (∃ (s : State) (m : Mach) (b : Nat), s.quiet = m ∧ s.admits (K.BUS_CLEAR b) (leBytes 1 1) = some 1 ∧ (m.busRt b).cut = true ∧
        m.busLow b = true)
    ∧ (∃ (s : State) (m : Mach) (b : Nat), s.quiet = m ∧ s.admits (K.BUS_BRK_CLEAR b) (leBytes 1 1) = some 1 ∧ (m.busRt b).failed =
        true ∧ m.busLow b = true)
    ∧ (∃ (s : State) (m : Mach) (m1 : Mach) (b : Nat) (w : Nat) (v : Nat) (bs : List Byte), s.quiet = m ∧ w < 3 ∧ bs = leBytes 2 v ∧
        s.admits (busLevelKey b w) bs = some v ∧ m1 = m.put (busLevelKey b w) v ∧ m1.g (K.BUS_WARN b) ≤ m1.g (K.BUS_BRK_OFF b) ∧ m1.g
        (K.BUS_BRK_OFF b) < m1.g (K.BUS_BRK_ON b) ∧ m1.g (K.BUS_BRK_ON b) < m1.g (K.BUS_OV_CUT b) ∧ (m1.g (K.BUS_OV_CUT b) : Rat) <
        (m1.gf (K.BUS_DIV b)).val * 18)
    ∧ (∃ (s : State) (m : Mach) (b : Nat) (ty : ObjTy), s.quiet = m ∧ s.reads (K.BUS_PEAK b) = some ty) :=
  ⟨⟨on (motor 1 1), _, 1, 0, rfl, by decide +kernel, by decide +kernel⟩,
   ⟨on up, _, 3, rfl, by decide +kernel⟩,
   ⟨on (motor 1 1), _, 0, 0, rfl, by decide +kernel, ⟨0, by decide +kernel, by decide +kernel⟩, by decide +kernel, by decide +kernel,
      by decide +kernel⟩,
   ⟨on ((up.puts [(K.BUS_OV_CUT 1, 650), (K.BUS_WARN 1, 600), (K.BUS_BRK_ON 1, 620)]).modBus 1 (fun x =>
      { x with warning := true })), _, _, _, 1, 65000, rfl, by decide +kernel, by decide +kernel, by decide +kernel,
      by decide +kernel, rfl, rfl, by decide +kernel⟩,
   ⟨up, _, 1, by decide +kernel, rfl⟩,
   ⟨on { (up.modBus 1 (fun x => { x with onSince := some 0 })).put (K.BUS_FB_ENABLE 1) 1 with time := 1000000 }, _, 1, 0, rfl,
      by decide +kernel, by decide +kernel, by decide +kernel, by decide +kernel⟩,
   ⟨on { up.modBus 1 (fun x => { x with onSince := some 0 }) with time := 200 }, _, 1, 0, rfl, by decide +kernel, by decide +kernel,
      by decide +kernel⟩,
   ⟨on (motor 2 9 [] (drive (fun d => { d with bridge := .shorted }))), _, 0, rfl, by decide +kernel, by decide +kernel, .inl
      (by decide +kernel)⟩,
   ⟨on (up.modBus 1 (fun x => { x with cut := true })), _, 1, rfl, by decide +kernel, by decide +kernel, by decide +kernel⟩,
   ⟨on (up.modBus 1 (fun x => { x with failed := true })), _, 1, rfl, by decide +kernel, by decide +kernel, by decide +kernel⟩,
   ⟨on (up.put (K.BUS_DIV 1) 0x42C80000), _, _, 1, 0, 300, _, rfl, by decide +kernel, rfl, by decide +kernel, rfl, by decide +kernel,
      by decide +kernel, by decide +kernel, by decide +kernel⟩,
   ⟨on up, _, 1, _, rfl, rfl⟩⟩

theorem witness_CameraCommandsComplete :
    (∃ (s : State) (m : Mach) (m1 : Mach) (cp : Nat), s.quiet = m ∧ s.admits (K.CP_ENABLE cp) (leBytes 1 1) = some 1 ∧ cp % 2 = 0 ∧
        m.g (K.CP_ENABLE cp) = 0 ∧ m1 = ((m.sample (camKeys cp)).put (K.CP_ENABLE cp) 1).modCam cp (fun _ => {}))
    ∧ (∃ (s : State) (m : Mach) (m1 : Mach) (cp : Nat) (v : Nat), s.quiet = m ∧ m.gb (K.CP_ENABLE cp) = true ∧ (m.cam cp).probeAt =
        none ∧ m1 = ((m.modCam cp (fun x => { x with probeAt := some m.time })).modCam cp (fun x => { x with misses := 0 })).put
        (K.CP_PRESENT cp) 1)
    ∧ (∃ (s : State) (m : Mach) (m1 : Mach) (cp : Nat) (t : Nat), s.quiet = m ∧ m.gb (K.CP_ENABLE cp) = true ∧ (m.cam cp).probeAt =
        some t ∧ t + 1000 * m.g (K.CP_PROBE_PERIOD cp) ≤ m.time ∧ m1 = (m.modCam cp (fun x =>
        { x with probeAt := some m.time })).modCam cp (fun x => { x with misses := (m.cam cp).misses + 1 }))
    ∧ (∃ (s : State) (m : Mach) (cp : Nat), s.quiet = m ∧ (m.cam cp).step = .reset ∧ (m.cam cp).fitAt + 1000 + 1000 * m.h
        (K.CP_RESET_WAIT cp) ≤ m.time)
    ∧ (∃ (s : State) (m : Mach) (cp : Nat) (e : Nat), s.quiet = m ∧ (m.cam cp).step = .replay ∧ e < (m.initEntries cp).length ∧ bit
        (fld ((m.initEntries cp).getD e 0) 1 1) 2 = false)
    ∧ (∃ (s : State) (m : Mach) (cp : Nat), s.quiet = m ∧ (m.cam cp).step = .replay ∧ (m.cam cp).fitAt + 1000 + 1000 * m.h
        (K.CP_RESET_WAIT cp) + ((m.initEntries cp).map (fun e => fld e 6 2)).foldl (· + ·) 0 ≤ m.time)
    ∧ (∃ (s : State) (m : Mach) (cp : Nat), s.quiet = m ∧ s.admits (K.CP_RESTART cp) (leBytes 1 1) = some 1 ∧ m.gb (K.CP_ENABLE cp) =
        true)
    ∧ (∃ (s : State) (m : Mach) (cp : Nat) (ty : ObjTy), s.quiet = m ∧ s.reads (K.CP_BUF_PEAK cp) = some ty)
    ∧ (∃ (s : State) (m : Mach) (m1 : Mach) (cp : Nat) (num : Nat) (vc : Nat) (r : Nat), s.quiet = m ∧ m.camArmed cp = true ∧ m1 =
        m.camTriggers.modCam cp (fun x => { x with lastNum := num }) ∧ m1.camRecord cp = some r ∧ ctxVc r = vc ∧ ctxLine r = false ∧
        (m1.cam cp).current = none)
    ∧ (∃ (s : State) (m : Mach) (cp : Nat) (vc : Nat) (dt : Nat) (r : Nat) (bad : Bool) (pix : List Nat), s.quiet = m ∧ m.camArmed cp
        = true ∧ m.camRecord cp = some r ∧ ctxLine r = false ∧ ctxVc r = vc ∧ dt = 0x2A + ctxFormat r)
    ∧ (∃ (s : State) (m : Mach) (cp : Nat) (vc : Nat) (r : Nat) (f : CamFrame), s.quiet = m ∧ m.camArmed cp = true ∧ (m.cam
        cp).receiving = true ∧ m.camRecord cp = some r ∧ ctxLine r = false ∧ ctxVc r = vc ∧ (m.cam cp).current = some f)
    ∧ (∃ (s : State) (m : Mach) (cp : Nat), s.quiet = m ∧ (m.cam cp).step = .armed ∧ (m.cam cp).armedAt + 1000 * m.g
        (K.CP_FRAME_TIMEOUT cp) ≤ m.time ∧ (m.cam cp).again = false)
    ∧ (∃ (s : State) (m : Mach) (cp : Nat) (t : Nat), s.quiet = m ∧ (m.cam cp).step = .ready ∧ m.h (K.CP_TRIG_SRC cp) ≠ 0 ∧ (m.cam
        cp).due = some t ∧ t + 1000 * m.g (K.CP_FRAME_TIMEOUT cp) ≤ m.time) :=
  ⟨⟨on up, _, _, 2, rfl, by decide +kernel, by decide +kernel, by decide +kernel, rfl⟩,
   ⟨on (filming .off), _, _, 0, 7, rfl, by decide +kernel, by decide +kernel, rfl⟩,
   ⟨on { (filming .off).modCam 0 (fun x => { x with probeAt := some 0 }) with time := 500000 }, _, _, 0, 0, rfl, by decide +kernel,
      by decide +kernel, by decide +kernel, rfl⟩,
   ⟨on { filming .reset with time := 11000 }, _, 0, rfl, by decide +kernel, by decide +kernel⟩,
   ⟨on (inUse (filming .replay) [(K.CP_INIT 0, 256 ^ 8 + 5)]), _, 0, 0, rfl, by decide +kernel, by decide +kernel, by decide +kernel⟩,
   ⟨on { filming .replay with time := 100000 }, _, 0, rfl, by decide +kernel, by decide +kernel⟩,
   ⟨on (filming .off), _, 0, rfl, by decide +kernel, by decide +kernel⟩,
   ⟨on up, _, 0, _, rfl, rfl⟩,
   ⟨on (filming .armed), _, _, 0, 1, _, _, rfl, by decide +kernel, rfl, rfl, rfl, by decide +kernel, by decide +kernel⟩,
   ⟨on (filming .armed [frame]), _, 0, _, _, _, false, [1, 2], rfl, by decide +kernel, rfl, by decide +kernel, rfl, rfl⟩,
   ⟨on (filming .armed [frame]), _, 0, _, _, frame, rfl, by decide +kernel, by decide +kernel, rfl, by decide +kernel, rfl,
      by decide +kernel⟩,
   ⟨on { filming .armed with time := 1000000 }, _, 0, rfl, by decide +kernel, by decide +kernel, by decide +kernel⟩,
   ⟨on { (inUse (filming .ready) [(K.CP_TRIG_SRC 0, 1)]).modCam 0 (fun x => { x with due := some 0 }) with time := 1000000 }, _, 0,
      0, rfl, by decide +kernel, by decide +kernel, by decide +kernel, by decide +kernel⟩⟩

theorem witness_PipelineCommandsComplete :
    (∃ (s : State) (m : Mach) (ip : Nat) (p : Nat) (f : CamFrame), s.quiet = m ∧ (m.pipe ip).cur = none ∧ m.waitingFrames ip = [(p,
        f)])
    ∧ (∃ (s : State) (m : Mach) (m1 : Mach) (ip : Nat) (p : Nat) (t : Nat) (f : CamFrame) (missing : List Nat), s.quiet = m ∧ (m.pipe
        ip).cur = some (p, t) ∧ (m.cam p).frames.find? (fun f => f.taken) = some f ∧ f.ended = true ∧ m.backlog p = 0 ∧ m1 = m.modCam
        p (fun x => { x with frames := x.frames.filter (fun y => !y.taken) }))
    ∧ (∃ (s : State) (m : Mach) (ip : Nat) (v : Nat), s.quiet = m ∧ s.admits (K.IP_MODE ip) (leBytes 1 v) = some v ∧ m.pipeBusy ip =
        false ∧ (m.put (K.IP_MODE ip) v).pipeRules = true)
    ∧ (∃ (s : State) (m : Mach) (ip : Nat) (v : Nat), s.quiet = m ∧ s.admits (K.IP_CTX_ENABLE ip) (leBytes 1 v) = some v ∧ m.pipeBusy
        ip = false ∧ (m.put (K.IP_CTX_ENABLE ip) v).pipeRules = true)
    ∧ (∃ (s : State) (m : Mach) (c : Nat) (v : Nat) (data : List Byte), s.quiet = m ∧ s.admits (K.IN_CTX_RECORD c) data = some v ∧
        m.ctxOk v = true)
    ∧ (∃ (s : State) (m : Mach) (id : Nat) (t : Nat) (r : InspRun), s.quiet = m ∧ m.insp.find? (fun r => r.item == id) = some r ∧
        r.boundaryAt = some t ∧ r.closed = none ∧ t + 1000 * m.g K.IN_CLOSE_TIMEOUT ≤ m.time)
    ∧ (∃ (s : State) (m : Mach) (hp : Nat), s.quiet = m ∧ s.admits (K.IN_GAIN_UNFREEZE hp) (leBytes 1 1) = some 1) :=
  ⟨⟨on (filming .armed [frame]), _, 0, 0, frame, rfl, by decide +kernel, by decide +kernel⟩,
   ⟨on
      { filming .armed [{ frame with taken := true, ended := true }] with pipes := up.pipes.modify 0 (fun x => { x with cur := some (0, 0) }) },
      _, _, 0, 0, 0, { frame with taken := true, ended := true }, [], rfl, by decide +kernel, by decide +kernel, by decide +kernel,
      by decide +kernel, rfl⟩,
   ⟨on up, _, 0, 0, rfl, by decide +kernel, by decide +kernel, by decide +kernel⟩,
   ⟨on up, _, 0, 3, rfl, by decide +kernel, by decide +kernel, by decide +kernel⟩,
   ⟨on up, _, 1, objDefault (K.IN_CTX_RECORD 1), leBytes 128 (objDefault (K.IN_CTX_RECORD 1)), rfl, by decide +kernel,
      by decide +kernel⟩,
   ⟨on { up with insp := [{ item := 5, pipe := 0, ctx := 0, port := 0, boundaryAt := some 0 }], time := 1000000000 }, _, 5, 0, _,
      rfl, rfl, by decide +kernel, by decide +kernel, by decide +kernel⟩,
   ⟨on up, _, 1, rfl, by decide +kernel⟩⟩

theorem witness_ConvertersComplete :
    (∃ (s : State) (m : Mach) (n : Mach) (phase : Nat), s.quiet = m ∧ n = m.anTick.rotateNow ∧ n.an.powered = false ∧ n.an.powerUp =
        none ∧ ((n.an.urgent ≠ [] ∨ n.an.waiting ≠ [])))
    ∧ (∃ (s : State) (m : Mach) (n : Mach) (m1 : Mach) (phase : Nat) (slot : Nat), s.quiet = m ∧ n = m.anTick.rotateNow ∧ n.an.powered
        = true ∧ slot = 16 * m.time + phase ∧ m1 = n.startUrgent slot)
    ∧ (∃ (m : Mach), m.an.staged = none ∧ m.an.rotDue = false)
    ∧ (∃ (s : State) (m : Mach) (e : Nat), s.quiet = m ∧ m.an.staged = none ∧ anEnabled m.an.table e = true ∧ m.an.next.getD e 0 ≤
        m.time ∧ m.an.working = true ∧ ((∀ w, w ∈ m.an.waiting → w.entry ≠ e)))
    ∧ (∃ (s : State) (m : Mach) (hp : Nat) (which : Nat) (chan : Nat) (phase : Nat) (window : Nat), s.quiet = m ∧ m.scanDue hp which =
        true)
    ∧ (∃ (s : State) (m : Mach) (ax : Nat) (which : Nat) (chan : Nat) (phase : Nat) (window : Nat), s.quiet = m)
    ∧ (∃ (s : State) (m : Mach) (m1 : Mach) (sl : Nat) (raw : Nat) (phase : Nat) (e : Nat) (ch : Nat) (code : Nat) (c : Conv) (flag :
        Bool) (sk : Bool), s.quiet = m ∧ (m.slice sl).conv = some c ∧ c.endSlot ≤ 16 * m.time + phase ∧ m.convEnd sl raw (16 * m.time
        + phase) = (m1, some { chan := ch, code, flag, kind := .entry e, skipped := sk }))
    ∧ (∃ (s : State) (m : Mach) (m1 : Mach) (sl : Nat) (raw : Nat) (phase : Nat) (c : Conv), s.quiet = m ∧ (m.slice sl).conv = some c
        ∧ c.endSlot ≤ 16 * m.time + phase ∧ m.convEnd sl raw (16 * m.time + phase) = (m1, none))
    ∧ (∃ (s : State) (m : Mach), s.quiet = m ∧ ((∀ h, h < m.nHeads → m.scanRuns h = false)) ∧ ((∀ n, n < m.nAxes → m.axEnabled n =
        false ∨ (m.axis n).kind ≠ 2)) ∧ ((∀ i, i < 5 → (m.slice i).conv = none)) ∧ m.an.waiting = [] ∧ m.an.urgent = [] ∧
        m.anShortPeriod = false ∧ m.an.lastEnd + 800 ≤ 16 * m.time)
    ∧ (∃ (s : State) (m : Mach) (m1 : Mach) (ofs : List Int) (gain : List Int), s.quiet = m ∧ m.an.working = false ∧ m.sup ≠ .reset ∧
        m1 = upto 5 (upto 5 m (fun m i => m.put (K.AN_SL_ROLE i) (if i = 4 then 1 else 0))) (fun m i => (m.modSlice i (fun x =>
        { x with since := m.time, calSince := m.time })).sliceCalibrate i (ofs.getD i 0) (gain.getD i 0)))
    ∧ (∃ (s : State) (m : Mach) (m1 : Mach) (ofs : Int) (gain : Int) (a : Nat), s.quiet = m ∧ (List.range 5).find? (fun x =>
        m.sliceRole x == 1) = some a ∧ m.an.rotate = true ∧ m.an.rotDue = false ∧ (m.slice a).calSince + 10000 ≤ m.time ∧ m1 =
        m.sliceCalibrate a ofs gain ∧ m1.sliceRole a ≠ 2)
    ∧ (∃ (m : Mach) (m2 : Mach) (a : Nat) (o : Nat), m.an.rotDue = true ∧ (List.range 5).find? (fun x => m.sliceRole x == 1) = some a
        ∧ m.inService = [o] ∧ (m.slice o).conv = none ∧ m2 = (((m.put (K.AN_SL_ROLE a) 0).put (K.AN_SL_ROLE o) 1).modSlice a (fun x =>
        { x with since := m.time, prev := none, recover := false })).modSlice o (fun x =>
        { x with calSince := m.time, checkDue := false }))
    ∧ (∃ (s : State) (m : Mach), s.quiet = m) :=
  ⟨⟨on { up with an := { up.an with powered := false, waiting := [{ due := 0, entry := 0 }] } }, _, _, 3, rfl, rfl,
      by decide +kernel, by decide +kernel, by decide +kernel⟩,
   ⟨on up, _, _, _, 3, _, rfl, rfl, by decide +kernel, rfl, rfl⟩,
   ⟨up, by decide +kernel, by decide +kernel⟩,
   ⟨on { up with an := { up.an with working := true, table := 0x80 } }, _, 0, rfl, by decide +kernel, by decide +kernel,
      by decide +kernel, by decide +kernel, by decide +kernel⟩,
   ⟨on { up with heads := up.heads.modify 1 (fun x => { x with scan := { x.scan with pulsing := true, lastStart := some 0 } }) }, _,
      1, 0, 3, 2, 5, rfl, by decide +kernel⟩,
   ⟨on up, _, 0, 0, 3, 2, 5, rfl⟩,
   ⟨on (converting false), _, _, 1, 700, 0, 2, 3, _, _, _, _, rfl, rfl, by decide +kernel, rfl⟩,
   ⟨on (converting true), _, _, 1, 700, 0, _, rfl, rfl, by decide +kernel, rfl⟩,
   ⟨on { up with time := 1000 }, _, rfl, by decide +kernel, by decide +kernel, by decide +kernel, by decide +kernel,
      by decide +kernel, by decide +kernel, by decide +kernel⟩,
   ⟨on up, _, _, [], [], rfl, by decide +kernel, by decide +kernel, rfl⟩,
   ⟨on
      { up.puts [(K.AN_SL_ROLE 0, 2), (K.AN_SL_ROLE 1, 1), (K.AN_SL_ROLE 2, 0), (K.AN_SL_ROLE 3, 2), (K.AN_SL_ROLE 4, 2)] with an := { up.an with rotate := true }, time := 10000 },
      _, _, 0, 0, 1, rfl, by decide +kernel, by decide +kernel, by decide +kernel, by decide +kernel, rfl, by decide +kernel⟩,
   ⟨{ up.puts [(K.AN_SL_ROLE 0, 2), (K.AN_SL_ROLE 1, 1), (K.AN_SL_ROLE 2, 0), (K.AN_SL_ROLE 3, 2), (K.AN_SL_ROLE 4, 2)] with an := { up.an with rotDue := true } },
      _, 1, 2, by decide +kernel, by decide +kernel, by decide +kernel, by decide +kernel, rfl⟩,
   ⟨on up, _, rfl⟩⟩

theorem witness_AnalogueSettingsComplete :
    (∃ (s : State) (m : Mach) (data : List Byte) (v : Nat), s.quiet = m ∧ s.admits K.AN_SEQ_TABLE data = some v ∧ anTableOk v =
        true)
    ∧ (∃ (s : State) (m : Mach) (ch : Nat) (v : Nat), s.quiet = m ∧ s.admits (K.AN_CH_CFG ch) (leBytes 2 v) = some v)
    ∧ (∃ (s : State) (m : Mach) (a : Nat) (v : Nat), s.quiet = m ∧ s.admits (K.AN_ACC_FILTER a) (leBytes 1 v) = some v ∧ v % 4 ≠ 3 ∧ v
        / 4 % 16 ≤ 8)
    ∧ (∃ (s : State) (m : Mach) (a : Nat), s.quiet = m ∧ s.admits (K.AN_ACC_RESET a) (leBytes 1 1) = some 1)
    ∧ (∃ (s : State) (m : Mach) (t : Nat), s.quiet = m ∧ s.admits (K.AN_MM_RESET t) (leBytes 1 1) = some 1)
    ∧ (∃ (s : State) (m : Mach) (t : Nat) (ty : ObjTy), s.quiet = m ∧ s.reads (K.AN_MM_MAX t) = some ty)
    ∧ (∃ (s : State) (m : Mach) (sl : Nat), s.quiet = m ∧ s.admits (K.AN_SL_UNFREEZE sl) (leBytes 1 1) = some 1 ∧ m.g
        (K.AN_SL_CAL_STATUS sl) = 3)
    ∧ (∃ (s : State) (m : Mach) (sl : Nat) (v : Nat), s.quiet = m ∧ s.admits (K.AN_SL_OFS_MIN sl) (leBytes 2 v) = some v ∧ sext 16 v ≤
        sext 16 (m.g (K.AN_SL_OFS_MAX sl)))
    ∧ (∃ (s : State) (m : Mach) (sl : Nat) (v : Nat), s.quiet = m ∧ s.admits (K.AN_SL_GAIN_MAX sl) (leBytes 4 v) = some v ∧ sext 32
        (m.g (K.AN_SL_GAIN_MIN sl)) ≤ sext 32 v) :=
  ⟨⟨on up, _, List.replicate 1024 0, 0, rfl, by decide +kernel, by decide +kernel⟩,
   ⟨on up, _, 3, 0, rfl, by decide +kernel⟩,
   ⟨on up, _, 3, 4, rfl, by decide +kernel, by decide +kernel, by decide +kernel⟩,
   ⟨on up, _, 3, rfl, by decide +kernel⟩,
   ⟨on up, _, 3, rfl, by decide +kernel⟩,
   ⟨on up, _, 3, _, rfl, rfl⟩,
   ⟨on (up.put (K.AN_SL_CAL_STATUS 2) 3), _, 2, rfl, by decide +kernel, by decide +kernel⟩,
   ⟨on up, _, 2, 0, rfl, by decide +kernel, by decide +kernel⟩,
   ⟨on up, _, 2, 0, rfl, by decide +kernel, by decide +kernel⟩⟩

theorem witness_SessionRequestsComplete :
    (∃ (s : State) (m : Mach) (m1 : Mach) (m2 : Mach) (en : Nat) (i : Nat) (corr : List Nat) (f : RxFrame) (x : Session) (r :
        ObjRow) (bs : List Byte), s.quiet = m ∧ m.Asks en 1 f i x m1 ∧ 12 ≤ f.payload.length ∧ canWindow (payKey f.payload) = none ∧
        objRow (payKey f.payload) = some r ∧ r.ty.isDomain = false ∧ payOffset f.payload = 0 ∧ m1.readObj s.mem (payKey f.payload)
        (min (payCount f.payload) (m1.frameLimit en - 28)) corr = (m2, .ok, bs) ∧ bs.length ≤ payCount f.payload)
    ∧ (∃ (s : State) (m : Mach) (m1 : Mach) (m2 : Mach) (en : Nat) (i : Nat) (n : Nat) (corr : List Nat) (f : RxFrame) (x : Session)
        (r : ObjRow) (bs : List Byte) (part : List Byte), s.quiet = m ∧ m.Asks en 1 f i x m1 ∧ 12 ≤ f.payload.length ∧ canWindow
        (payKey f.payload) = none ∧ objRow (payKey f.payload) = some r ∧ r.ty.isDomain = true ∧ n = min (payCount f.payload)
        (m1.frameLimit en - 28) ∧ m1.readObj s.mem (payKey f.payload) n corr = (m2, .ok, bs) ∧ part = (bs.drop (payOffset
        f.payload)).take n ∧ payOffset f.payload + part.length < bs.length)
    ∧ (∃ (s : State) (m : Mach) (m1 : Mach) (m2 : Mach) (en : Nat) (i : Nat) (n : Nat) (corr : List Nat) (f : RxFrame) (x : Session)
        (r : ObjRow) (bs : List Byte) (part : List Byte), s.quiet = m ∧ m.Asks en 1 f i x m1 ∧ 12 ≤ f.payload.length ∧ canWindow
        (payKey f.payload) = none ∧ objRow (payKey f.payload) = some r ∧ r.ty.isDomain = true ∧ n = min (payCount f.payload)
        (m1.frameLimit en - 28) ∧ m1.readObj s.mem (payKey f.payload) n corr = (m2, .ok, bs) ∧ part = (bs.drop (payOffset
        f.payload)).take n ∧ bs.length ≤ payOffset f.payload + part.length)
    ∧ (∃ (s : State) (m : Mach) (m1 : Mach) (m2 : Mach) (en : Nat) (i : Nat) (k : Nat) (data : List Byte) (f : RxFrame) (x : Session)
        (r : ObjRow), s.quiet = m ∧ m.Asks en 2 f i x m1 ∧ 12 ≤ f.payload.length ∧ payKey f.payload = k ∧ f.payload.drop 12 = data ∧
        data.length = payCount f.payload ∧ payOffset f.payload = 0 ∧ f.more = false ∧ objRow k = some r ∧ r.acc.writable = true ∧
        r.ty.isDomain = false ∧ m1.reach (urgentKey k) = .open_ ∧ m1.objStatus k = .ok ∧ r.judge data = .ok ∧ effOf s.mem (.hywex i
        f.tc f.op f.seq) k (m1.taken k r.ty (r.ty.encode data)).1 (m1.taken k r.ty (r.ty.encode data)).2 = (m2, .ok) ∧ answersAtTick k
        = false ∧ answersLate k data = false)
    ∧ (∃ (s : State) (m : Mach) (m1 : Mach) (m2 : Mach) (en : Nat) (i : Nat) (k : Nat) (data : List Byte) (f : RxFrame) (x : Session)
        (r : ObjRow), s.quiet = m ∧ m.Asks en 2 f i x m1 ∧ 12 ≤ f.payload.length ∧ payKey f.payload = k ∧ f.payload.drop 12 = data ∧
        data.length = payCount f.payload ∧ payOffset f.payload = 0 ∧ f.more = false ∧ objRow k = some r ∧ r.acc.writable = true ∧
        r.ty.isDomain = false ∧ m1.reach (urgentKey k) = .open_ ∧ m1.objStatus k = .ok ∧ r.judge data = .ok ∧ effOf s.mem (.hywex i
        f.tc f.op f.seq) k (m1.taken k r.ty (r.ty.encode data)).1 (m1.taken k r.ty (r.ty.encode data)).2 = (m2, .ok) ∧ answersAtTick k
        = true)
    ∧ (∃ (s : State) (m : Mach) (m1 : Mach) (m2 : Mach) (en : Nat) (i : Nat) (k : Nat) (data : List Byte) (f : RxFrame) (x : Session)
        (r : ObjRow), s.quiet = m ∧ m.Asks en 2 f i x m1 ∧ 12 ≤ f.payload.length ∧ payKey f.payload = k ∧ f.payload.drop 12 = data ∧
        data.length = payCount f.payload ∧ payOffset f.payload = 0 ∧ f.more = true ∧ objRow k = some r ∧ r.acc.writable = true ∧
        r.ty.isDomain = true ∧ r.ty.over data.length = false ∧ m1.reach (urgentKey k) = .open_ ∧ m1.objStatus k = .ok ∧ answersLate k
        data = false ∧ m2 = m1.setDomain i (some (k, data)))
    ∧ (∃ (s : State) (m : Mach) (m1 : Mach) (m2 : Mach) (en : Nat) (i : Nat) (w : Nat) (a : Nat) (n : Nat) (corr : List Nat) (f :
        RxFrame) (x : Session) (bs : List Byte), s.quiet = m ∧ m.Asks en 3 f i x m1 ∧ 12 ≤ f.payload.length ∧ m1.reach false = .open_
        ∧ le f.payload 0 1 = w ∧ payCount f.payload = n ∧ n ≤ m1.frameLimit en - 28 ∧ m1.winAddr w (payOffset f.payload) n = some a ∧
        m1.mapped a n = true ∧ a < 0x110000000 ∧ m1.winBytes s.mem a n = (bs, m2))
    ∧ (∃ (s : State) (m : Mach) (m1 : Mach) (en : Nat) (i : Nat) (w : Nat) (a : Nat) (f : RxFrame) (x : Session) (data : List Byte),
        s.quiet = m ∧ m.Asks en 4 f i x m1 ∧ 12 ≤ f.payload.length ∧ m1.reach false = .open_ ∧ le f.payload 0 1 = w ∧ f.payload.drop
        12 = data ∧ payCount f.payload = data.length ∧ data.length ≤ m1.frameLimit en - 28 ∧ m1.winAddr w (payOffset f.payload)
        data.length = some a ∧ m1.gb (K.MEM_WRITABLE w) = true ∧ m1.mapped a data.length = true ∧ inHostArea a data.length = true)
    ∧ (∃ (s : State) (m : Mach) (m1 : Mach) (en : Nat) (i : Nat) (f : RxFrame) (x : Session), s.quiet = m ∧ m.Asks en 10 f i x m1 ∧
        m1.reach false = .open_) :=
  ⟨⟨on (serving (req 1 (payload K.IT_SELECT 0 8))), _, _, _, 0, 1, [], req 1 (payload K.IT_SELECT 0 8), sess, _, [0, 0], rfl, asks
      (by decide +kernel) (by decide +kernel) (by decide +kernel) (by decide +kernel) (by decide +kernel) rfl, by decide +kernel,
      by decide +kernel, (Option.some_get (by decide +kernel)).symm, by decide +kernel, by decide +kernel, read_ok
      (by decide +kernel), by decide +kernel⟩,
   ⟨on (serving (req 1 (payload (K.IN_CTX_RECORD 1) 0 10))), _, _, _, 0, 1, _, [], req 1 (payload (K.IN_CTX_RECORD 1) 0 10), sess, _,
      leBytes 128 (objDefault (K.IN_CTX_RECORD 1)), _, rfl, asks (by decide +kernel) (by decide +kernel) (by decide +kernel)
      (by decide +kernel) (by decide +kernel) rfl, by decide +kernel, by decide +kernel, (Option.some_get (by decide +kernel)).symm,
      by decide +kernel, rfl, read_ok (by decide +kernel), rfl, by decide +kernel⟩,
   ⟨on (serving (req 1 (payload (K.IN_CTX_RECORD 1) 0 200))), _, _, _, 0, 1, _, [], req 1 (payload (K.IN_CTX_RECORD 1) 0 200), sess,
      _, leBytes 128 (objDefault (K.IN_CTX_RECORD 1)), _, rfl, asks (by decide +kernel) (by decide +kernel) (by decide +kernel)
      (by decide +kernel) (by decide +kernel) rfl, by decide +kernel, by decide +kernel, (Option.some_get (by decide +kernel)).symm,
      by decide +kernel, rfl, read_ok (by decide +kernel), rfl, by decide +kernel⟩,
   ⟨on (serving (req 2 (payload K.IT_SELECT 0 2 [5, 0]))), _, _, _, 0, 1, K.IT_SELECT, [5, 0], req 2 (payload K.IT_SELECT 0 2 [5,
      0]), sess, _, rfl, asks (by decide +kernel) (by decide +kernel) (by decide +kernel) (by decide +kernel) (by decide +kernel) rfl,
      by decide +kernel, by decide +kernel, by decide +kernel, by decide +kernel, by decide +kernel, by decide +kernel,
      (Option.some_get (by decide +kernel)).symm, by decide +kernel, by decide +kernel, by decide +kernel, by decide +kernel,
      by decide +kernel, eff_ok (by decide +kernel), by decide +kernel, by decide +kernel⟩,
   ⟨on (serving (req 2 (payload K.AX_REFRESH 0 1 [3]))), _, _, _, 0, 1, K.AX_REFRESH, [3], req 2 (payload K.AX_REFRESH 0 1 [3]),
      sess, _, rfl, asks (by decide +kernel) (by decide +kernel) (by decide +kernel) (by decide +kernel) (by decide +kernel) rfl,
      by decide +kernel, by decide +kernel, by decide +kernel, by decide +kernel, by decide +kernel, by decide +kernel,
      (Option.some_get (by decide +kernel)).symm, by decide +kernel, by decide +kernel, by decide +kernel, by decide +kernel,
      by decide +kernel, eff_ok (by decide +kernel), by decide +kernel⟩,
   ⟨on (serving (req 2 (payload (K.IN_CTX_RECORD 1) 0 2 [5, 0]) true)), _, _, _, 0, 1, K.IN_CTX_RECORD 1, [5, 0], req 2 (payload
      (K.IN_CTX_RECORD 1) 0 2 [5, 0]) true, sess, _, rfl, asks (by decide +kernel) (by decide +kernel) (by decide +kernel)
      (by decide +kernel) (by decide +kernel) rfl, by decide +kernel, by decide +kernel, by decide +kernel, by decide +kernel,
      by decide +kernel, by decide +kernel, (Option.some_get (by decide +kernel)).symm, by decide +kernel, by decide +kernel,
      by decide +kernel, by decide +kernel, by decide +kernel, by decide +kernel, rfl⟩,
   ⟨on (serving (req 3 (payload 0 8 4))), _, _, _, 0, 1, 0, 8, _, [], req 3 (payload 0 8 4), sess, _, rfl, asks (by decide +kernel)
      (by decide +kernel) (by decide +kernel) (by decide +kernel) (by decide +kernel) rfl, by decide +kernel, by decide +kernel,
      by decide +kernel, rfl, by decide +kernel, by decide +kernel, by decide +kernel, by decide +kernel, pair_eta _⟩,
   ⟨on (serving (req 4 (payload 0 8 2 [5, 6]))), _, _, 0, 1, 0, 8, req 4 (payload 0 8 2 [5, 6]), sess, [5, 6], rfl, asks
      (by decide +kernel) (by decide +kernel) (by decide +kernel) (by decide +kernel) (by decide +kernel) rfl, by decide +kernel,
      by decide +kernel, by decide +kernel, by decide +kernel, by decide +kernel, by decide +kernel, by decide +kernel,
      by decide +kernel, by decide +kernel, by decide +kernel⟩,
   ⟨on (serving (req 10 [])), _, _, 0, 1, req 10 [], sess, rfl, asks (by decide +kernel) (by decide +kernel) (by decide +kernel)
      (by decide +kernel) (by decide +kernel) rfl, by decide +kernel⟩⟩

theorem witness_SessionFramesComplete :
    (∃ (s : State) (m : Mach) (m1 : Mach) (en : Nat) (i : Nat) (f : RxFrame) (x : Session), s.quiet = m ∧ m.Asks en 6 f i x m1 ∧ 4 ≤
        f.payload.length)
    ∧ (∃ (s : State) (m : Mach) (m1 : Mach) (en : Nat) (i : Nat) (f : RxFrame) (x : Session), s.quiet = m ∧ m.Asks en 7 f i x m1)
    ∧ (∃ (s : State) (m : Mach) (m1 : Mach) (en : Nat) (i : Nat) (n : Nat) (data : List Byte) (f : RxFrame) (x : Session), s.quiet = m
        ∧ m.Asks en 8 f i x m1 ∧ x.pd = true ∧ n < 8 ∧ data.length ≤ 64 ∧ le f.payload 0 1 = n ∧ le f.payload 1 1 = data.length ∧
        f.payload.length = 4 + data.length ∧ f.payload.drop 4 = data ∧ m1.pdoOn n = true ∧ m1.pdoRoute n = 1)
    ∧ (∃ (s : State) (m : Mach) (m0 : Mach) (m1 : Mach) (m2 : Mach) (en : Nat) (i : Nat) (n : Nat) (f : RxFrame) (x : Session),
        s.quiet = m ∧ m.enOpen en = true ∧ m.rxNext en = some f ∧ f.op = 9 ∧ m0 = m.rxPop en f ∧ m0.reach false = .open_ ∧ 4 ≤
        f.payload.length ∧ (List.range 4).find? (fun j => (m0.session j).isNone) = some i ∧ n = m0.freeNumber 6 m0.net.nextSession ∧ x
        =
        { number := n, port := en, addr := f.addr, udp := f.udp, timeout := le f.payload 0 2, mask := le f.payload 2 1, pd := bit (le f.payload 3 1) 0, lastSeen := m0.time }
        ∧ m1 =
        { m0 with net := { m0.net with sessions := m0.net.sessions.set i (some x), nextSession := n % 0xFFFF + 1 }, ev := { m0.ev with slots := m0.ev.slots.set i {} } }
        ∧ m2 = ((m1.emit (.hywex (i + 1) n 9 f.seq .ok [] false)).raise 0x2F83 [n, i + 1, en]).partnerFound dscHost (i + 1) f.addr
        f.udp ∧ ∃ e, m2.partnerFind dscHost (i + 1) f.addr f.udp = some e ∧ ∃ (m3 : Mach), m3 = m2.put (K.DSC_PARTNER e) (setFld
        (m2.partner e) 0x0C 4 n)) :=
  ⟨⟨on (serving (req 6 [0, 0, 0, 0])), _, _, 0, 1, req 6 [0, 0, 0, 0], sess, rfl, asks (by decide +kernel) (by decide +kernel)
      (by decide +kernel) (by decide +kernel) (by decide +kernel) rfl, by decide +kernel⟩,
   ⟨on (serving (req 7 [])), _, _, 0, 1, req 7 [], sess, rfl, asks (by decide +kernel) (by decide +kernel) (by decide +kernel)
      (by decide +kernel) (by decide +kernel) rfl⟩,
   ⟨on ((serving (req 8 [0, 2, 0, 0, 5, 6])).put (K.CIA_RPDO_COB 0) 0x200), _, _, 0, 1, 0, [5, 6], req 8 [0, 2, 0, 0, 5, 6], sess,
      rfl, asks (by decide +kernel) (by decide +kernel) (by decide +kernel) (by decide +kernel) (by decide +kernel) rfl,
      by decide +kernel, by decide +kernel, by decide +kernel, by decide +kernel, by decide +kernel, by decide +kernel,
      by decide +kernel, by decide +kernel, by decide +kernel⟩,
   ⟨on (serving (req 9 [1, 0, 0, 0])), _, _, _, _, 0, 0, _, req 9 [1, 0, 0, 0], _, rfl, by decide +kernel, by decide +kernel,
      by decide +kernel, rfl, by decide +kernel, by decide +kernel, by decide +kernel, rfl, rfl, rfl, rfl, 0, by decide +kernel, _,
      rfl⟩⟩

theorem witness_PortCommandsComplete :
    (∃ (s : State) (m : Mach) (en : Nat) (data : List Byte), s.quiet = m ∧ m.enOpen en = true ∧ m.ethKind en data = .bad)
    ∧ (∃ (s : State) (m : Mach) (en : Nat) (data : List Byte), s.quiet = m ∧ m.enOpen en = true ∧ ∃ addr, ∃ udp, ∃ p, ∃ tc, ∃ op, ∃ (f
        : RxFrame), m.ethKind en data = .hywex addr udp p ∧ hwxValid p = true ∧ m.hwxAllowed addr = true ∧ hwxReserved p = false ∧ op
        = le p 3 1 ∧ hwxClass op (le p 2 1 / 16 % 4) (bit (le p 11 1) 1) (p.drop 16) = (tc, false) ∧ m.slotOf en (le p 6 2) addr udp =
        none ∧ f = { tc, op, seq := le p 4 2, session := le p 6 2, more := bit (le p 11 1) 1, addr, udp, payload := p.drop 16 } ∧
        ((m.net.rx.getD en []).filter (fun (q : RxFrame) => q.tc == tc)).length < rxRoom tc)
    ∧ (∃ (s : State) (m : Mach), s.quiet = m ∧ s.admits K.NET_STOP_ALL (leBytes 1 1) = some 1)
    ∧ (∃ (s : State) (m : Mach), s.quiet = m)
    ∧ (∃ (s : State) (m : Mach), s.quiet = m)
    ∧ (∃ (s : State) (m : Mach) (m1 : Mach), s.quiet = m ∧ m.reach true = .open_ ∧ m.net.hbSent + 1000 * m.g K.NET_HB_PERIOD ≤ m.time
        ∧ m.sup = .ready ∧ m1 = { m with net := { m.net with hbSent := m.time } })
    ∧ (∃ (s : State) (m : Mach) (slot : Nat) (x : Session), s.quiet = m ∧ m.session slot = some x ∧ x.timeout ≠ 0 ∧ x.lastSeen + 1000
        * x.timeout ≤ m.time ∧ m.dictUp = true)
    ∧ (∃ (s : State) (m : Mach) (en : Nat) (speed : Nat), s.quiet = m ∧ m.reach true = .open_ ∧ m.gb (K.NET_PORT_ENABLE en) = true ∧ 0
        < speed ∧ m.g (K.NET_LINK en) ≠ speed)
    ∧ (∃ (s : State) (m : Mach) (m1 : Mach) (en : Nat) (addr : Nat), s.quiet = m ∧ m.reach true = .open_ ∧ m.gb (K.NET_PORT_ENABLE en)
        = true ∧ m.enDhcp en = true ∧ m1 = m.put (K.NET_IP_ADDR en) addr)
    ∧ (∃ (s : State) (m : Mach) (m0 : Mach) (m1 : Mach) (en : Nat), s.quiet = m ∧ s.admits (K.NET_PORT_ENABLE en) (leBytes 1 1) = some
        1 ∧ m0 = (m.put (K.NET_PORT_ENABLE en) 1).sample (enKeys en) ∧ m1 =
        { m0 with net := { m0.net with hwxPort := m0.net.hwxPort.set en (m0.g K.NET_HWX_PORT) } } ∧ m1.enDhcp en = true) :=
  ⟨⟨on (serving (req 7 [])), _, 0, [], rfl, by decide +kernel, by decide +kernel⟩,
   ⟨on (inUse (serving (req 7 []) []) [(K.NET_IP_MODE 0, 0)]), _, 0, Tests.udp 0 9 10 47700 (hywex 7 []), rfl, by decide +kernel, 9,
      10, hywex 7 [], 0, 7, _, by decide +kernel, by decide +kernel, by decide +kernel, by decide +kernel, by decide +kernel,
      by decide +kernel, by decide +kernel, rfl, by decide +kernel⟩,
   ⟨on up, _, rfl, by decide +kernel⟩,
   ⟨on up, _, rfl⟩,
   ⟨on up, _, rfl⟩,
   ⟨on { up with time := 1000000 }, _, _, rfl, by decide +kernel, by decide +kernel, by decide +kernel, rfl⟩,
   ⟨on { up with net := { up.net with sessions := [none, some { sess with timeout := 5 }, none, none] }, time := 5000 }, _, 1,
      { sess with timeout := 5 }, rfl, by decide +kernel, by decide +kernel, by decide +kernel, by decide +kernel⟩,
   ⟨on (up.put (K.NET_PORT_ENABLE 1) 1), _, 1, 3, rfl, by decide +kernel, by decide +kernel, by decide +kernel, by decide +kernel⟩,
   ⟨on (inUse (up.put (K.NET_PORT_ENABLE 1) 1) [(K.NET_IP_MODE 1, 1)]), _, _, 1, 0x0A000001, rfl, by decide +kernel,
      by decide +kernel, by decide +kernel, rfl⟩,
   ⟨on (up.put (K.NET_IP_MODE 1) 1), _, _, _, 1, rfl, by decide +kernel, rfl, rfl, by decide +kernel⟩⟩

theorem witness_CanCommandsComplete :
    (∃ (s : State) (m : Mach), s.quiet = m ∧ m.canOpen 0 = true ∧ m.gb (K.NET_NMT_RESET_ENABLE 0) = true)
    ∧ (∃ (s : State) (m : Mach), s.quiet = m ∧ m.canOpen 0 = true ∧ m.gb (K.NET_NMT_RESET_ENABLE 0) = false)
    ∧ (∃ (s : State) (m : Mach) (m1 : Mach) (cf : Nat) (index : Nat) (sub : Nat) (count : Nat) (corr : List Nat) (bs : List Byte),
        s.quiet = m ∧ m.sdoOpen cf = true ∧ m.readObj s.mem (index * 256 + sub) count corr = (m1, .ok, bs))
    ∧ (∃ (s : State) (m : Mach) (m1 : Mach) (cf : Nat) (index : Nat) (sub : Nat) (k : Nat) (data : List Byte) (r : ObjRow), s.quiet =
        m ∧ m.sdoOpen cf = true ∧ k = index * 256 + sub ∧ objRow k = some r ∧ m.reach (urgentKey k) = .open_ ∧ m.objStatus k = .ok ∧
        r.judge data = .ok ∧ effOf s.mem (.sdo cf) k (m.taken k r.ty (r.ty.encode data)).1 (m.taken k r.ty (r.ty.encode data)).2 =
        (m1, .ok) ∧ answersAtTick k = false ∧ answersLate k data = false)
    ∧ (∃ (s : State) (m : Mach), s.quiet = m ∧ m.canOpen 0 = true ∧ m.net.nmt = .operational ∧ (∀ n, m.net.rpdoHeld.getD n none =
        none) ∧ ((∀ n, n < 8 → m.pdoOn (8 + n) = false)))
    ∧ (∃ (s : State) (m : Mach) (m1 : Mach) (n : Nat) (ty : Nat), s.quiet = m ∧ m.canOpen 0 = true ∧ m.net.nmt = .operational ∧ (∀ k,
        m.net.rpdoHeld.getD k none = none) ∧ n < 8 ∧ m.pdoOn (8 + n) = true ∧ m.pdoRoute (8 + n) ≠ 1 ∧ ((∀ k, k < 8 → k ≠ n → m.pdoOn
        (8 + k) = false)) ∧ m.g (K.CIA_TPDO_TYPE n) = ty ∧ 0 < ty ∧ ty ≤ 240 ∧ m.net.syncCount.getD n 0 + 1 = ty ∧ m1 =
        { m with net := { m.net with syncCount := m.net.syncCount.set n 0 } })
    ∧ (∃ (s : State) (m : Mach) (data : List Byte), s.quiet = m ∧ m.sdoOpen 0 = true)
    ∧ (∃ (s : State) (m : Mach) (n : Nat) (data : List Byte), s.quiet = m ∧ m.canOpen 0 = true ∧ m.net.nmt = .operational ∧ m.pdoOn n
        = true ∧ m.pdoRoute n = 0 ∧ data.length ≤ m.pdoLimit n ∧ m.g (K.CIA_RPDO_TYPE n) ≤ 240)
    ∧ (∃ (s : State) (m : Mach) (n : Nat) (data : List Byte), s.quiet = m ∧ m.canOpen 0 = true ∧ m.net.nmt = .operational ∧ m.pdoOn n
        = true ∧ m.pdoRoute n = 0 ∧ data.length ≤ m.pdoLimit n ∧ 240 < m.g (K.CIA_RPDO_TYPE n))
    ∧ (∃ (s : State) (m : Mach) (n : Nat) (t : Nat), s.quiet = m ∧ m.dictUp = true ∧ m.pdoOn (8 + n) = true ∧ m.g (K.CIA_TPDO_EVENT n)
        = t ∧ 0 < t ∧ m.net.tpdoLast.getD n 0 + 1000 * t ≤ m.time ∧ 254 ≤ m.g (K.CIA_TPDO_TYPE n))
    ∧ (∃ (s : State) (m : Mach) (m1 : Mach) (t : Nat), s.quiet = m ∧ m.reach true = .open_ ∧ m.g K.CIA_HB_PRODUCER = t ∧ 0 < t ∧
        m.net.canHbLast + 1000 * t ≤ m.time ∧ m1 = { m with net := { m.net with canHbLast := m.time } } ∧ m1.g (K.NET_CAN_STATE 0) ≠ 2
        ∧ m1.g (K.NET_CAN_STATE 1) = 2)
    ∧ (∃ (s : State) (m : Mach) (t : Nat), s.quiet = m ∧ m.net.hbLast = some t ∧ m.cfHostSet = true ∧ m.net.hbLapsed = false ∧ t +
        1000 * m.cfHostTime ≤ m.time ∧ ∃ (m1 : Mach), m1 = { m with net := { m.net with hbLapsed := true } })
    ∧ (∃ (s : State) (m : Mach) (m1 : Mach), s.quiet = m ∧ m.canOpen 0 = true ∧ m.cfHostSet = true ∧ m1 =
        { m with net := { m.net with hbLast := some m.time, hbLapsed := false } })
    ∧ (∃ (s : State) (m : Mach) (node : Nat) (data : List Byte), s.quiet = m)
    ∧ (∃ (s : State) (m : Mach) (m1 : Mach) (cf : Nat) (win : Nat) (count : Nat) (corr : List Nat) (bs : List Byte), s.quiet = m ∧
        m.sdoOpen cf = true ∧ m.readObj s.mem (K.MEM_CAN_DATA win) count corr = (m1, .ok, bs)) :=
  ⟨⟨on (up.put (K.NET_NMT_RESET_ENABLE 0) 1), _, rfl, by decide +kernel, by decide +kernel⟩,
   ⟨on (up.put (K.NET_NMT_RESET_ENABLE 0) 0), _, rfl, by decide +kernel, by decide +kernel⟩,
   ⟨on up, _, _, 0, K.IT_SELECT / 256, K.IT_SELECT % 256, 2, [], [0, 0], rfl, by decide +kernel, read_ok (by decide +kernel)⟩,
   ⟨on up, _, _, 0, K.IT_SELECT / 256, K.IT_SELECT % 256, _, [5, 0], _, rfl, by decide +kernel, rfl, (Option.some_get
      (by decide +kernel)).symm, by decide +kernel, by decide +kernel, by decide +kernel, eff_ok (by decide +kernel),
      by decide +kernel, by decide +kernel⟩,
   ⟨on (nmt .operational), _, rfl, by decide +kernel, by decide +kernel, none_held rfl, by decide +kernel⟩,
   ⟨on { nmt .operational [(K.CIA_TPDO_COB 3, 0x180), (K.CIA_TPDO_TYPE 3, 1)] with held := [(K.NET_PD_ROUTE 11, 0)] }, _, _, 3, 1,
      rfl, by decide +kernel, by decide +kernel, none_held rfl, by decide +kernel, by decide +kernel, by decide +kernel,
      by decide +kernel, by decide +kernel, by decide +kernel, by decide +kernel, by decide +kernel, rfl⟩,
   ⟨on up, _, leBytes 8 5, rfl, by decide +kernel⟩,
   ⟨on (nmt .operational [(K.CIA_RPDO_COB 3, 0x180), (K.CIA_RPDO_TYPE 3, 1)]), _, 3, [5], rfl, by decide +kernel, by decide +kernel,
      by decide +kernel, by decide +kernel, by decide +kernel, by decide +kernel⟩,
   ⟨on (nmt .operational [(K.CIA_RPDO_COB 3, 0x180), (K.CIA_RPDO_TYPE 3, 255)]), _, 3, [5], rfl, by decide +kernel,
      by decide +kernel, by decide +kernel, by decide +kernel, by decide +kernel, by decide +kernel⟩,
   ⟨on { nmt .operational [(K.CIA_TPDO_COB 3, 0x180), (K.CIA_TPDO_TYPE 3, 255), (K.CIA_TPDO_EVENT 3, 5)] with time := 5000 }, _, 3,
      5, rfl, by decide +kernel, by decide +kernel, by decide +kernel, by decide +kernel, by decide +kernel, by decide +kernel⟩,
   ⟨on { up.puts [(K.CIA_HB_PRODUCER, 5), (K.NET_CAN_STATE 1, 2)] with time := 5000 }, _, _, 5, rfl, by decide +kernel,
      by decide +kernel, by decide +kernel, by decide +kernel, rfl, by decide +kernel, by decide +kernel⟩,
   ⟨on { up.put K.CIA_HB_CONSUMER 0x70005 with time := 5000, net := { up.net with hbLast := some 0 } }, _, 0, rfl, by decide +kernel,
      by decide +kernel, by decide +kernel, by decide +kernel, _, rfl⟩,
   ⟨on (up.put K.CIA_HB_CONSUMER 0x70005), _, _, rfl, by decide +kernel, by decide +kernel, rfl⟩,
   ⟨on up, _, 3, [], rfl⟩,
   ⟨on (up.puts [(K.MEM_ENABLE 0, 1), (K.MEM_SIZE 0, 4096)]), _, _, 0, 0, 4, [], [0, 0, 0, 0], rfl, by decide +kernel, read_ok
      (by decide +kernel)⟩⟩

theorem witness_CanErrorsAndTimeComplete :
    (∃ (s : State) (m : Mach) (cf : Nat) (tec : Nat) (rec_ : Nat), s.quiet = m ∧ m.reach true = .open_ ∧ m.g (K.NET_CAN_STATE cf) =
        0)
    ∧ (∃ (s : State) (m : Mach) (cf : Nat), s.quiet = m ∧ m.g (K.NET_CAN_STATE cf) = 2 ∧ m.gb (K.NET_CAN_AUTO_RECOVER cf) = true)
    ∧ (∃ (s : State) (m : Mach) (cf : Nat), s.quiet = m ∧ s.admits (K.NET_CAN_RECOVER cf) (leBytes 1 1) = some 1 ∧ m.g
        (K.NET_CAN_STATE cf) = 2)
    ∧ (∃ (s : State) (m : Mach), s.quiet = m ∧ s.admits (K.NET_CAN_RESTART 0) (leBytes 1 1) = some 1)
    ∧ (∃ (s : State) (m : Mach), s.quiet = m ∧ s.admits (K.NET_CAN_RESTART 1) (leBytes 1 1) = some 1)
    ∧ (∃ (s : State) (m : Mach) (v : Nat), s.quiet = m ∧ s.admits K.EV_CAN_ACK (leBytes 4 v) = some v)
    ∧ (∃ (s : State) (m : Mach) (en : Nat) (domain : Nat) (offset : Int), s.quiet = m ∧ m.reach true = .open_ ∧ m.gb K.NET_PTP_ENABLE
        = true ∧ m.h K.NET_PTP_PORT = en ∧ m.h K.NET_PTP_DOMAIN = domain ∧ ((m.g K.NET_PTP_STATE = 1 ∨ m.g K.NET_PTP_STATE = 4)))
    ∧ (∃ (s : State) (m : Mach) (en : Nat) (domain : Nat) (offset : Int), s.quiet = m ∧ m.reach true = .open_ ∧ m.gb K.NET_PTP_ENABLE
        = true ∧ m.h K.NET_PTP_PORT = en ∧ m.h K.NET_PTP_DOMAIN = domain ∧ ∃ (m1 : Mach), m.g K.NET_PTP_STATE = 2 ∧ m1 = m.puti 32
        K.NET_PTP_OFFSET (clampI (-2147483648) 2147483647 offset) ∧ ∃ (m2 : Mach), m2 = ({ m1 with fresh := m1.fresh + 1 }).puti 32
        K.NET_PTP_RATE ((Config.freeNat m1.fresh % 1000001 : Nat) - 500000) ∧ ¬ (offset < -(1000 * (m2.g K.NET_PTP_STEP : Int)) ∧
        m2.mayStep = true) ∧ offset.natAbs ≤ m2.g K.NET_PTP_LOCK_TOL)
    ∧ (∃ (s : State) (m : Mach), s.quiet = m ∧ m.g K.NET_PTP_STATE = 3) :=
  ⟨⟨on (up.put (K.NET_CAN_STATE 1) 0), _, 1, 100, 0, rfl, by decide +kernel, by decide +kernel⟩,
   ⟨on (up.puts [(K.NET_CAN_STATE 1, 2), (K.NET_CAN_AUTO_RECOVER 1, 1)]), _, 1, rfl, by decide +kernel, by decide +kernel⟩,
   ⟨on (up.put (K.NET_CAN_STATE 1) 2), _, 1, rfl, by decide +kernel, by decide +kernel⟩,
   ⟨on up, _, rfl, by decide +kernel⟩,
   ⟨on up, _, rfl, by decide +kernel⟩,
   ⟨on up, _, 3, rfl, by decide +kernel⟩,
   ⟨on (up.puts [(K.NET_PTP_ENABLE, 1), (K.NET_PTP_STATE, 1)]), _, 0, 0, 7, rfl, by decide +kernel, by decide +kernel,
      by decide +kernel, by decide +kernel, .inl (by decide +kernel)⟩,
   ⟨on (up.puts [(K.NET_PTP_ENABLE, 1), (K.NET_PTP_STATE, 2)]), _, 0, 0, 7, rfl, by decide +kernel, by decide +kernel,
      by decide +kernel, by decide +kernel, _, by decide +kernel, rfl, _, rfl, fun h => absurd h.1 (by omega), after_put
      (by decide +kernel) (by decide)⟩,
   ⟨on (up.put K.NET_PTP_STATE 3), _, rfl, by decide +kernel⟩⟩

theorem witness_BootCommandsComplete :
    (∃ (s : State) (m : Mach), s.quiet = m)
    ∧ (∃ (s : State) (m : Mach) (ns : Nat), s.quiet = m ∧ 1000 ≤ ns)
    ∧ (∃ (s : State) (m : Mach) (mv : Nat), s.quiet = m ∧ m.sup = .reset ∧ m.vmonAllows mv = true ∧ m.vendorOk = true)
    ∧ (∃ (s : State) (m : Mach) (m1 : Mach) (m2 : Mach), s.quiet = m ∧ m.sup = .booting ∧ m1 = m.puts [(K.DEV_BOOT_CAUSE,
        m.dev.cause), (K.DEV_BOOT_TIME, m.time % 2 ^ 32), (K.DEV_CLK_FAIL_LAST, m.dev.clkFail)] ∧ m.dev.clkFail = 0 ∧ m1.supPasses
        m1.flash.active = true ∧ m2 = ({ m1 with sup := .ready } : Mach).raise 0x2001 [m1.dev.cause, m1.flash.active, m1.time % 2 ^
        32])
    ∧ (∃ (s : State) (m : Mach) (m1 : Mach) (m2 : Mach), s.quiet = m ∧ m.sup = .booting ∧ m1 = m.puts [(K.DEV_BOOT_CAUSE,
        m.dev.cause), (K.DEV_BOOT_TIME, m.time % 2 ^ 32), (K.DEV_CLK_FAIL_LAST, m.dev.clkFail)] ∧ m.dev.clkFail = 0 ∧ m1.supPasses
        m1.flash.active = false ∧ m2 = (({ m1 with sup := .recovery } : Mach).put K.DEV_MODE 1).raise 0x2003 [])
    ∧ (∃ (s : State) (m : Mach), s.quiet = m ∧ m.sup = .ready ∧ m.flash.trial = false)
    ∧ (∃ (s : State) (m : Mach) (m1 : Mach), s.quiet = m ∧ m.sup = .restarting ∧ m.dev.rollback = none ∧ m.g K.DEV_MODE = 0 ∧ m1 =
        Mach.raise { m with sup := .ready, dev := { m.dev with swapAt := none, rollback := none } } 0x2102 [])
    ∧ (∃ (s : State) (m : Mach) (t : Nat), s.quiet = m ∧ m.dev.swapAt = some t ∧ m.sup = .swapping ∧ m.flash.trial = true ∧ t +
        2000000 ≤ m.time) :=
  ⟨⟨on up, _, rfl⟩,
   ⟨on up, _, 2000, rfl, by decide +kernel⟩,
   ⟨on { up with sup := .reset, flash := { up.flash with otp := setFld 0 0x1BC 4 (crc32 (leBytes 0x1BC 0)) } }, _, 1700, rfl,
      by decide +kernel, by decide +kernel, by decide +kernel⟩,
   ⟨on { up with sup := .booting, flash := { up.flash with slots := [1, 1, 1, 1] } }, _, _, _, rfl, by decide +kernel, rfl,
      by decide +kernel, by decide +kernel, rfl⟩,
   ⟨on { up with sup := .booting, flash := { up.flash with slots := [0, 0, 0, 0] } }, _, _, _, rfl, by decide +kernel, rfl,
      by decide +kernel, by decide +kernel, rfl⟩,
   ⟨on up, _, rfl, by decide +kernel, by decide +kernel⟩,
   ⟨on { up.put K.DEV_MODE 0 with sup := .restarting }, _, _, rfl, by decide +kernel, by decide +kernel, by decide +kernel, rfl⟩,
   ⟨on
      { up with sup := .swapping, time := 2000000, dev := { up.dev with swapAt := some 0 }, flash := { up.flash with trial := true } },
      _, 0, rfl, by decide +kernel, by decide +kernel, by decide +kernel, by decide +kernel⟩⟩

theorem witness_NodeCommandsComplete :
    (∃ (s : State) (m : Mach) (m1 : Mach) (e : Nat), s.quiet = m ∧ s.admits K.DSC_CLEAR (leBytes 1 e) = some e ∧ partnerState
        (m.partner e) = dscAbsent ∧ m1 = m.put (K.DSC_PARTNER e) 0)
    ∧ (∃ (s : State) (m : Mach) (n : Nat), s.quiet = m ∧ s.admits K.DSC_LSS_ASSIGN (leBytes 1 n) = some n ∧ m.cfManager = true ∧
        m.cf1.lss = none ∧ m.nodeState n ≠ dscPresent)
    ∧ (∃ (s : State) (m : Mach) (n : Nat) (r : Nat), s.quiet = m ∧ m.cf1.lss = some n ∧ m.dictUp = true ∧ ((r = 2 ∨ r = 3)) ∧ ∃ (m1 :
        Mach), m1 = { m with cf1 := { m.cf1 with lss := none } })
    ∧ (∃ (s : State) (m : Mach) (n : Nat) (v : Nat), s.quiet = m ∧ s.admits (0x221100 + n) (leBytes 4 v) = some v ∧ ((List.range
        127).filter (fun i => (m.put (K.DSC_NMT_ASSIGN (n - 1)) v).g (K.DSC_NMT_ASSIGN i) / 65536 != 0)).length ≤ 32)
    ∧ (∃ (s : State) (m : Mach) (m1 : Mach) (n : Nat), s.quiet = m ∧ 1 ≤ n ∧ n ≤ 127 ∧ m.dictUp = true ∧ m1 = m.modNode n (fun x =>
        { x with hbLast := none }) ∧ m1.nodeManaged n = true)
    ∧ (∃ (s : State) (m : Mach) (m1 : Mach) (n : Nat), s.quiet = m ∧ 1 ≤ n ∧ n ≤ 127 ∧ m.dictUp = true ∧ m1 = m.modNode n (fun x =>
        { x with hbLast := none }) ∧ m1.nodeManaged n = false)
    ∧ (∃ (s : State) (m : Mach) (m1 : Mach) (n : Nat) (nmt : Nat), s.quiet = m ∧ 1 ≤ n ∧ n ≤ 127 ∧ m.dictUp = true ∧ m1 = m.modNode n
        (fun x => { x with hbLast := some m.time }) ∧ m1.nodeManaged n = true ∧ m1.nodeState n = dscAbsent)
    ∧ (∃ (s : State) (m : Mach) (m1 : Mach) (n : Nat) (nmt : Nat), s.quiet = m ∧ 1 ≤ n ∧ n ≤ 127 ∧ m.dictUp = true ∧ m1 = m.modNode n
        (fun x => { x with hbLast := some m.time }) ∧ m1.nodeManaged n = true ∧ m1.nodeState n = dscPresent ∧ m1.nodeStart n = true ∧
        nmt % 128 = 127 ∧ (m1.node n).startSent = none)
    ∧ (∃ (s : State) (m : Mach) (m1 : Mach) (n : Nat) (vendor : Nat) (product : Nat) (revision : Nat) (serial : Nat) (e : Nat),
        s.quiet = m ∧ 1 ≤ n ∧ n ≤ 127 ∧ (m.node n).asked.isSome = true ∧ m.dictUp = true ∧ m1 = m.modNode n (fun x =>
        { x with asked := none, retryAt := none }) ∧ m1.nodeEntry n = some e ∧ m1.nodeCheck n = false ∧ ∃ (m2 : Mach), m2 =
        m1.partnerSet e dscPresent ∧ ∃ (m3 : Mach), m3 = m2.modNode n (fun x => { x with hbLast := some m1.time }) ∧ m3.nodeStart n =
        false)
    ∧ (∃ (s : State) (m : Mach) (n : Nat), s.quiet = m ∧ (m.node n).asked.isSome = true)
    ∧ (∃ (s : State) (m : Mach) (n : Nat) (t : Nat), s.quiet = m ∧ (m.node n).retryAt = some t ∧ t ≤ m.time)
    ∧ (∃ (s : State) (m : Mach) (m1 : Mach), s.quiet = m ∧ m.cfManager = true ∧ m.cf1.bootAt + 1000 * m.h K.DSC_NMT_BOOT_TIME ≤ m.time
        ∧ m1 = upto 127 m (fun m i => if m.nodeMandatory (i + 1) && m.nodeState (i + 1) != dscPresent then m.raise 0x2206 [i + 1] else
        m))
    ∧ (∃ (s : State) (m : Mach) (m1 : Mach) (n : Nat) (t : Nat) (e : Nat), s.quiet = m ∧ (m.node n).hbLast = some t ∧ m.nodeEntry n =
        some e ∧ 0 < m.nodeHbTime n ∧ t + 1000 * m.nodeHbTime n < m.time ∧ partnerState (m.partner e) = dscPresent ∧ m1 =
        (m.partnerSet e dscAbsent).modNode n (fun x => { x with hbLast := none }) ∧ m1.nodeManaged n = true ∧ m1.g
        K.DSC_NMT_LOSS_ACTION = 2) :=
  ⟨⟨on (managing 0 0x0201), _, _, 0, rfl, by decide +kernel, by decide +kernel, rfl⟩,
   ⟨on (managing 1 0), _, 3, rfl, by decide +kernel, by decide +kernel, by decide +kernel, by decide +kernel⟩,
   ⟨on { managing 1 0 with cf1 := { up.cf1 with lss := some 3 } }, _, 3, 2, rfl, by decide +kernel, by decide +kernel, .inl rfl, _,
      rfl⟩,
   ⟨on up, _, 3, 1, rfl, by decide +kernel, by decide +kernel⟩,
   ⟨on (managing 1 0), _, _, 3, rfl, by decide +kernel, by decide +kernel, by decide +kernel, rfl, by decide +kernel⟩,
   ⟨on (managing 0 0), _, _, 3, rfl, by decide +kernel, by decide +kernel, by decide +kernel, rfl, by decide +kernel⟩,
   ⟨on (managing 1 0x030201), _, _, 3, 0, rfl, by decide +kernel, by decide +kernel, by decide +kernel, rfl, by decide +kernel,
      by decide +kernel⟩,
   ⟨on (managing 9 0x030101), _, _, 3, 127, rfl, by decide +kernel, by decide +kernel, by decide +kernel, rfl, by decide +kernel,
      by decide +kernel, by decide +kernel, by decide +kernel, by decide +kernel⟩,
   ⟨on (managing 1 0x030401 (fun x => { x with asked := some 0 })), _, _, 3, 1, 2, 3, 4, 0, rfl, by decide +kernel,
      by decide +kernel, by decide +kernel, by decide +kernel, rfl, by decide +kernel, by decide +kernel, _, rfl, _, rfl,
      by decide +kernel⟩,
   ⟨on (managing 1 0x030401 (fun x => { x with asked := some 0 })), _, 3, rfl, by decide +kernel⟩,
   ⟨on (managing 1 0x030102 (fun x => { x with retryAt := some 0 })), _, 3, 0, rfl, by decide +kernel, by decide +kernel⟩,
   ⟨on { managing 3 0 with time := 1000000000 }, _, _, rfl, by decide +kernel, by decide +kernel, rfl⟩,
   ⟨on
      { inUse ((managing 1 0x030101 (fun x => { x with hbLast := some 0 })).put K.DSC_NMT_LOSS_ACTION 2) [(K.DSC_NMT_ASSIGN 2, 0x50001)] with time := 1000000 },
      _, _, 3, 0, 0, rfl, by decide +kernel, by decide +kernel, by decide +kernel, by decide +kernel, by decide +kernel, rfl,
      by decide +kernel, by decide +kernel⟩⟩

theorem witness_BankCommandsComplete :
    (∃ (s : State) (m : Mach) (m1 : Mach) (img : List Byte) (h : Nat) (slot : Nat) (f : Nat) (n : Nat), s.quiet = m ∧ s.admits
        K.NV_BANK_CTRL (leBytes 1 1) = some 1 ∧ m.flash.trial = false ∧ m.bankBusy = false ∧ ¬ (m.sup = .recovery ∧
        m.dev.swapAt.isSome = true) ∧ inHostArea (m.g K.NV_BANK_SRC) (m.g K.NV_BANK_LEN) = true ∧ m.hostBytes s.mem (m.g
        K.NV_BANK_SRC) (m.g K.NV_BANK_LEN) = (img, m1) ∧ m1.imageCause img = 0 ∧ h = ofLe (img.take 256) ∧ slot = fld h 4 1 - 1 ∧
        slotBlocks (2 * (1 - m.flash.active) + slot) = (f, n) ∧ ((∀ i, i < n → m1.wp (f + i) = false)) ∧ h &&& headerReserved = 0)
    ∧ (∃ (s : State) (m : Mach) (m1 : Mach) (m2 : Mach) (b : Nat) (slot : Nat) (f : Nat) (n : Nat) (img : List Byte), s.quiet = m ∧
        m.flash.jobs.find? FlashJob.isBank = some (.bank b slot img) ∧ slotBlocks (2 * b + slot) = (f, n) ∧ m1 = Mach.setReady
        { m with flash := { m.flash with jobs := m.flash.jobs.filter (fun j => !j.isBank) } } rdyFlash vReady ∧ m2 = upto n m1 (fun m
        i => (m.eraseBlk (f + i)).modBlk (f + i) (fun y => y.program 0 ((img.drop (65536 * i)).take 65536))))
    ∧ (∃ (s : State) (m : Mach) (m1 : Mach), s.quiet = m ∧ s.admits K.NV_BANK_CTRL (leBytes 1 2) = some 2 ∧ m.flash.trial = false ∧
        m.bankValid (1 - m.flash.active) = true ∧ m.bankBusy = false ∧ ((∀ k, k < m.nClusters → m.ready (rdyCluster k) ≠ vUpdating)) ∧
        ((m.sup = .recovery ∨ m.genOutside (1 - m.flash.active) = false)) ∧ m1 = (Mach.journalPage
        { m with flash := { m.flash with active := 1 - m.flash.active, trial := true } }).raise 0x3023 [1 - m.flash.active])
    ∧ (∃ (s : State) (m : Mach), s.quiet = m ∧ s.admits K.NV_BANK_CTRL (leBytes 1 3) = some 3 ∧ m.flash.trial = true) :=
  ⟨⟨{ on keyed with mem := stored image }, _, _, image, _, 0, 34, 24, rfl, by decide +kernel, by decide +kernel, by decide +kernel,
      by decide +kernel, by decide +kernel, fst_ok (by decide +kernel), by decide +kernel, rfl, by decide +kernel, by decide +kernel,
      by decide +kernel, by decide +kernel⟩,
   ⟨on { up with flash := { up.flash with jobs := [.bank 1 0 image] } }, _, _, _, 1, 0, 34, 24, image, rfl, by decide +kernel,
      by decide +kernel, rfl, rfl⟩,
   ⟨on { up with flash := { up.flash with slots := [1, 1, 1, 1] }, sup := .recovery }, _, _, rfl, by decide +kernel,
      by decide +kernel, by decide +kernel, by decide +kernel, by decide +kernel, .inl rfl, rfl⟩,
   ⟨on { up with flash := { up.flash with trial := true } }, _, rfl, by decide +kernel, by decide +kernel⟩⟩

theorem witness_ObjectWriteCompletes :
    (∃ (s : State) (m : Mach) (m1 : Mach) (index : Nat) (sub : Nat) (v : Nat) (data : List Byte), s.quiet = m ∧ answersAtTick (index
        * 256 + sub) = false ∧ s.admits (index * 256 + sub) data = some v ∧ effOf s.mem .local (index * 256 + sub) v m = (m1, .ok))
    ∧ (∃ (s : State) (m : Mach) (m1 : Mach) (index : Nat) (sub : Nat) (v : Nat) (data : List Byte), s.quiet = m ∧ answersAtTick (index
        * 256 + sub) = true ∧ m.reach false = .open_ ∧ s.admits (index * 256 + sub) data = some v ∧ effOf s.mem .local (index * 256 +
        sub) v m = (m1, .ok)) :=
  ⟨⟨on up, _, _, K.IT_SELECT / 256, K.IT_SELECT % 256, 5, [5, 0], rfl, by decide +kernel, by decide +kernel, eff_ok
      (by decide +kernel)⟩,
   ⟨on up, _, _, K.AX_REFRESH / 256, K.AX_REFRESH % 256, 3, [3], rfl, by decide +kernel, by decide +kernel, by decide +kernel, eff_ok
      (by decide +kernel)⟩⟩

theorem witness_FlashCommandsComplete :
    (∃ (s : State) (m : Mach) (b : Nat) (p : Nat) (d : List Byte) (rest : List FlashJob), s.quiet = m ∧ m.flash.jobs = .userProg b p
        d :: rest ∧ m.flash.begun = true)
    ∧ (∃ (s : State) (m : Mach) (m1 : Mach) (r : EvRec) (rest : List EvRec), s.quiet = m ∧ m.flash.jobs = [] ∧ m.ev.logQueue = r ::
        rest ∧ m.logWritable = true ∧ m1 = { m with ev := { m.ev with logQueue := rest } })
    ∧ (∃ (s : State) (m : Mach) (b : Nat) (rest : List FlashJob), s.quiet = m ∧ m.flash.jobs = .userErase b :: rest ∧ m.flash.begun =
        true)
    ∧ (∃ (s : State) (m : Mach) (m1 : Mach) (b : Nat) (k : Nat) (spares : List Nat) (g : Migr) (rest : List Migr), s.quiet = m ∧
        m.flash.migr = g :: rest ∧ g.block = b ∧ g.blank = true ∧ g.patch = none ∧ g.job = none ∧ m.freeSpares = k :: spares ∧ m1 =
        { m with flash := { m.flash with blks := m.flash.blks.set k { erases := (m.flash.blks.getD k {}).erases }, map := m.flash.map.filter (fun (p : Nat × Nat) => p.1 ≠ b) ++ [(b, k)], migr := rest, weak := m.flash.weak.set b false } })
    ∧ (∃ (s : State) (m : Mach) (b : Nat), s.quiet = m ∧ s.admits K.NV_OP_CTRL (leBytes 1 1) = some 1 ∧ m.g K.NV_OP_BLOCK = b ∧ 70 ≤ b
        ∧ b ≤ 127 ∧ m.g K.NV_OP_STATE ≠ 1 ∧ m.wp b = false ∧ ∃ (m1 : Mach), m1 = m.puts [(K.NV_OP_STATE, 1), (K.NV_OP_FAIL, 0)] ∧
        m1.blkFailed b = false)
    ∧ (∃ (s : State) (m : Mach) (m1 : Mach) (m2 : Mach) (b : Nat) (bs : List Byte), s.quiet = m ∧ s.admits K.NV_OP_CTRL (leBytes 1 2)
        = some 2 ∧ m.g K.NV_OP_BLOCK = b ∧ 70 ≤ b ∧ b ≤ 127 ∧ m.g K.NV_OP_PAGE + m.g K.NV_OP_PAGES ≤ 256 ∧ inHostArea (m.g
        K.NV_OP_SRC) (256 * m.g K.NV_OP_PAGES) = true ∧ m.g K.NV_OP_STATE ≠ 1 ∧ m.wp b = false ∧ m1 = m.puts [(K.NV_OP_STATE, 1),
        (K.NV_OP_FAIL, 0)] ∧ m1.blkFailed b = false ∧ m1.hostBytes s.mem (m.g K.NV_OP_SRC) (256 * m.g K.NV_OP_PAGES) = (bs, m2)) :=
  ⟨⟨on { up with flash := { up.flash with jobs := [.userProg 70 0 []], begun := true } }, _, 70, 0, [], [], rfl, by decide +kernel,
      by decide +kernel⟩,
   ⟨on { up with ev := { up.ev with logQueue := [event 1] } }, _, _, event 1, [], rfl, by decide +kernel, by decide +kernel,
      by decide +kernel, rfl⟩,
   ⟨on { up with flash := { up.flash with jobs := [.userErase 70], begun := true } }, _, 70, [], rfl, by decide +kernel,
      by decide +kernel⟩,
   ⟨on { up with flash := { up.flash with migr := [{ block := 70, blank := true }] } }, _, _, 70, _, _,
      { block := 70, blank := true }, [], rfl, by decide +kernel, by decide +kernel, by decide +kernel, by decide +kernel,
      by decide +kernel, rfl, rfl⟩,
   ⟨on (up.puts [(K.NV_OP_BLOCK, 70), (K.NV_WP_HI, 0)]), _, 70, rfl, by decide +kernel, by decide +kernel, by decide +kernel,
      by decide +kernel, by decide +kernel, by decide +kernel, _, rfl, by decide +kernel⟩,
   ⟨on (up.puts [(K.NV_OP_BLOCK, 70), (K.NV_WP_HI, 0), (K.NV_OP_PAGES, 1)]), _, _, _, 70, _, rfl, by decide +kernel,
      by decide +kernel, by decide +kernel, by decide +kernel, by decide +kernel, by decide +kernel, by decide +kernel,
      by decide +kernel, rfl, by decide +kernel, pair_eta _⟩⟩

theorem witness_ProtectionAndLogComplete :
    (∃ (s : State) (m : Mach) (v : Nat), s.quiet = m ∧ s.admits K.NV_WP_LO (leBytes 8 v) = some v)
    ∧ (∃ (s : State) (m : Mach) (v : Nat), s.quiet = m ∧ s.admits K.NV_WP_HI (leBytes 8 v) = some v ∧ v &&& 0x3C = 0)
    ∧ (∃ (s : State) (m : Mach), s.quiet = m ∧ s.admits K.NV_PROT_CTRL (leBytes 1 1) = some 1)
    ∧ (∃ (s : State) (m : Mach) (m1 : Mach) (r : Nat), s.quiet = m ∧ s.admits K.NV_PROT_CTRL (leBytes 1 2) = some 2 ∧ bit (fld m.prot
        6 1) 0 = false ∧ m.g K.NV_PROT_STATE ≠ 1 ∧ protInRange (m.g K.NV_PROT_STAGE) = true ∧ r = protSealed (setFld (m.g
        K.NV_PROT_STAGE) 0 4 (fld m.prot 0 4 + 1)) ∧ m1 = m.put K.NV_PROT_STATE 1 ∧ m1.blkFailed m.protTarget = false)
    ∧ (∃ (s : State) (m : Mach) (m1 : Mach) (data : List Byte) (v : Nat) (new : Nat), s.quiet = m ∧ s.admits K.NV_OTP_CUSTOMER data =
        some v ∧ bit m.flash.otp 4095 = false ∧ 0 ≤ m.gi 16 K.DEV_DIE_TEMP ∧ m.gi 16 K.DEV_DIE_TEMP ≤ 85 * 16 ∧ new = v &&& (2 ^ 512 -
        1 - (m.flash.otp / 256 ^ 0x1C0) % 2 ^ 512) ∧ m1 = { m with flash := { m.flash with otp := m.flash.otp + new * 256 ^ 0x1C0 } })
    ∧ (∃ (s : State) (m : Mach) (ty : ObjTy), s.quiet = m ∧ s.reads K.EV_LOG_RECORD = some ty)
    ∧ (∃ (s : State) (m : Mach) (m1 : Mach) (b : Nat) (bs : List Nat), s.quiet = m ∧ s.admits K.EV_LOG_CLEAR (leBytes 1 1) = some 1 ∧
        m.flash.logClear = [] ∧ (List.range 4).filter (fun b => !(m.blkFailed (66 + b))) = b :: bs ∧ m1 =
        { m with flash := { m.flash with logClear := b :: bs } } ∧ ((∀ j, j ∈ m1.flash.jobs → j.eraseBlock ≠ some (66 + b)))) :=
  ⟨⟨on up, _, 5, rfl, by decide +kernel⟩,
   ⟨on up, _, 1, rfl, by decide +kernel, by decide +kernel⟩,
   ⟨on up, _, rfl, by decide +kernel⟩,
   ⟨on (up.put K.NV_PROT_STAGE (setFld (setFld (setFld 0 4 2 1) 0x18 2 100) 0x1A 1 1)), _, _, _, rfl, by decide +kernel,
      by decide +kernel, by decide +kernel, by decide +kernel, rfl, rfl, by decide +kernel⟩,
   ⟨on { up with flash := { up.flash with otp := 0 } }, _, _, List.replicate 64 1, ofLe (List.replicate 64 1), _, rfl,
      by decide +kernel, by decide +kernel, by decide +kernel, by decide +kernel, rfl, rfl⟩,
   ⟨on up, _, _, rfl, rfl⟩,
   ⟨on up, _, _, 0, [1, 2, 3], rfl, by decide +kernel, by decide +kernel, by decide +kernel, rfl, by decide +kernel⟩⟩

theorem witness_UartCommandsComplete :
    (∃ (s : State) (m : Mach) (m1 : Mach) (u : Nat), s.quiet = m ∧ s.admits (K.UA_MODE u) (leBytes 1 0) = some 0 ∧ m.g (K.UA_MODE u)
        ≠ 0 ∧ m1 = m.modUart u (fun y =>
        { y with rx := [], tx := [], started := false, waitHigh := false, waitCts := false, lost := false, txUsed := false, breaking := false, rtsHigh := true, breakEnd := none, inBreak := false }))
    ∧ (∃ (s : State) (m : Mach) (m1 : Mach) (m2 : Mach) (u : Nat) (v : Nat), s.quiet = m ∧ s.admits (K.UA_MODE u) (leBytes 1 v) = some
        v ∧ m.g (K.UA_MODE u) = 0 ∧ ((v = 1 ∨ (u < 2 ∧ ((v = 2 ∧ 3 ≤ m.g (K.UA_RL_DIV u)) ∨ (v = 3 ∧ 8 ≤ m.g (K.UA_RL_DIV u)))))) ∧
        inHostArea (m.g (K.UA_RX_BASE u)) (2 * m.g (K.UA_RX_SIZE u)) = true ∧ inHostArea (m.g (K.UA_TX_BASE u)) (m.g (K.UA_TX_SIZE u))
        = true ∧ m1 = (m.sample (uaEnableKeys u)).put (K.UA_MODE u) v ∧ m2 = m1.modUart u (fun y =>
        { y with rx := [], tx := [], started := false, waitHigh := true, lost := false, txUsed := false, held := { div := m.g (K.UA_RL_DIV u), bits := m.g (K.UA_DATA_BITS u), parity := m.g (K.UA_PARITY u), stop := m.g (K.UA_STOP u) } }))
    ∧ (∃ (s : State) (m : Mach) (u : Nat) (v : Nat), s.quiet = m ∧ s.admits (K.UA_RATE u) (leBytes 4 v) = some v ∧ 300 ≤ v ∧ v ≤
        12500000)
    ∧ (∃ (s : State) (m : Mach) (u : Nat) (v : Nat), s.quiet = m ∧ m.g (K.UA_MODE u) < 2 ∧ s.admits (K.UA_DATA_BITS u) (leBytes 1 v) =
        some v)
    ∧ (∃ (s : State) (m : Mach) (u : Nat) (v : Nat), s.quiet = m ∧ m.g (K.UA_MODE u) < 2 ∧ s.admits (K.UA_PARITY u) (leBytes 1 v) =
        some v)
    ∧ (∃ (s : State) (m : Mach) (u : Nat) (v : Nat), s.quiet = m ∧ m.g (K.UA_MODE u) < 2 ∧ s.admits (K.UA_STOP u) (leBytes 1 v) = some
        v)
    ∧ (∃ (s : State) (m : Mach) (u : Nat) (v : Nat), s.quiet = m ∧ s.admits (K.UA_RL_DIV u) (leBytes 2 v) = some v ∧ 3 ≤ v ∧ m.g
        (K.UA_MODE u) < 2)
    ∧ (∃ (s : State) (m : Mach) (u : Nat) (v : Nat), s.quiet = m ∧ s.admits (K.UA_RX_RD u) (leBytes 2 v) = some v ∧ v < m.uaSize u
        (K.UA_RX_SIZE u) ∧ ringDist (m.uaSize u (K.UA_RX_SIZE u)) (m.g (K.UA_RX_RD u)) v ≤ ringDist (m.uaSize u (K.UA_RX_SIZE u)) (m.g
        (K.UA_RX_RD u)) (m.g (K.UA_RX_WR u)))
    ∧ (∃ (s : State) (m : Mach) (m1 : Mach) (u : Nat) (v : Nat) (cts : Bool), s.quiet = m ∧ s.admits (K.UA_TX_WR u) (leBytes 2 v) =
        some v ∧ m1 = m.modUart u (fun y => { y with ctsHigh := cts }) ∧ v < m1.uaSize u (K.UA_TX_SIZE u) ∧ ringDist (m1.uaSize u
        (K.UA_TX_SIZE u)) (m1.g (K.UA_TX_RD u)) (m1.g (K.UA_TX_WR u)) ≤ ringDist (m1.uaSize u (K.UA_TX_SIZE u)) (m1.g (K.UA_TX_RD u))
        v)
    ∧ (∃ (s : State) (m : Mach) (u : Nat), s.quiet = m ∧ s.admits (K.UA_TX_BREAK u) (leBytes 1 1) = some 1)
    ∧ (∃ (s : State) (m : Mach) (m1 : Mach) (u : Nat) (sample : Nat), s.quiet = m ∧ m.g (K.UA_MODE u) ≠ 0 ∧ (m.uart u).started = false
        ∧ m1 = m.modUart u (fun x => { x with rxSet := m.uaSet u, waitHigh := false, inBreak := false }) ∧ m1.uaDecide u sample =
        true)
    ∧ (∃ (s : State) (m : Mach) (m1 : Mach) (u : Nat) (sample : Nat), s.quiet = m ∧ m.g (K.UA_MODE u) ≠ 0 ∧ (m.uart u).started = false
        ∧ m1 = m.modUart u (fun x => { x with rxSet := m.uaSet u, waitHigh := false, inBreak := false }) ∧ m1.uaDecide u sample =
        false)
    ∧ (∃ (s : State) (m : Mach) (m1 : Mach) (u : Nat) (data : Nat) (par : Nat) (samples : List Nat) (set : UartSet) (stop : Bool),
        s.quiet = m ∧ (m.uart u).started = true ∧ (m.uart u).rxSet = set ∧ data = (List.range set.bits).foldl (fun d i => d + b2n
        (m.uaDecide u (samples.getD i 7)) * 2 ^ i) 0 ∧ par = (if set.parity = 0 then 0 else b2n (m.uaDecide u (samples.getD set.bits
        7))) ∧ stop = m.uaDecide u (samples.getD (set.bits + (if set.parity = 0 then 0 else 1)) 7) ∧ m1 = m.modUart u (fun x =>
        { x with started := false, rxdHigh := stop, waitHigh := decide (data = 0 ∧ par = 0 ∧ stop = false), inBreak := decide (data = 0 ∧ par = 0 ∧ stop = false) })
        ∧ m1.uaDepth u ≤ (m1.uart u).rx.length)
    ∧ (∃ (s : State) (m : Mach) (m1 : Mach) (u : Nat) (data : Nat) (par : Nat) (samples : List Nat) (set : UartSet) (stop : Bool),
        s.quiet = m ∧ (m.uart u).started = true ∧ (m.uart u).rxSet = set ∧ data = (List.range set.bits).foldl (fun d i => d + b2n
        (m.uaDecide u (samples.getD i 7)) * 2 ^ i) 0 ∧ par = (if set.parity = 0 then 0 else b2n (m.uaDecide u (samples.getD set.bits
        7))) ∧ stop = m.uaDecide u (samples.getD (set.bits + (if set.parity = 0 then 0 else 1)) 7) ∧ m1 = m.modUart u (fun x =>
        { x with started := false, rxdHigh := stop, waitHigh := decide (data = 0 ∧ par = 0 ∧ stop = false), inBreak := decide (data = 0 ∧ par = 0 ∧ stop = false) })
        ∧ (m1.uart u).rx.length < m1.uaDepth u ∧ data = 0 ∧ par = 0 ∧ stop = false)
    ∧ (∃ (s : State) (m : Mach) (m1 : Mach) (u : Nat) (data : Nat) (par : Nat) (samples : List Nat) (set : UartSet) (stop : Bool),
        s.quiet = m ∧ (m.uart u).started = true ∧ (m.uart u).rxSet = set ∧ data = (List.range set.bits).foldl (fun d i => d + b2n
        (m.uaDecide u (samples.getD i 7)) * 2 ^ i) 0 ∧ par = (if set.parity = 0 then 0 else b2n (m.uaDecide u (samples.getD set.bits
        7))) ∧ stop = m.uaDecide u (samples.getD (set.bits + (if set.parity = 0 then 0 else 1)) 7) ∧ m1 = m.modUart u (fun x =>
        { x with started := false, rxdHigh := stop, waitHigh := decide (data = 0 ∧ par = 0 ∧ stop = false), inBreak := decide (data = 0 ∧ par = 0 ∧ stop = false) })
        ∧ (m1.uart u).rx.length < m1.uaDepth u ∧ ¬ (data = 0 ∧ par = 0 ∧ stop = false) ∧ ∃ (pe : Bool) (m2 : Mach) (m3 : Mach) (m4 :
        Mach), pe = decide (set.parity ≠ 0 ∧ par ≠ parityBit set.parity data) ∧ m2 = m1.uaEntry u (data + (if pe then 0x100 else 0) +
        (if stop then 0 else 0x200)) ∧ m3 = (if pe then m2.count (K.UA_PARITY_ERR u) else m2) ∧ m4 = (if stop then m3 else m3.count
        (K.UA_FRAMING u)))
    ∧ (∃ (s : State) (m : Mach) (m1 : Mach) (m2 : Mach) (u : Nat) (e : Nat) (size : Nat) (wr : Nat) (rd : Nat) (rest : List Nat),
        s.quiet = m ∧ (m.uart u).rx = e :: rest ∧ m.g (K.UA_MODE u) ≠ 0 ∧ m.h (K.UA_RX_SIZE u) = size ∧ m.g (K.UA_RX_WR u) % size = wr
        ∧ m.g (K.UA_RX_RD u) % size = rd ∧ (wr + 1) % size ≠ rd ∧ wr ≠ rd ∧ m1 = m.storeNum (m.h (K.UA_RX_BASE u) + 2 * wr) 2 e ∧ m2 =
        m1.modUart u (fun x => { x with rx := rest }))
    ∧ (∃ (s : State) (m : Mach) (m1 : Mach) (m2 : Mach) (u : Nat) (cts : Bool), s.quiet = m ∧ (m.uart u).sending.isSome = true ∧ m1 =
        m.modUart u (fun y => { y with sending := none, ctsHigh := cts }) ∧ m1.uaFetchAll s.mem u = m2 ∧ (m2.uart u).tx ≠ [])
    ∧ (∃ (s : State) (m : Mach) (m1 : Mach) (m2 : Mach) (u : Nat) (cts : Bool), s.quiet = m ∧ (m.uart u).sending.isSome = true ∧ m1 =
        m.modUart u (fun y => { y with sending := none, ctsHigh := cts }) ∧ m1.uaFetchAll s.mem u = m2 ∧ (m2.uart u).tx = [] ∧
        (m2.uart u).txUsed = true ∧ m2.g (K.UA_MODE u) ≠ 0)
    ∧ (∃ (s : State) (m : Mach) (u : Nat), s.quiet = m) :=
  ⟨⟨on (up.put (K.UA_MODE 3) 1), _, _, 3, rfl, by decide +kernel, by decide +kernel, rfl⟩,
   ⟨on up, _, _, _, 1, 2, rfl, by decide +kernel, by decide +kernel, .inr ⟨by decide, .inl ⟨rfl, by decide +kernel⟩⟩,
      by decide +kernel, by decide +kernel, rfl, rfl⟩,
   ⟨on up, _, 3, 9600, rfl, by decide +kernel, by decide +kernel, by decide +kernel⟩,
   ⟨on up, _, 3, 7, rfl, by decide +kernel, by decide +kernel⟩,
   ⟨on up, _, 3, 1, rfl, by decide +kernel, by decide +kernel⟩,
   ⟨on up, _, 3, 2, rfl, by decide +kernel, by decide +kernel⟩,
   ⟨on up, _, 1, 16, rfl, by decide +kernel, by decide +kernel, by decide +kernel⟩,
   ⟨on up, _, 3, 0, rfl, by decide +kernel, by decide +kernel, by decide +kernel⟩,
   ⟨on up, _, _, 3, 1, true, rfl, by decide +kernel, rfl, by decide +kernel, by decide +kernel⟩,
   ⟨on up, _, 3, rfl, by decide +kernel⟩,
   ⟨on (up.put (K.UA_MODE 3) 1), _, _, 3, 1, rfl, by decide +kernel, by decide +kernel, rfl, by decide +kernel⟩,
   ⟨on (up.put (K.UA_MODE 3) 1), _, _, 3, 0, rfl, by decide +kernel, by decide +kernel, rfl, by decide +kernel⟩,
   ⟨on (up.modUart 3 (fun x => { x with started := true, rx := List.replicate 64 0 })), _, _, 3, _, _, [], _, _, rfl,
      by decide +kernel, rfl, rfl, rfl, rfl, rfl, by decide +kernel⟩,
   ⟨on (up.modUart 3 (fun x => { x with started := true, rxSet := { x.rxSet with parity := 1 } })), _, _, 3, _, _, [0, 0, 0, 0, 0, 0,
      0, 0, 0, 0], _, _, rfl, by decide +kernel, rfl, rfl, rfl, rfl, rfl, by decide +kernel, by decide +kernel⟩,
   ⟨on (up.modUart 3 (fun x => { x with started := true, rxSet := { x.rxSet with parity := 2 } })), _, _, 3, _, _, [7, 0, 0, 0, 0, 0,
      0, 0, 0], _, _, rfl, by decide +kernel, rfl, rfl, rfl, rfl, rfl, by decide +kernel, by decide +kernel, _, _, _, _, rfl, rfl,
      rfl, rfl⟩,
   ⟨on ((up.puts [(K.UA_MODE 3, 1), (K.UA_RX_WR 3, 5), (K.UA_RX_RD 3, 2)]).modUart 3 (fun x => { x with rx := [9, 8] })), _, _, _, 3,
      9, _, _, _, [8], rfl, by decide +kernel, by decide +kernel, rfl, rfl, rfl, by decide +kernel, by decide +kernel, rfl, rfl⟩,
   ⟨on ((up.put (K.UA_MODE 3) 1).modUart 3 (fun x => { x with sending := some 5, tx := [7] })), _, _, _, 3, false, rfl,
      by decide +kernel, rfl, rfl, by decide +kernel⟩,
   ⟨on ((up.put (K.UA_MODE 3) 1).modUart 3 (fun x => { x with sending := some 5, txUsed := true })), _, _, _, 3, false, rfl,
      by decide +kernel, rfl, rfl, by decide +kernel, by decide +kernel, by decide +kernel⟩,
   ⟨on up, _, 3, rfl⟩⟩

theorem witness_SupplyAndThermalComplete :
    (∃ (s : State) (m : Mach) (m1 : Mach) (m2 : Mach) (m3 : Mach) (mv : Nat), s.quiet = m ∧ mv < m.g K.DEV_VMON_WARN ∧ m.sup ≠
        .reset ∧ m1 = { m.vmonSeen mv with vmonLow := true } ∧ m2 =
        { m1 with dev := { m1.dev with warnAt := m1.dev.warnAt ++ [m1.time], warnFrom := if m1.g K.DEV_VMON_STATE = 0 then m1.time else m1.dev.warnFrom } }
        ∧ m3 = (m2.put K.DEV_VMON_STATE 1).count K.DEV_VMON_WARNINGS)
    ∧ (∃ (s : State) (m : Mach) (m1 : Mach) (m2 : Mach) (mv : Nat), s.quiet = m ∧ m.g K.DEV_VMON_STATE ≠ 0 ∧ m.g K.DEV_VMON_RECOVER <
        mv ∧ m.sup ≠ .reset ∧ m1 = { m.vmonSeen mv with vmonLow := false } ∧ m2 = { m1 with dev := { m1.dev with warnAt := [] } })
    ∧ (∃ (s : State) (m : Mach) (m1 : Mach) (t : Nat) (rest : List Nat), s.quiet = m ∧ m.dev.warnAt = t :: rest ∧ t + 20000 ≤ m.time ∧
        m1 = { m with dev := { m.dev with warnAt := rest } })
    ∧ (∃ (s : State) (m : Mach) (mv : Nat), s.quiet = m ∧ mv < m.g K.DEV_VMON_RESET)
    ∧ (∃ (s : State) (m : Mach) (ty : ObjTy), s.quiet = m ∧ s.reads K.DEV_VMON_MIN = some ty)
    ∧ (∃ (s : State) (m : Mach) (c : Nat), s.quiet = m ∧ c ≠ 0)
    ∧ (∃ (s : State) (m : Mach) (m1 : Mach) (t : Int), s.quiet = m ∧ m.sup ≠ .reset ∧ -800 ≤ t ∧ t ≤ 2800 ∧ m.g K.DEV_SENSOR_BROKEN =
        0 ∧ m.dev.tempSeen = false ∧ m1 =
        { m.puti 16 K.DEV_DIE_TEMP_RAW t with dev := { m.dev with tempAt := m.time, sameAt := m.time } } ∧ m1.stuckSensor = false)
    ∧ (∃ (s : State) (m : Mach), s.quiet = m ∧ m.sup ≠ .reset ∧ m.dev.tempAt + 3000 ≤ m.time ∧ m.g K.DEV_SENSOR_BROKEN = 0)
    ∧ (∃ (s : State) (m : Mach) (t : Nat), s.quiet = m ∧ m.dev.graceAt = some t ∧ t ≤ m.time ∧ m.g K.DEV_THROTTLE_STATE = 1 ∧ 1600 ≤
        m.gi 16 K.DEV_DIE_TEMP)
    ∧ (∃ (s : State) (m : Mach) (t : Nat), s.quiet = m ∧ m.dev.graceAt = some t ∧ t ≤ m.time ∧ m.g K.DEV_THROTTLE_STATE = 1 ∧ m.gi 16
        K.DEV_DIE_TEMP < 1600)
    ∧ (∃ (s : State) (m : Mach) (t : Nat), s.quiet = m ∧ m.dev.coolAt = some t ∧ t + 1000000 ≤ m.time ∧ m.g K.DEV_THROTTLE_STATE = 2 ∧
        m.g K.DEV_THROTTLE_FORCE = 0)
    ∧ (∃ (s : State) (m : Mach), s.quiet = m ∧ s.admits K.DEV_THROTTLE_FORCE (leBytes 1 1) = some 1)
    ∧ (∃ (s : State) (m : Mach), s.quiet = m ∧ s.admits K.DEV_SHUTDOWN_CLEAR (leBytes 1 1) = some 1 ∧ m.gi 16 K.DEV_DIE_TEMP < 1520 ∧
        m.g K.DEV_SENSOR_BROKEN = 0 ∧ m.g K.DEV_SHUTDOWN ≠ 0)
    ∧ (∃ (s : State) (m : Mach) (ty : ObjTy), s.quiet = m ∧ s.reads K.DEV_TEMP_PEAK = some ty) :=
  ⟨⟨on up, _, _, _, _, 1400, rfl, by decide +kernel, by decide +kernel, rfl, rfl, rfl⟩,
   ⟨on (up.put K.DEV_VMON_STATE 1), _, _, _, 1700, rfl, by decide +kernel, by decide +kernel, by decide +kernel, rfl, rfl⟩,
   ⟨on { up.put K.DEV_VMON_STATE 1 with dev := { up.dev with warnAt := [0] }, time := 20000 }, _, _, 0, [], rfl, by decide +kernel,
      by decide +kernel, rfl⟩,
   ⟨on up, _, 1000, rfl, by decide +kernel⟩,
   ⟨on up, _, _, rfl, rfl⟩,
   ⟨on up, _, 2, rfl, by decide +kernel⟩,
   ⟨on up, _, _, 400, rfl, by decide +kernel, by decide +kernel, by decide +kernel, by decide +kernel, by decide +kernel, rfl,
      by decide +kernel⟩,
   ⟨on { up with time := 3000 }, _, rfl, by decide +kernel, by decide +kernel, by decide +kernel⟩,
   ⟨on { (up.puti 16 K.DEV_DIE_TEMP 1600).put K.DEV_THROTTLE_STATE 1 with dev := { up.dev with graceAt := some 0 } }, _, 0, rfl,
      by decide +kernel, by decide +kernel, by decide +kernel, by decide +kernel⟩,
   ⟨on { up.put K.DEV_THROTTLE_STATE 1 with dev := { up.dev with graceAt := some 0 } }, _, 0, rfl, by decide +kernel,
      by decide +kernel, by decide +kernel, by decide +kernel⟩,
   ⟨on { up.put K.DEV_THROTTLE_STATE 2 with dev := { up.dev with coolAt := some 0 }, time := 1000000 }, _, 0, rfl, by decide +kernel,
      by decide +kernel, by decide +kernel, by decide +kernel⟩,
   ⟨on up, _, rfl, by decide +kernel⟩,
   ⟨on (up.put K.DEV_SHUTDOWN 1), _, rfl, by decide +kernel, by decide +kernel, by decide +kernel, by decide +kernel⟩,
   ⟨on up, _, _, rfl, rfl⟩⟩

theorem witness_BallLevels :
    (∃ (m : Mach) (b : Ball), ((m.ballPresent b = false ∨ m.sup = .reset ∨ (m.sup = .recovery ∧ b.network = false))))
    ∧ (∃ (s : State) (m : Mach) (mv : Nat), s.quiet = m ∧ mv < m.g K.DEV_VMON_RESET)
    ∧ (∃ (m : Mach) (en : Nat), m.sup ≠ .reset)
    ∧ (∃ (m : Mach) (hp : Nat) (n : Nat), hp < m.nHeads ∧ m.sup ≠ .reset ∧ m.sup ≠ .recovery ∧ m.strobesHeld hp = true ∧
        m.strobesForced hp = true)
    ∧ (∃ (m : Mach) (beam : Nat), m.hasSL = true ∧ m.sup ≠ .reset ∧ m.sup ≠ .recovery ∧ m.diodesOff = true) :=
  ⟨⟨Mach.atReset .mp6440, .phyRstN 0, .inr (.inl rfl)⟩,
   ⟨on up, _, 1000, rfl, by decide +kernel⟩,
   ⟨up, 0, by decide +kernel⟩,
   ⟨up.put (K.HP_MODE 3) 1, 3, 7, by decide +kernel, by decide +kernel, by decide +kernel, by decide +kernel, by decide +kernel⟩,
   ⟨up.put K.LS_INTLK_STATE 1, 1, by decide +kernel, by decide +kernel, by decide +kernel, by decide +kernel⟩⟩

end Sys2Proof.Tests
end

section
/-! Accesses that their card or the supervisor's state refuses, the WO read, and the definition of items: O8, O9 and O14. -/

namespace Sys2Proof.Machine

open Sys2Proof

/-! ### The commands' meanings -/

theorem exec_objectWrite (index sub : Nat) (data : List Byte) (s : State) :
    exec (.objectWrite index sub data) s = execObjectWrite index sub data s := rfl

theorem exec_sdoTransfer (cf : Nat) (write : Bool) (index sub count : Nat) (data : List Byte) (corr : List Nat) (s : State) :
    exec (.sdoTransfer cf write index sub count data corr) s = execSdoTransfer cf write index sub count data corr s := rfl

theorem exec_itDefineRecord (data : List Byte) (s : State) : exec (.itDefineRecord data) s = execItDefineRecord data s := rfl

theorem exec_itDefineAddr (a : Nat) (s : State) : exec (.itDefineAddr a) s = execItDefineAddr a s := rfl

/-- A command finds nothing put out yet. -/
@[simp] theorem quiet_out (s : State) : s.quiet.out = [] := rfl

/-! ### How an access stands before its object is looked at (R346, R350) -/

section reach

variable {m : Mach}

/-- A dictionary that answers reads answers every write, urgent or not. -/
theorem reach_open_of_reads (h : m.reach false = .open_) (urgent : Bool) : m.reach urgent = .open_ := by
  cases urgent with
  | false => exact h
  | true => unfold Mach.reach at h ⊢; cases hs : m.sup <;> simp_all

theorem reach_silent (urgent : Bool) (h : m.sup = .reset ∨ m.sup = .booting) : m.reach urgent = .silent := by
  unfold Mach.reach
  rcases h with h | h <;> rw [h]

theorem reach_unavailable (h : m.sup = .restarting ∨ m.sup = .swapping) : m.reach false = .unavailable := by
  unfold Mach.reach
  rcases h with h | h <;> rw [h] <;> rfl

end reach

/-! ### The judgement of a card (R319) -/

section card

variable {r : ObjRow} {bs : List Byte}

theorem judge_readOnly (h : r.acc = .ro ∨ r.acc = .const) : r.judge bs = .readOnly := by
  have hw : r.acc.writable = false := by rcases h with h | h <;> rw [h] <;> rfl
  unfold ObjRow.judge
  rw [if_pos hw]

theorem judge_length (hw : r.acc.writable = true) (hl : r.ty.lengthOk bs.length = false) : r.judge bs = .length := by
  unfold ObjRow.judge
  rw [if_neg (by simp [hw]), if_pos hl]

theorem judge_range (hw : r.acc.writable = true) (hl : r.ty.lengthOk bs.length = true)
    (hr : r.rng.allows r.ty (r.ty.encode bs) = false) : r.judge bs = .range := by
  unfold ObjRow.judge
  rw [if_neg (by simp [hw]), if_neg (by simp [hl]), if_pos hr]

end card

/-! ### The judgement of a write that does not come to its effect (R4, R319) -/

section judged

variable {m : Mach} {k : Nat} {bs : List Byte} {eff : Nat → Mach → WriteResult}

theorem judgeWrite_unavailable (h : m.reach (urgentKey k) = .unavailable) : m.judgeWrite k bs eff = (m, .unavailable) := by
  unfold Mach.judgeWrite
  rw [h]

theorem judgeWrite_absent (ho : m.reach (urgentKey k) = .open_) (hs : m.objStatus k ≠ .ok) :
    m.judgeWrite k bs eff = (m, m.objStatus k) := by
  unfold Mach.judgeWrite
  rw [ho]
  cases h : m.objStatus k
  case ok => exact absurd h hs
  all_goals rfl

/-- A write that its card does not admit is answered with the card's judgement. -/
theorem judgeWrite_card {r : ObjRow} (ho : m.reach (urgentKey k) = .open_) (hs : m.objStatus k = .ok)
    (hrow : objRow k = some r) (hj : r.judge bs ≠ .ok) : m.judgeWrite k bs eff = (m, r.judge bs) := by
  unfold Mach.judgeWrite
  rw [ho, hs, hrow]
  cases h : r.judge bs
  case ok => exact absurd h hj
  all_goals simp only [h]

end judged

/-! ### What a refused access leaves -/

theorem hostWrite_silent {m : Mach} {k : Nat} {bs : List Byte} {eff : Nat → Mach → WriteResult}
    (h : m.reach (urgentKey k) = .silent) : m.hostWrite k bs eff = m := by
  unfold Mach.hostWrite
  rw [if_pos h]

/-- A write whose judgement leaves the machine as it was puts out its answer and nothing else. -/
theorem hostWrite_refused {m : Mach} {k : Nat} {bs : List Byte} {eff : Nat → Mach → WriteResult} {st : Status}
    (hr : m.reach (urgentKey k) ≠ .silent) (hj : m.judgeWrite k bs eff = (m, st)) :
    m.hostWrite k bs eff = { m with out := m.out ++ [.reply st (m.writeAnswer k bs)] } := by
  unfold Mach.hostWrite
  rw [if_neg hr, hj]
  simp

/-- OBJECT_WRITE of a sub-index that is not answered at its tick is a write of the dictionary. -/
theorem objectWrite_runs {s : State} {index sub k : Nat} {data : List Byte} (hk : k = index * 256 + sub)
    (ht : answersAtTick k = false) :
    exec (.objectWrite index sub data) s = .next (s.settle (s.quiet.hostWrite k data (effOf s.mem .local k))) := by
  subst hk
  rw [exec_objectWrite]
  unfold execObjectWrite
  rw [done_quiet]
  simp [ht]

/-- A refused download by SDO answers its abort code and leaves the rest as it was (R337). -/
theorem sdo_write_refused {x : Mem} {m : Mach} {cf k count : Nat} {data : List Byte} {corr : List Nat} {st : Status}
    (hout : m.out = []) (ho : m.sdoOpen cf = true) (hj : m.judgeWrite k data (effOf x (.sdo cf) k) = (m, st)) (hst : st ≠ .ok) :
    m.sdo x cf true k count data corr = { m with out := [.sdo cf st.abort []] } := by
  have hw : m.writeObj x (.sdo cf) k data = (m, some st) := by
    unfold Mach.writeObj
    simp [hj, hst]
  unfold Mach.sdo
  simp [ho, hw, hout, hst]

/-- An upload does not look at the bytes of a download. -/
theorem sdo_upload_data (x : Mem) (m : Mach) (cf k count : Nat) (data : List Byte) (corr : List Nat) :
    m.sdo x cf false k count data corr = m.sdo x cf false k count [] corr := rfl

/-- No MEM_CAN_DATA is write-only: the sub-indices whose read is a transfer of memory. -/
theorem acc_of_canWindow {k w : Nat} {r : ObjRow} (h : canWindow k = some w) (hrow : objRow k = some r) : r.acc ≠ .wo := by
  have hk : k = K.MEM_CAN_DATA w := by simpa using List.find?_some h
  have hw : w < 8 := List.mem_range.mp (List.mem_of_find?_eq_some h)
  have rows : ∀ w < 8, (objRow (K.MEM_CAN_DATA w)).all (fun r => r.acc != .wo) = true := by decide +kernel
  have hacc := rows w hw
  rw [← hk, hrow] at hacc
  simpa using hacc

/-- A read of a WO sub-index answers 0 and does nothing (R7). -/
theorem readObj_wo {x : Mem} {m : Mach} {k n : Nat} {corr : List Nat} {r : ObjRow} (ho : m.reach false = .open_)
    (hs : m.objStatus k = .ok) (hrow : objRow k = some r) (hacc : r.acc = .wo) :
    m.readObj x k n corr = (m, .ok, r.ty.decode 0) := by
  have hc : canWindow k = none := by
    cases h : canWindow k with
    | none => rfl
    | some w => exact absurd hacc (acc_of_canWindow h hrow)
  unfold Mach.readObj
  rw [hc]
  unfold Mach.judgeRead
  simp only [ho, hs, hrow, if_pos hacc]

/-! ### Definitions of items (R30, R31, R6) -/

theorem takenRecord_zero {m : Mach} {mask n v : Nat} (h : v &&& mask = 0) : m.takenRecord mask n v = (v, m) := by
  unfold Mach.takenRecord
  rw [if_pos h]

/-- What the definition of an item leaves that no check of R31 refuses: the item youngest in the table, then what it means to an armed
calibration print (R138), and to the laser station where it names that. -/
theorem define_accepted {m m1 : Mach} {v w : Nat} {it : Item}
    (ht : m.takenRecord (recordReserved (fld v 2 1 == 0x10)) 128 v = (w, m1))
    (hit : it = { id := fld w 0 2, record := w, order := m1.order }) (hr : m1.defineRefusal it = none) :
    m.define v = (if it.station = 0x10 then ({ m1 with items := m1.items ++ [it], order := m1.order + 1 }.calDefined it).slDefined
      else { m1 with items := m1.items ++ [it], order := m1.order + 1 }.calDefined it, .ok) := by
  subst hit
  unfold Mach.define
  simp only [ht, hr, Item.isSL, beq_iff_eq]

/-- A record's address in the host area is taken (R13, R30). -/
theorem wDefineAddr_inside {mem : Mem} {m : Mach} {a : Nat} (h : a + 128 ≤ 0xC0000000) :
    wDefineAddr mem a m = m.define (mem.read a 128) := by
  have hin : inHostArea a 128 = true := by simpa [inHostArea] using h
  unfold wDefineAddr
  rw [if_pos hin]

end Sys2Proof.Machine

open Sys2Proof Sys2Proof.Machine

/-- Settles O8: the card refuses the write before its effect, and a WO sub-index is no window to memory, so its read ends at the card. -/
theorem accessRights : Obligations.AccessRights := by
  intro s m cf index sub r hq ho hr hs hrow
  have hout : m.out = [] := by rw [← hq, quiet_out]
  constructor
  · intro hacc count data corr
    have hj : r.judge data = .readOnly := judge_readOnly hacc
    have hw := judgeWrite_card (eff := effOf s.mem (.sdo cf) (index * 256 + sub)) (bs := data) (reach_open_of_reads hr _) hs hrow
      (by rw [hj]; decide)
    rw [hj] at hw
    rw [exec_sdoTransfer]
    exact done_run hq (sdo_write_refused hout ho hw (by decide))
  · intro hacc count data corr
    have hread := readObj_wo (x := s.mem) (n := count) (corr := corr) hr hs hrow hacc
    rw [exec_sdoTransfer]
    exact done_run hq ((sdo_upload_data ..).trans (sdo_read hout ho hread))

/-- Settles O9: each way a write can fail ends its judgement with the machine as it was, so that only the answer is put out. -/
theorem refusedWritesChangeNothing : Obligations.RefusedWritesChangeNothing := by
  intro s m index sub k data hq hk htick _
  rw [objectWrite_runs hk htick, hq]
  have hout : m.out = [] := by rw [← hq, quiet_out]
  constructor
  · intro hsup
    rw [hostWrite_silent (reach_silent _ hsup)]
  · intro st hst
    have refused : m.reach (urgentKey k) ≠ .silent ∧ m.judgeWrite k data (effOf s.mem .local k) = (m, st) := by
      rcases hst with ⟨hsup, hurg, rfl⟩ | ⟨ho, hs, rfl⟩ | ⟨ho, hs, ⟨r, hrow, hw, hl⟩, rfl⟩ | ⟨ho, hs, ⟨r, hrow, hw, hl, hv⟩, rfl⟩
      · have hu : m.reach (urgentKey k) = .unavailable := by rw [hurg]; exact reach_unavailable hsup
        exact ⟨by simp [hu], judgeWrite_unavailable hu⟩
      · exact ⟨by simp [ho], judgeWrite_absent ho hs⟩
      · have hj : r.judge data = .length := judge_length hw hl
        exact ⟨by simp [ho], hj ▸ judgeWrite_card ho hs hrow (by simp [hj])⟩
      · have hj : r.judge data = .range := judge_range hw hl hv
        exact ⟨by simp [ho], hj ▸ judgeWrite_card ho hs hrow (by simp [hj])⟩
    rw [hostWrite_refused refused.1 refused.2, hout]
    rfl

/-- Settles O14: both sub-indices come to the one definition, and what it leaves is said by define_accepted. -/
theorem itemDefined : Obligations.ItemDefined := by
  refine ⟨?record, ?address, fun _ _ _ h => takenRecord_zero h⟩
  case record =>
    intro s m m1 data v w it hq hadm ht hit hr
    rw [exec_itDefineRecord]
    exact done_write (eff := fun _ => wDefineRecord) hq hadm (define_accepted ht hit hr)
  case address =>
    intro s m m1 a v w it hq hadm ha hv ht hit hr
    rw [exec_itDefineAddr]
    refine done_write (eff := wDefineAddr) hq hadm ?_
    rw [wDefineAddr_inside ha, ← hv]
    exact define_accepted ht hit hr

end


section
/-! What a step and a settling do to device memory: O5 and O6. -/

namespace Sys2Proof.Machine

open Sys2Proof

/-! ### Several writes in order -/

/-- Of several writes in order, the last that names a key is what the key reads as. -/
theorem Store.get_putAll_last {α : Type} [DecidableEq α] (d : Nat → α) (k : Nat) (v : α) (before after l : List (Nat × α))
    (h : ∀ w ∈ after, w.1 ≠ k) : Store.get d k (Store.putAll d (before ++ (k, v) :: after) l) = v := by
  have hsplit : Store.putAll d (before ++ (k, v) :: after) l = Store.putAll d after (Store.put d k v (Store.putAll d before l)) :=
    List.foldl_append
  rw [hsplit, Store.get_putAll_other d k after _ h, Store.get_put_same]

/-! ### Settling -/

/-- The marks of R17 are all that a settling changes of the items. -/
theorem markTouched_untouched (m : Mach) :
    m.markTouched.map (fun it => { it with touched := false }) = m.items.map (fun it => { it with touched := false }) := by
  unfold Mach.markTouched
  split
  · rfl
  · rw [List.map_map]
    refine List.map_congr_left fun it _ => ?_
    rw [Function.comp_apply]
    split <;> rfl

/-- Every command ends in a settling: of the state it finds or, when the power comes or goes, of that state with DRAM's contents gone. -/
theorem exec_settles (c : Instr) (s : State) :
    ∃ m, exec c s = .next (s.settle m) ∨ exec c s = .next (s.dramLost.settle m) := by
  cases c with
  | powerOn => exact ⟨_, .inr rfl⟩
  | powerLoss => exact ⟨_, .inr rfl⟩
  | _ => exact ⟨_, .inl rfl⟩

/-- A command on canonical memory leaves it canonical and no store pending. -/
theorem exec_sound {c : Instr} {s t : State} (hwf : s.mem.wf = true) (h : exec c s = .next t) : Sound t := by
  obtain ⟨m, hm | hm⟩ := exec_settles c s
  · cases hm.symm.trans h
    exact sound_settle m hwf
  · cases hm.symm.trans h
    exact sound_settle m rfl

end Sys2Proof.Machine

open Sys2Proof Sys2Proof.Machine

/-- Settles O5: a step is a settling, of memory that is canonical or empty, and every write of a settling keeps the canonical form. -/
theorem stepKeepsSound : Obligations.StepKeepsSound := by
  intro s t hs h
  obtain ⟨hwf, -⟩ := hs
  unfold step at h
  split at h
  case h_1 =>
    cases h
    exact sound_settle _ hwf
  case h_2 c rest _ => exact exec_sound (s := { s with pending := rest }) hwf h

/-- Settles O6: the stores reach memory in order, so the last one to a byte counts, and of the rest a settling touches only the marks. -/
theorem settleStoresOnly : Obligations.SettleStoresOnly := by
  intro s m
  refine ⟨?unstored, ?last, rfl, fun _ => rfl, rfl, ?unmarked, rfl, markTouched_untouched m⟩
  case unstored => exact fun a h => Store.get_putAll_other _ a m.stores _ h
  case last =>
    intro a b before after hstores hafter
    have hlast := Store.get_putAll_last Mem.fill a b before after s.mem.cells hafter
    rwa [← hstores] at hlast
  case unmarked =>
    intro h
    rw [settle_nil h]

end


section
/-! The commands of the thermal energy model: O20. -/

namespace Sys2Proof.Machine

open Sys2Proof

/-! ### The effects of the writes -/

theorem onOne_one (f : Mach → Mach) (m : Mach) : onOne f 1 m = (f m, .ok) := rfl

/-- A rendering input of a station, TH_MIN_SPEED apart, is stored, and the items of the station still RENDERING start again (R92). -/
theorem wRenderInput_station {m : Mach} {k v st : Nat} (hi : 0x2700 ≤ k / 256) (hmin : (k / 256 - 0x2700) % 0x20 ≠ 0x01)
    (hst : (m.put k v).inputStation k = some st) : wRenderInput k v m = ((m.put k v).restartStation st, .ok) := by
  unfold wRenderInput
  simp only [if_neg (Nat.not_lt.mpr hi), if_neg hmin, hst]

/-- An upper bound of the trim not below the lower one is stored, and frozen blocks resume (R95). -/
theorem wTrimBound_upper {m : Mach} {h v : Nat} (hv : sext 16 (m.g (K.HP_TRIM_LOWER h)) ≤ sext 16 v) :
    wTrimBound h true v m = ((m.put (K.HP_TRIM_UPPER h) v).resumeTrim h, .ok) := by
  have hne : K.HP_TRIM_LOWER h ≠ K.HP_TRIM_UPPER h := by simp [K.HP_TRIM_LOWER, K.HP_TRIM_UPPER]
  unfold wTrimBound
  simp only [if_true, Mach.gi, Mach.put_g_same, Mach.put_g_other m hne, if_neg (Int.not_lt.mpr hv)]

/-- A lower bound of the trim not above the upper one is stored, and frozen blocks resume (R95). -/
theorem wTrimBound_lower {m : Mach} {h v : Nat} (hv : sext 16 v ≤ sext 16 (m.g (K.HP_TRIM_UPPER h))) :
    wTrimBound h false v m = ((m.put (K.HP_TRIM_LOWER h) v).resumeTrim h, .ok) := by
  have hne : K.HP_TRIM_UPPER h ≠ K.HP_TRIM_LOWER h := by simp [K.HP_TRIM_LOWER, K.HP_TRIM_UPPER]
  unfold wTrimBound
  simp only [if_neg Bool.false_ne_true, Mach.gi, Mach.put_g_same, Mach.put_g_other m hne, if_neg (Int.not_lt.mpr hv)]

/-- The code of a head port's event, with the offset in its block first (R99, R125). -/
theorem raiseHp_code (m : Mach) (h off : Nat) (data : List Nat) : m.raiseHp h off data = m.raise (0x2500 + off + 0x80 * h) data := by
  unfold Mach.raiseHp
  rw [Nat.add_right_comm]

/-- RENDER_INPUT_WRITE of an input of a station is the write of that input. -/
theorem exec_renderInputWrite_station {index sub : Nat} {data : List Byte} {s : State} (hr : renderInput (index * 256 + sub) = true)
    (hi : 0x2700 ≤ index) : exec (.renderInputWrite index sub data) s
      = done s fun _ m => m.hostWrite (index * 256 + sub) data (wRenderInput (index * 256 + sub)) := by
  show execRenderInputWrite index sub data s = _
  unfold execRenderInputWrite
  simp only [hr, Bool.not_true, if_neg Bool.false_ne_true, if_neg (fun h : index < 0x2700 ∧ _ => Nat.not_lt.mpr hi h.1)]

end Sys2Proof.Machine

open Sys2Proof Sys2Proof.Machine

/-- Settles O20: each write passes its card, so it leaves what its effect leaves; the two other commands find their conditions met. -/
theorem energyCommandsComplete : Obligations.EnergyCommandsComplete := by
  refine ⟨?roundEnd, ?input, ?trimUpper, ?trimLower, ?trimUnfreeze, ?planUnfreeze, ?gainReset, ?gainBounds, ?stale⟩
  case roundEnd =>
    intro s m id it hq hit hst hsl hpl hne hall
    have hsl' : it.isSL = false := by simpa [Item.isSL] using hsl
    refine done_run hq ?_
    simp only [hit]
    exact if_pos (by simp [hst, hsl', hpl, hne, hall])
  case input =>
    intro s m index sub v st data hq hadm hr hi hsub hmin hst
    have hdiv : (index * 256 + sub) / 256 = index := by omega
    rw [exec_renderInputWrite_station hr hi]
    exact done_write (eff := fun _ => wRenderInput _) hq hadm (wRenderInput_station (by rwa [hdiv]) (by rwa [hdiv]) hst)
  case trimUpper =>
    intro s m hp v hq hadm hv
    exact done_write (eff := fun _ => wTrimBound hp true) hq hadm (wTrimBound_upper hv)
  case trimLower =>
    intro s m hp v hq hadm hv
    exact done_write (eff := fun _ => wTrimBound hp false) hq hadm (wTrimBound_lower hv)
  case trimUnfreeze =>
    intro s m hp hq hadm
    exact done_write (eff := fun _ => onOne _) hq hadm (onOne_one _ m)
  case planUnfreeze =>
    intro s m hp hq hadm
    exact done_write (eff := fun _ => onOne (fun m => m.planResume hp)) hq hadm (onOne_one _ m)
  case gainReset =>
    intro s m hp hq hadm
    exact done_write (eff := fun _ => wGainReset hp) hq hadm (onOne_one _ m)
  case gainBounds =>
    intro s m hp v k upper hq hk hadm
    subst hk
    exact done_write (eff := fun _ => wGainBound hp _) hq hadm rfl
  case stale =>
    intro s m hp thm t it hq hbad hit hraised htime hcount
    refine done_run hq ?_
    simp only [hbad, hit, raiseHp_code]
    exact if_pos (by simp only [hraised, htime, hcount, Bool.not_false, decide_true, Bool.and_self])

end


section
/-! Power, reset and boot: O52. -/

namespace Sys2Proof.Machine

open Sys2Proof

/-! ### What raising an event leaves of the flash and of what a reset found -/

@[simp] theorem raise_trial (m : Mach) (code : Nat) (data : List Nat) : (m.raise code data).flash.trial = m.flash.trial := by
  rw [(raise_only m code data).rest]

@[simp] theorem raise_clkFail (m : Mach) (code : Nat) (data : List Nat) : (m.raise code data).dev.clkFail = m.dev.clkFail := by
  rw [(raise_only m code data).rest]

@[simp] theorem raiseIf_false (m : Mach) (code : Nat) (data : List Nat) : m.raiseIf false code data = m := rfl

end Sys2Proof.Machine

open Sys2Proof Sys2Proof.Machine

/-- Settles O52: each command finds the condition of its one branch met; the event of a failed clock is not raised, as none failed. -/
theorem bootCommandsComplete : Obligations.BootCommandsComplete := by
  refine ⟨?power, ?pulse, ?release, ?ready, ?recovery, ?disagree, ?again, ?trial⟩
  case power =>
    rintro s m rfl
    exact ⟨rfl, rfl⟩
  case pulse =>
    intro s m ns hq hns
    exact done_run hq (if_pos hns)
  case release =>
    intro s m mv hq hsup hmv hotp
    exact done_run hq (if_neg (by simp [hsup, hmv, hotp]))
  case ready =>
    intro s m m1 m2 hq hsup hm1 hclk hpass hm2
    subst hm1
    refine done_run hq ((if_neg (by simp [hsup])).trans ((if_pos hpass).trans ?_))
    simp [hm2, hclk]
  case recovery =>
    intro s m m1 m2 hq hsup hm1 hclk hpass hm2
    subst hm1
    refine done_run hq ((if_neg (by simp [hsup])).trans ((if_neg (Bool.eq_false_iff.mp hpass)).trans ?_))
    simp [hm2, hclk]
  case disagree =>
    intro s m hq hsup htrial
    refine done_run hq ((if_neg (by simp [hsup])).trans ?_)
    simp [hsup, htrial]
  case again =>
    intro s m m1 hq hsup hback hmode hm1
    refine done_run hq ((if_neg (by simp [hsup])).trans ?_)
    simp [hback, hmode, hm1]
  case trial =>
    intro s m t hq ht hsup htrial htime
    refine done_run hq ?_
    simp only [ht]
    exact if_neg (by simp [hsup, htrial, htime])

end


section
/-! The commands on print items and the items' way through the device: O16 and O17. -/

namespace Sys2Proof.Machine

open Sys2Proof

/-! ### An item's station and state (R29, R33) -/

section item

variable {it : Item}

theorem isSL_of_station (h : it.station = 0x10) : it.isSL = true := beq_iff_eq.mpr h

theorem isSL_of_thermal (h : it.station ≠ 0x10) : it.isSL = false := beq_eq_false_iff_ne.mpr h

theorem final_of_printing (h : it.state = .printing) : it.final = false := by
  unfold Item.final
  rw [h]

end item

/-! ### The effects of the writes (R32, R43, R44, R52) -/

section effects

variable {m : Mach} {id : Nat} {it : Item}

/-- An item that is neither final nor PRINTING nor ADMITTED is cancelled with reason 1 (R44). -/
theorem wCancel_waiting (hit : m.item? id = some it) (hfinal : it.final = false) (hprinting : it.state ≠ .printing)
    (hadmitted : it.state ≠ .admitted) : wCancel id m = ((m.cancel id 1).itemsMoved, .ok) := by
  unfold wCancel
  simp only [hit, hfinal, beq_eq_false_iff_ne.mpr hprinting, beq_eq_false_iff_ne.mpr hadmitted, Bool.false_and,
    if_neg Bool.false_ne_true]

/-- A thermal item that is PRINTING is spoiled with reason 1 (R44, R45). -/
theorem wCancel_printing (hit : m.item? id = some it) (hprinting : it.state = .printing) (hthermal : it.station ≠ 0x10) :
    wCancel id m = ((m.spoil id 1).itemsMoved, .ok) := by
  unfold wCancel
  simp only [hit, final_of_printing hprinting, isSL_of_thermal hthermal, hprinting, beq_self_eq_true, if_true,
    if_neg Bool.false_ne_true]

/-- An item defined with HOLD is marked released (R52). -/
theorem wRelease_held (hit : m.item? id = some it) (hhold : it.hold = true) :
    wRelease id m = (m.modItem id (fun x => { x with released := true }), .ok) := by
  unfold wRelease
  simp only [hit, if_pos hhold]

/-- A final item leaves the table (R32). -/
theorem wRetire_final (hit : m.item? id = some it) (hfinal : it.final = true) :
    wRetire id m = ({ m with items := m.items.filter (fun x => x.id != id) }, .ok) := by
  unfold wRetire
  simp only [hit, if_pos hfinal]

end effects

theorem wStationHold_set (m : Mach) (st : Nat) :
    wStationHold st 1 m = ((m.put (K.IT_STATION_HOLD st) 1).returnAdmitted st, .ok) := rfl

/-- Clearing the hold of a thermal station only stores the 0 (R43). -/
theorem wStationHold_clear_thermal (m : Mach) {st : Nat} (hst : st < 4) :
    wStationHold st 0 m = (m.put (K.IT_STATION_HOLD st) 0, .ok) := by
  unfold wStationHold
  simp only [if_neg Nat.zero_ne_one, if_neg (Nat.ne_of_lt hst)]

/-- IT_SELECT is not write-only, so its value is stored. -/
theorem storeEffect_itSelect (m : Mach) (v : Nat) : storeEffect K.IT_SELECT v m = (m.put K.IT_SELECT v, .ok) := by
  have hrow : (objRow K.IT_SELECT).all (fun r => r.acc != .wo) = true := by decide +kernel
  unfold storeEffect
  cases h : objRow K.IT_SELECT with
  | none => rfl
  | some r =>
    have hacc : r.acc ≠ .wo := by simpa [h] using hrow
    exact if_neg hacc

/-! ### Entry into RENDERING (R34, R37) -/

/-- An item's record, and so its station, stays as it enters RENDERING. -/
theorem renderingReads_station (m : Mach) (it : Item) : (m.renderingReads it).station = it.station := rfl

/-- No floor holds for a page, nor for an item whose initial speed reaches its floor (R37). -/
theorem belowFloor_false {m : Mach} {it : Item} (h : it.station = 0x10 ∨ m.speedFloor it ≤ m.initialSpeed it) :
    m.belowFloor it = false := by
  unfold Mach.belowFloor
  rcases h with hsl | hspeed
  · rw [isSL_of_station hsl]
    rfl
  · rw [decide_eq_false (not_lt.mpr hspeed), Bool.and_false]

/-- An item whose memory is reserved and whose speed reaches its floor begins its bands (R34, R37). -/
theorem enterRendering_begins {m m1 : Mach} {it : Item}
    (hres : (m.modItem it.id (fun _ => m.renderingReads it)).reserve (m.renderingReads it) = some m1)
    (hfloor : m1.belowFloor (m.renderingReads it) = false) : m.enterRendering it = (m1.beginBands it.id).pump := by
  unfold Mach.enterRendering
  simp only [hres, hfloor, if_neg Bool.false_ne_true]

/-! ### The end of an item (R36) -/

/-- A page that is through the exit, imaged to its last line and inspected where it is to be, is DONE (R36). -/
theorem itemDone_page {m : Mach} {id : Nat} {it : Item} (hit : m.item? id = some it) (hsl : it.station = 0x10)
    (hprinting : it.state = .printing) (hfeed : it.feedDone = true) (hend : it.endDone = true) (hlines : it.length ≤ it.linesFired)
    (hinsp : it.inspect = false ∨ it.inspected = true) :
    m.itemDone id = (((m.finish id .done 0).itemEvent 0x2303 id).publishGains it).calItemDone it := by
  have hseen : (!it.inspect || it.inspected) = true := by
    rcases hinsp with h | h <;> simp [h]
  unfold Mach.itemDone
  simp only [hit, isSL_of_station hsl, hprinting, hfeed, hend, hseen, if_true, Nat.mul_one, decide_eq_true hlines,
    beq_self_eq_true, Bool.and_self]

end Sys2Proof.Machine

open Sys2Proof Sys2Proof.Machine

/-- Settles O16: each write passes its card, and the item's state chooses the one branch of its effect. -/
theorem itemCommandsComplete : Obligations.ItemCommandsComplete := by
  refine ⟨?cancel, ?spoil, ?release, ?retire, ?hold, ?resume, ?select⟩
  case cancel =>
    intro s m id it hq hadm hit hfinal hprinting hadmitted
    exact done_write (eff := fun _ => wCancel) hq hadm (wCancel_waiting hit hfinal hprinting hadmitted)
  case spoil =>
    intro s m id it hq hadm hit hprinting hthermal
    exact done_write (eff := fun _ => wCancel) hq hadm (wCancel_printing hit hprinting hthermal)
  case release =>
    intro s m id it hq hadm hit hhold
    exact done_write (eff := fun _ => wRelease) hq hadm (wRelease_held hit hhold)
  case retire =>
    intro s m id it hq hadm hit hfinal
    exact done_write (eff := fun _ => wRetire) hq hadm (wRetire_final hit hfinal)
  case hold =>
    intro s m st hq hadm
    exact done_write (eff := fun _ => wStationHold st) hq hadm (wStationHold_set m st)
  case resume =>
    intro s m st hq hadm hst
    exact done_write (eff := fun _ => wStationHold st) hq hadm (wStationHold_clear_thermal m hst)
  case select =>
    intro s m id hq hadm
    exact done_write (eff := fun _ => storeEffect K.IT_SELECT) hq hadm (storeEffect_itSelect m id)

/-- Settles O17: in each command the conditions of its rule decide every branch, up to the one that the item takes. -/
theorem itemFlowCompletes : Obligations.ItemFlowCompletes := by
  refine ⟨?rendering, ?commit, ?admission, ?printing, ?done⟩
  case rendering =>
    intro s m m1 it hq hsup hup hstarved holdest hroom hres hfloor
    have hany : (List.range m.nClusters).any m.clusterUp = true := by
      obtain ⟨k, hk, hkup⟩ := hup
      exact List.any_eq_true.mpr ⟨k, List.mem_range.mpr hk, hkup⟩
    refine done_run hq ((if_neg (by simp [hsup, hany])).trans ?_)
    simp only [hstarved, holdest, if_pos hroom]
    exact enterRendering_begins hres (belowFloor_false (by rwa [renderingReads_station]))
  case commit =>
    intro s m id it hq hit hsup hrendered hwindows
    have hgood : ¬ (it.vwinCount ≠ 0 ∧ m.badIn it.vwinList (16 * it.vwinCount) = true) := by
      rintro ⟨hcount, hbad⟩
      rcases hwindows with h | h
      · exact hcount h
      · exact Bool.false_ne_true (h.symm.trans hbad)
    refine done_run hq ?_
    simp only [hit]
    exact (if_neg (by simp [hsup, hrendered])).trans (if_neg hgood)
  case admission =>
    intro s m id it hq hit hadm
    refine done_run hq ?_
    simp only [hit, hadm, Bool.not_true, if_neg Bool.false_ne_true, Item.isSL, beq_iff_eq]
  case printing =>
    intro s m id a it o hq hit hthermal hadmitted haxis hbegun
    refine done_run hq ?_
    simp only [hit, haxis, hbegun, if_true]
    exact if_neg (by simp [isSL_of_thermal hthermal, hadmitted])
  case done =>
    intro s m id it hq hit hsl hprinting hfeed hend hlines hinsp
    exact done_run hq (congrArg Mach.itemsMoved (itemDone_page hit hsl hprinting hfeed hend hlines hinsp))

end


section
/-! The commands of the render engines: O18 and O19. -/

namespace Sys2Proof.Machine

open Sys2Proof

/-! ### The supervisor's work, a band's end and an idle thief (R58, R60, R62) -/

/-- With the supervisor in service its work on the ledger is to issue plan bands and to inject (R60). -/
theorem pump_ready {m : Mach} (h : m.sup = .ready) : m.pump = m.issuePlans.injectAll := by
  unfold Mach.pump
  exact if_pos (beq_iff_eq.mpr h)

/-- A band whose input holds no uncorrectable word leaves the ledger, and its output is taken (R58). -/
theorem bandEnds_clean {mem : Mem} {m : Mach} {it : Item} {b : Band} (h : m.bandInputBad it b = false) :
    m.bandEnds mem it b = (m.unledger b).bandOutput mem b := by
  unfold Mach.bandEnds
  exact if_neg (Bool.eq_false_iff.mp h)

/-- A serving clove that is idle, in a cluster that is up and not reloading, may try a remote steal 2 µs after its last (R62). -/
theorem remoteThief_free {v : Clove} {now : Nat} {reloading up : Bool} (hserving : v.serving = true) (hcur : v.cur = none)
    (hdeque : v.deque = []) (hreload : reloading = false) (hup : up = true) (hspaced : ∀ t, v.lastRemote = some t → t + 2 ≤ now) :
    ¬ ((!v.serving || v.cur.isSome || v.deque ≠ [] || reloading || !up
      || !(match v.lastRemote with | none => true | some t => decide (t + 2 ≤ now))) = true) := by
  have hlast : (match v.lastRemote with | none => true | some t => decide (t + 2 ≤ now)) = true := by
    split
    · rfl
    · exact decide_eq_true (hspaced _ ‹_›)
  simp [hserving, hcur, hdeque, hreload, hup, hlast]

/-! ### Damage to a cluster's SRAM, by the region the granule serves (R69) -/

section sram

variable {m m1 : Mach} {k off : Nat}

/-- A granule that is retired already raises nothing and changes nothing. -/
theorem sramFault_retired (h : off / 256 ∈ (m.cluster k).retired) : m.sramFault k off = m := by
  unfold Mach.sramFault
  exact if_pos (List.contains_iff_mem.mpr h)

variable (hnew : off / 256 ∉ (m.cluster k).retired)
  (hm1 : m1 = ((m.modCluster k (fun c => c.retire (off / 256))).put (K.RD_CL_SRAM_RETIRED k)
    (min 255 (m.g (K.RD_CL_SRAM_RETIRED k) + 1))).raise 0x2404 [k, off / 256 * 256])
include hnew hm1

/-- A granule of the kernel image: the cluster's cloves stop for its reload, and their bands are re-issued. -/
theorem sramFault_kernel (hhome : (m.cluster k).serves (off / 256) < 0x400) :
    m.sramFault k off
      = ((((m1.modCluster k (fun c => { c with reloading := true })).reissueRunning k).clusterHealth k).pump).runCluster k := by
  subst hm1
  unfold Mach.sramFault
  exact (if_neg (mt List.contains_iff_mem.mp hnew)).trans (by simp only [if_pos hhome]; rfl)

/-- A granule between the kernel image and staging: its descriptors are the same afterwards. -/
theorem sramFault_between (hlo : 0x400 ≤ (m.cluster k).serves (off / 256)) (hhi : (m.cluster k).serves (off / 256) < 0x510) :
    m.sramFault k off = ((m1.clusterHealth k).pump).runCluster k := by
  subst hm1
  unfold Mach.sramFault
  exact (if_neg (mt List.contains_iff_mem.mp hnew)).trans
    (by simp only [if_neg (Nat.not_lt.mpr hlo), if_neg (show ¬ stagingGranule ≤ _ from Nat.not_le.mpr hhi)]; rfl)

/-- A granule of staging, with no band in progress that could have data there. -/
theorem sramFault_staging_idle (hhome : 0x510 ≤ (m.cluster k).serves (off / 256))
    (hidle : ∀ n, ((m1.cluster k).cloves.getD n { state := .off }).cur = none) :
    m.sramFault k off = ((m1.clusterHealth k).pump).runCluster k := by
  subst hm1
  unfold Mach.sramFault
  refine (if_neg (mt List.contains_iff_mem.mp hnew)).trans ?_
  simp only [if_neg (show ¬ (m.cluster k).serves (off / 256) < 0x400 by omega), if_pos (show stagingGranule ≤ _ from hhome)]
  rw [upto_id]
  · rfl
  · intro n _
    exact if_pos (Option.isNone_iff_eq_none.mpr (hidle n))

end sram

/-! ### Headroom (R65) -/

/-- An event under two conditions. -/
theorem raiseIf_and (m : Mach) (p q : Prop) [Decidable p] [Decidable q] (code : Nat) (data : List Nat) :
    m.raiseIf (decide p && decide q) code data = if p ∧ q then m.raise code data else m := by
  unfold Mach.raiseIf
  simp only [Bool.and_eq_true, decide_eq_true_eq]

/-! ### Cluster control (R71, R72) -/

section control

variable {m : Mach} {k : Nat}

/-- DRAIN of a cluster that is up: its entries go back for the other clusters. -/
theorem clusterDrain_up (h : m.ready (rdyCluster k) = vReady ∨ m.ready (rdyCluster k) = vDegraded) :
    m.clusterDrain k
      = (((((m.modCluster k (fun c => { c with phase := .draining })).setCluster k vUpdating).returnEntries k).regenerate).pump, .ok) := by
  unfold Mach.clusterDrain
  exact if_neg (fun ⟨hr, hd⟩ => h.elim hr hd)

/-- LOAD of a cluster that is OFF or in FAULT: the image selected now is copied. -/
theorem clusterLoad_down (h : m.ready (rdyCluster k) = vOff ∨ m.ready (rdyCluster k) = vFault) :
    m.clusterLoad k = ((m.modCluster k (fun c =>
      { c with phase := .copying, loadSel := m.g (K.RD_CL_IMAGE_SEL k) })).setCluster k vUpdating, .ok) := by
  unfold Mach.clusterLoad
  exact if_neg (fun ⟨ho, hf⟩ => h.elim ho hf)

/-- RESUME of a cluster that is OFF and holds a verified kernel. -/
theorem clusterResume_verified {n : Nat} {m1 : Mach} (hoff : m.ready (rdyCluster k) = vOff) (hver : (m.cluster k).verified = true)
    (hn : n = ((m.cluster k).cloves.filter (fun v => v.state == .inService)).length)
    (hm1 : m1 = m.modCluster k (fun c => { c with phase := .idle, cloves := c.cloves.map (fun v => { v with lastMark := m.time }) })) :
    m.clusterResume k = ((m1.setCluster k (if n = 0 then vFault else if n < 16 ∨ 32 ≤ (m1.cluster k).retired.length then vDegraded
      else vReady)).regenerate.pump, .ok) := by
  subst hn hm1
  unfold Mach.clusterResume
  exact if_neg (by simp [hoff, hver])

/-- RD_GEN_SELECT takes a generation that a cluster which is up holds (R72). -/
theorem wGenSelect_held {gen : Nat} (hk : k < m.nClusters) (hup : m.isUp (rdyCluster k) = true) (hgen : (m.cluster k).gen = gen) :
    wGenSelect gen m = ((m.put K.RD_GEN_SELECT gen).regenerate.pump, .ok) := by
  unfold wGenSelect
  exact if_pos (List.any_eq_true.mpr ⟨k, List.mem_range.mpr hk, by simp [hup, hgen]⟩)

end control

end Sys2Proof.Machine

open Sys2Proof Sys2Proof.Machine

/-- Settles O18: the band in progress, the clove's last mark or state, and the idle clove's victim each choose their command's branch. -/
theorem cloveCommandsComplete : Obligations.CloveCommandsComplete := by
  refine ⟨?injection, ?discarded, ?accepted, ?hang, ?parity, ?spare, ?steal⟩
  case injection =>
    intro s m hq hsup
    exact done_run hq (pump_ready hsup)
  case discarded =>
    intro s m m1 cl cv b f hq hcur hm1 hdiscard
    subst hm1
    refine done_run hq ?_
    simp only [hcur, hdiscard, Bool.true_or, if_true]
    split <;> rfl
  case accepted =>
    intro s m m1 cl cv b it hq hcur hm1 hdiscard hknown hit hgood
    have hit1 : m1.item? b.item = some it := by rwa [hm1]
    have hknown1 : m1.ledger.any (fun x => x.same b) = true := by rwa [hm1]
    refine done_run hq ?_
    simp only [hcur, ← hm1, hit1, hknown1, hdiscard, Bool.not_true, Bool.or_false, reduceCtorEq, if_false,
      bandEnds_clean hgood]
  case hang =>
    intro s m cl cv hq hcl hmark
    exact done_run hq (if_pos ⟨hcl, hmark⟩)
  case parity =>
    intro s m cl cv hq hcl
    exact done_run hq (if_pos hcl)
  case spare =>
    intro s m cl hq hstate hloading m1 hm1
    subst hm1
    exact done_run hq (if_pos (by simp only [hstate, hloading, beq_self_eq_true, Bool.and_self]))
  case steal =>
    intro s m m1 m2 m3 cl cv k j v hq hrun hv hserving hcur hdeque hreload hup hspaced hm2
    constructor
    · intro hnone
      refine done_run hq ?_
      simp only [hrun, hv, ← hm2, hnone, List.foldl_nil]
      exact if_neg (remoteThief_free hserving hcur hdeque hreload hup hspaced)
    · intro hone hbacklog hdeepest hsteal
      refine done_run hq ?_
      simp only [hrun, hv, ← hm2, hone, List.foldl_cons, List.foldl_nil, if_neg hbacklog, hdeepest, hsteal, if_true]
      exact if_neg (remoteThief_free hserving hcur hdeque hreload hup hspaced)

/-- Settles O19: the place of the damage, the phase of the cluster and its readiness each choose their command's branch. -/
theorem clusterCommandsComplete : Obligations.ClusterCommandsComplete := by
  refine ⟨?sram, ?reloaded, ?headroom, ?drain, ?drained, ?load, ?checked, ?tested, ?resume, ?select⟩
  case sram =>
    intro s m cl off home hq hcl hoff hhome
    subst hhome
    have fault {m' : Mach} (h : m.sramFault cl off = m') : exec (.sramWordUncorrectable cl off) s = .next (s.settle m') :=
      done_run hq ((if_pos ⟨hcl, hoff⟩).trans h)
    refine ⟨fun hold => fault (sramFault_retired hold), fun hnew m1 hm1 => ⟨?_, ?_, ?_⟩⟩
    · exact fun hkernel => fault (sramFault_kernel hnew hm1 hkernel)
    · exact fun hlo hhi => fault (sramFault_between hnew hm1 hlo hhi)
    · exact fun hstaging hidle => fault (sramFault_staging_idle hnew hm1 hstaging hidle)
  case reloaded =>
    intro s m cl hq hreloading
    exact done_run hq (if_pos hreloading)
  case headroom =>
    intro s m rates v hq hv
    refine done_run hq ?_
    simp only [← min_def, ← hv]
    exact raiseIf_and ..
  case drain =>
    intro s m cl hq hadm hready
    exact done_write (eff := fun _ _ m => m.clusterDrain cl) hq hadm (clusterDrain_up hready)
  case drained =>
    intro s m cl hq hdrained
    exact done_run hq (if_pos hdrained)
  case load =>
    intro s m cl hq hadm hready
    exact done_write (eff := fun _ _ m => m.clusterLoad cl) hq hadm (clusterLoad_down hready)
  case checked =>
    intro s m cl k hq hphase hk
    subst hk
    exact done_run hq (if_neg (not_not.mpr hphase))
  case tested =>
    intro s m m1 cl failed sp n cs hq hphase htest hn hm1
    subst hn hm1
    refine done_run hq ((if_neg (by simp [hphase])).trans ?_)
    simp only [htest]
  case resume =>
    intro s m cl n hq hadm hoff hver hn m1 hm1
    exact done_write (eff := fun _ _ m => m.clusterResume cl) hq hadm (clusterResume_verified hoff hver hn hm1)
  case select =>
    intro s m gen cl hq hadm hcl hup hgen
    exact done_write (eff := fun _ => wGenSelect) hq hadm (wGenSelect_held hcl hup hgen)

end


section
/-! The fired time of a dot, and the configuration of a station: O11 and O24. -/

namespace Sys2Proof.Machine

open Sys2Proof

/-! ### Rounding to the nearest, and the fired time (R94) -/

/-- A quotient of two numbers rounds as their division rounded to the nearest. -/
theorem roundRat_natCast_div (n : Nat) {d : Nat} (hd : 0 < d) : roundRat ((n : Rat) / d) = (roundDiv n d : Nat) := by
  have hhalf : (n : Rat) / d + 1 / 2 = ((2 * n + d : Nat) : Rat) / ((2 * d : Nat) : Rat) := by
    have hd' : (d : Rat) ≠ 0 := Nat.cast_ne_zero.mpr hd.ne'
    push_cast
    field_simp
  unfold roundRat roundDiv
  rw [if_pos (by positivity), hhalf]
  exact Rat.floor_natCast_div_natCast ..

/-- A number divided with rounding to the nearest is at most half a unit of the divisor away, and the half goes upwards. -/
theorem roundDiv_nearest (n : Nat) {d : Nat} (hd : 0 < d) :
    2 * (roundDiv n d * d) ≤ 2 * n + d ∧ 2 * n < 2 * (roundDiv n d * d) + d := by
  have hmod : 2 * d * roundDiv n d + (2 * n + d) % (2 * d) = 2 * n + d := Nat.div_add_mod ..
  have hlt : (2 * n + d) % (2 * d) < 2 * d := Nat.mod_lt _ (by omega)
  have hcomm : 2 * d * roundDiv n d = 2 * (roundDiv n d * d) := by ring
  omega

theorem clampN_zero (hi x : Nat) : clampN 0 hi x = min hi x := by
  unfold clampN
  rw [if_neg (Nat.not_lt_zero x), min_def_lt]

/-- The fired time in whole numbers, for the gain g in 1/1024 that the trim gives. -/
theorem firedTime_eq (word scale : Nat) {trim : Int} {g : Nat} (hg : 1024 + trim = g) :
    firedTime word scale trim = min 65535 (roundDiv (word * scale * g) 131072) := by
  have hq : (word : Rat) * scale / 128 * ((1024 + trim : Int) : Rat) / 1024 = ((word * scale * g : Nat) : Rat) / (131072 : Nat) := by
    rw [hg]
    push_cast
    ring
  unfold firedTime
  rw [hq, roundRat_natCast_div _ (by decide), Int.toNat_natCast, clampN_zero]

/-! ### A tandem pair restored, a station configured and taken out (R122, R124) -/

/-- The code of a station's event, with the offset in its block first (R125). -/
theorem raiseTh_code (m : Mach) (st off : Nat) (data : List Nat) : m.raiseTh st off data = m.raise (0x2700 + off + 0x20 * st) data := by
  unfold Mach.raiseTh
  rw [Nat.add_right_comm]

section station

variable {m : Mach} {st : Nat}

/-- A station in fallback whose ports are all up returns to tandem mode, and its items still RENDERING restart for the pair. -/
theorem wTandemRestore_fallback (hmode : m.g (K.TH_ST_MODE st) = 2) (hup : ∀ h, h ∈ m.stationPorts st → m.isUp (rdyHead h) = true) :
    wTandemRestore st 1 m = ((m.stationPorts st).foldl Mach.refreshHead
      ((((m.put (K.TH_ST_MODE st) 1).put (K.TH_ST_ACTIVE_PORTS st) (m.h (K.TH_PORTS st))).raise (0x2702 + 0x20 * st)
        []).refreshStations.restartHeads st), .ok) := by
  have hall : ¬ (m.g (K.TH_ST_MODE st) ≠ 2 ∨ (m.stationPorts st).any (fun h => !(m.isUp (rdyHead h))) = true) := by
    simpa [hmode] using hup
  unfold wTandemRestore
  simp only [ne_eq, not_true_eq_false, if_false, if_neg hall, raiseTh_code]
  rfl

/-- TH_CONFIGURED 1 of a station that is not configured and passes the checks of R124 and R165. -/
theorem wConfigured_on (hoff : m.g (K.TH_CONFIGURED st) = 0) (hok : m.stationRefused st = false) :
    wConfigured st 1 m = (m.stationOn st, .ok) := by
  unfold wConfigured
  rw [if_neg (by simp [hoff]), if_pos rfl, if_neg (by simp [hok])]

/-- TH_CONFIGURED 0 of a configured station that has no item in flight. -/
theorem wConfigured_off (hon : m.g (K.TH_CONFIGURED st) = 1) (hidle : m.itemsOf st Item.inFlight = []) :
    wConfigured st 0 m = (m.stationOff st, .ok) := by
  unfold wConfigured
  rw [if_neg (by simp [hon]), if_neg (by decide), if_neg (not_not.mpr hidle)]

end station

end Sys2Proof.Machine

open Sys2Proof Sys2Proof.Machine

/-- Settles O11: in whole numbers the fired time is a division rounded to the nearest and cut at 65535, so its distance is that of the
division. -/
theorem firedTime : Obligations.FiredTime := by
  intro word scale trim htrim
  obtain ⟨g, hg⟩ : ∃ g : Nat, 1024 + trim = g := Int.eq_ofNat_of_zero_le (by omega)
  obtain ⟨hlo, hhi⟩ := roundDiv_nearest (word * scale * g) (d := 131072) (by decide)
  rw [firedTime_eq word scale hg, hg, ← Nat.cast_mul]
  constructor
  · intro hbelow
    omega
  · intro habove
    omega

/-- Settles O24: each write passes its card and finds its effect's conditions met, so it leaves what that effect leaves. -/
theorem stationConfigurationCompletes : Obligations.StationConfigurationCompletes := by
  refine ⟨?restore, ?on, ?off⟩
  case restore =>
    intro s m st hq hadm hmode hup
    exact done_write (eff := fun _ => wTandemRestore st) hq hadm (wTandemRestore_fallback hmode hup)
  case on =>
    intro s m st hq hadm hoff hok
    exact done_write (eff := fun _ => wConfigured st) hq hadm (wConfigured_on hoff hok)
  case off =>
    intro s m st hq hadm hon hidle
    exact done_write (eff := fun _ => wConfigured st) hq hadm (wConfigured_off hon hidle)

end


section
/-! Head ports and firing: the slot table, the port mode, triggers and the pepper timer, and the insertion sequence: O10, O21, O22
and O23. -/

namespace Sys2Proof.Machine

open Sys2Proof

/-! ### The slots in use (R103) -/

/-- The 64 entries of a slot table, as programmed. -/
def slotEntries (table : Nat) : List Nat := (List.range 64).map (fun k => fld table (2 * k) 2)

theorem slotsInUse_eq (table : Nat) : slotsInUse table = ((slotEntries table).takeWhile (· ≠ 0)).map (fun d => max 10 d) := rfl

theorem slotsInUse_length (table : Nat) : (slotsInUse table).length = ((slotEntries table).takeWhile (· ≠ 0)).length := by
  rw [slotsInUse_eq, List.length_map]

theorem slotEntries_get {k : Nat} (table : Nat) (hk : k < 64) : (slotEntries table)[k]? = some (fld table (2 * k) 2) := by
  simp [slotEntries, hk]

theorem slotsInUse_length_le (table : Nat) : (slotsInUse table).length ≤ 64 := by
  rw [slotsInUse_length]
  exact (List.takeWhile_sublist _).length_le.trans_eq (by simp [slotEntries])

/-- A slot in use is an entry that is not 0; 1 to 9 stand for 10. -/
theorem slotsInUse_get {table k : Nat} (hk : k < (slotsInUse table).length) :
    fld table (2 * k) 2 ≠ 0 ∧ (slotsInUse table)[k]? = some (max 10 (fld table (2 * k) 2)) := by
  have h64 : k < 64 := hk.trans_le (slotsInUse_length_le table)
  obtain ⟨d, hentry, hd, hslot⟩ := (takeWhile_spec (· ≠ 0) (slotEntries table)).1 k (by rwa [← slotsInUse_length])
  obtain rfl : fld table (2 * k) 2 = d := by rw [slotEntries_get table h64] at hentry; exact Option.some.inj hentry
  exact ⟨of_decide_eq_true hd, by rw [slotsInUse_eq, List.getElem?_map, hslot]; rfl⟩

/-- The first entry not in use is 0. -/
theorem slotsInUse_end {table : Nat} (hlen : (slotsInUse table).length < 64) : fld table (2 * (slotsInUse table).length) 2 = 0 := by
  have hend := (takeWhile_spec (· ≠ 0) (slotEntries table)).2 _ (by rw [← slotsInUse_length]; exact slotEntries_get table hlen)
  simpa using hend

theorem slotsInUse_nil {table : Nat} (h0 : fld table 0 2 = 0) : slotsInUse table = [] := by
  by_contra hne
  exact (slotsInUse_get (List.length_pos_iff.mpr hne)).1 h0

/-! ### The entries of a line (R103, R105) -/

/-- Every entry (phase, slot, duration) of the phases in the order given, each phase with the slots in the order of the table. -/
def phaseEntries (sl order : List Nat) : List (Nat × Nat × Nat) := order.flatMap (fun p => (enumFrom 0 sl).map (fun x => (p, x.1, x.2)))

/-- The order in which a line of an item fires its phases: R105 turns it on the odd lines under HP_SG_PHASE_ORDER 1. -/
def phaseOrder (it : Item) (h line : Nat) : List Nat :=
  let np := phaseCount (it.s (K.HP_SG_GROUPS h)) (max 1 (it.s (K.HP_SG_CONCURRENT h)))
  if it.s (K.HP_SG_PHASE_ORDER h) = 1 ∧ line % 2 = 1 then (List.range np).reverse else List.range np

theorem phaseOrder_nodup (it : Item) (h line : Nat) : (phaseOrder it h line).Nodup := by
  unfold phaseOrder
  split
  · exact List.nodup_reverse.mpr List.nodup_range
  · exact List.nodup_range

theorem phaseEntries_nil (order : List Nat) : phaseEntries [] order = [] := by simp [phaseEntries, enumFrom]

/-- Two entries of one phase stand in the order of the table. -/
theorem phaseEntries_pairwise (sl : List Nat) {order : List Nat} (hnodup : order.Nodup) :
    (phaseEntries sl order).Pairwise (fun x y => x.1 = y.1 → x.2.1 < y.2.1) := by
  refine List.pairwise_flatMap.mpr ⟨fun p _ => List.pairwise_map.mpr ?_, hnodup.imp fun hpq => ?_⟩
  · refine (enumFrom_pairwise sl 0).1.imp ?_
    intro x y hlt _
    exact hlt
  · intro x hx y hy hxy
    obtain ⟨_, _, rfl⟩ := List.mem_map.mp hx
    obtain ⟨_, _, rfl⟩ := List.mem_map.mp hy
    exact absurd hxy hpq

theorem filterMap_ite_sublist {α β : Type} (p : α → Bool) (f : α → β) (l : List α) :
    (l.filterMap (fun x => if p x then some (f x) else none)).Sublist (l.map f) := by
  have hfilter : l.filterMap (fun x => if p x then some (f x) else none) = (l.filter p).map f := by
    rw [← List.filterMap_eq_map, List.filterMap_filter]
    rfl
  rw [hfilter]
  exact List.filter_sublist.map f

theorem enumFrom_map_snd {α : Type} (l : List α) : ∀ n, (enumFrom n l).map Prod.snd = l := by
  induction l with
  | nil => intro n; rfl
  | cons a l ih => intro n; exact congrArg (a :: ·) (ih (n + 1))

/-- What a line fires are some of the entries of its phases, in their order; an undefined layout leaves open which. -/
theorem lineEntries_sublist (mem : Mem) (m : Mach) (h a line : Nat) (it : Item) :
    (m.lineEntries mem h it a line).1.Sublist (phaseEntries (slotsInUse (it.s (K.HP_SLOT_TABLE h))) (phaseOrder it h line)) := by
  unfold Mach.lineEntries
  simp only
  split
  · exact List.Sublist.flatMap_right _ (fun p _ => filterMap_ite_sublist _ _ _)
  · have hsub := (List.filter_sublist (p := fun x => Config.freeNat (m.fresh + x.1) % 2 == 1)
      (l := enumFrom 0 (phaseEntries (slotsInUse (it.s (K.HP_SLOT_TABLE h))) (phaseOrder it h line)))).map Prod.snd
    rwa [enumFrom_map_snd] at hsub

/-! ### The times of a fire sequence (R106) -/

theorem entryTimes_entries (off load lat : Nat) (l : List (Nat × Nat × Nat)) :
    ∀ s, (entryTimes off load lat s l).map (fun e => (e.phase, e.slot, e.dur)) = l := by
  induction l with
  | nil => intro s; rfl
  | cons e l ih => intro s; exact congrArg (e :: ·) (ih _)

theorem entryTimes_start_le (off load lat : Nat) (l : List (Nat × Nat × Nat)) : ∀ s, ∀ e ∈ entryTimes off load lat s l, s ≤ e.start := by
  induction l with
  | nil => intro s e he; cases he
  | cons x l ih =>
    intro s e he
    rcases List.mem_cons.mp he with rfl | he
    · exact Nat.le_refl s
    · exact (by omega : s ≤ _).trans (ih _ e he)

/-- Each strobe ends before the next entry's begins. -/
theorem entryTimes_apart (off load lat : Nat) (l : List (Nat × Nat × Nat)) :
    ∀ s, (entryTimes off load lat s l).Pairwise (fun x y => x.start + x.dur ≤ y.start) := by
  induction l with
  | nil => intro s; exact List.Pairwise.nil
  | cons x l ih =>
    intro s
    refine List.Pairwise.cons (fun y hy => ?_) (ih _)
    have hnext : s + max (x.2.2 + off) load + lat ≤ y.start := entryTimes_start_le off load lat l _ y hy
    show s + x.2.2 ≤ y.start
    omega

/-! ### The mode of a port (R101) -/

section mode

variable {m : Mach} {h : Nat}

/-- An enable of a port that is off, in LVDS mode or in CMOS mode with lanes enough. -/
theorem wHpMode_enable {v : Nat} (hoff : m.g (K.HP_MODE h) = 0) (hv : v = 2 ∨ v = 1 ∧ m.g (K.HP_LANES h) ≤ 8) :
    wHpMode h v m = (m.portEnable h v, .ok) := by
  have hne : v ≠ 0 := by omega
  have hlanes : ¬ (v = 1 ∧ 8 < m.g (K.HP_LANES h)) := by omega
  unfold wHpMode
  simp only [hoff, ne_eq, not_true_eq_false, false_and, if_false, if_neg hne, if_neg hlanes]

/-- A disable of an enabled port that has no item at work. -/
theorem wHpMode_disable (hon : m.g (K.HP_MODE h) ≠ 0) (hidle : m.portBusy h = false) : wHpMode h 0 m = (m.portDisable h, .ok) := by
  unfold wHpMode
  simp only [if_neg hon.symm, ne_eq, not_true_eq_false, and_false, if_false, if_true, hidle, if_neg Bool.false_ne_true]

end mode

/-! ### The pepper timer (R115, R116) -/

section pepper

variable {m : Mach} {h : Nat}

/-- A trip of the timer of a port that a station uses. -/
theorem pepperTrip_station {c g st : Nat} {m1 : Mach} (hclear : (m.head h).pepper = false)
    (hm1 : m1 = (((((m.strobesOff h).modHead h (fun x => { x with pepper := true })).puts
      [(K.HP_PEPPER_STATE h, c), (K.HP_PEPPER_GROUP h, g)]).count (K.HP_PEPPER_TRIPS h)).raise (0x2500 + 0x80 * h + c) [g]).refreshHead h)
    (hst : m1.stationOf h = some st) : m.pepperTrip h c g = m1.spoilStation st 3 := by
  subst hm1
  unfold Mach.pepperTrip
  rw [if_neg (by simp [hclear])]
  unfold Mach.raiseHp
  simp only [hst]

/-- The release of a latch that has tripped. -/
theorem pepperClear_latched (hlatched : (m.head h).pepper = true) :
    m.pepperClear h = (((m.modHead h (fun x => { x with pepper := false, strobes := [] })).put (K.HP_PEPPER_STATE h) 0).refreshHead h).raise
      (0x250A + 0x80 * h) [] := by
  unfold Mach.pepperClear
  simp only [hlatched, Bool.not_true, if_neg Bool.false_ne_true, raiseHp_code]

end pepper

end Sys2Proof.Machine

open Sys2Proof Sys2Proof.Machine

/-- Settles O10: the slots in use are the first entries of the table, what a line fires keeps the order of its phases' full sequence,
in which a phase stands once, and each strobe moves the next start past its own end. -/
theorem slotTable : Obligations.SlotTable := by
  refine ⟨fun table => ⟨slotsInUse_length_le table, fun k => slotsInUse_get, slotsInUse_end⟩, ?line, ?times⟩
  case line =>
    intro mem m h a line it
    have hsub := lineEntries_sublist mem m h a line it
    constructor
    · intro h0
      rw [slotsInUse_nil h0, phaseEntries_nil] at hsub
      exact List.sublist_nil.mp hsub
    · exact (phaseEntries_pairwise _ (phaseOrder_nodup it h line)).sublist hsub
  case times =>
    intro off load lat s l
    exact ⟨entryTimes_entries off load lat l s, entryTimes_apart off load lat l s⟩

/-- Settles O21: the port's mode and its items at work choose the branch of the write. -/
theorem headModeCompletes : Obligations.HeadModeCompletes := by
  intro s m hp v hq hadm
  constructor
  · intro hoff hv m1 m2 hm1 hm2
    subst hm1 hm2
    exact done_write (eff := fun _ => wHpMode hp) hq hadm (wHpMode_enable hoff hv)
  · intro hon hv hidle
    subst hv
    exact done_write (eff := fun _ => wHpMode hp) hq hadm (wHpMode_disable hon hidle)

/-- Settles O22: a due trigger, a clear latch and a tripped one each choose their command's branch; the duty trip needs its limit below
100 % as well. -/
theorem firingCommandsComplete : Obligations.FiringCommandsComplete := by
  refine ⟨?trigger, ?trip, ?clear, ?dutyMax⟩
  case trigger =>
    intro s m hp r t due bad it hq hdue hport hat hit
    refine done_run hq ?_
    simp only [hdue, hit]
    exact if_neg (by omega)
  case trip =>
    intro s m m1 hp g st c hq hport hclear hmode hm1 hst
    have htrip : m.pepperTrip hp c g = m1.spoilStation st 3 := pepperTrip_station hclear hm1 hst
    constructor
    · intro hc
      subst hc
      exact done_run hq ((if_pos hport).trans htrip)
    · intro hc hlimit
      subst hc
      exact done_run hq ((if_pos ⟨hport, hlimit⟩).trans htrip)
  case clear =>
    intro s m hp hq hadm hlatched
    rw [← pepperClear_latched hlatched]
    exact done_write (eff := fun _ => onOne (fun m => m.pepperClear hp)) hq hadm (onOne_one _ m)
  case dutyMax =>
    intro s m hp ty hq hreads
    exact done_read hq hreads

/-- Settles O23: the step that the sequence has reached, with its time, chooses the branch of each command. -/
theorem headInsertionCompletes : Obligations.HeadInsertionCompletes := by
  refine ⟨?edge, ?power, ?readStart, ?readDone, ?readFailed, ?retry, ?removed⟩
  case edge =>
    intro s m m1 hp hq hport hm1
    subst hm1
    exact done_run hq (if_neg (Nat.not_le.mpr hport))
  case power =>
    intro s m hp hq hfit hdue
    exact done_run hq (if_pos ⟨hfit, hdue⟩)
  case readStart =>
    intro s m hp hq hfit hdue
    exact done_run hq (if_pos ⟨hfit, hdue⟩)
  case readDone =>
    intro s m hp data hq hfit hlen
    refine done_run hq ?_
    simp only [hfit, ne_eq, not_true_eq_false, if_false, if_true, hlen]
  case readFailed =>
    intro s m hp data hq hfit
    refine done_run hq ?_
    simp only [hfit, ne_eq, not_true_eq_false, if_false, Bool.false_eq_true, raiseHp_code]
  case retry =>
    intro s m hp hq hfit hdue
    exact done_run hq (if_pos ⟨hfit, hdue⟩)
  case removed =>
    intro s m hp hq hport hfit
    refine done_run hq ((if_neg (Nat.not_le.mpr hport)).trans ?_)
    rcases hfit with hfit | hfit | hfit | hfit | hfit | hfit <;> simp only [hfit]

end


section
/-! Dots and calibration: the resistance scan, the dot data and the hiding limits, and the calibration sets: O25 and O26. -/

namespace Sys2Proof.Machine

open Sys2Proof

/-! ### The resistance scan, the dot map and the hiding limits (R127, R132, R136) -/

/-- A scan step that may start pulses the next dot of the pass, and its strobe is noted while the strobes are not forced off (R127). -/
theorem scanStart_pulses {m : Mach} {h d g on st : Nat} (hmay : m.scanMayStart h = true)
    (hd : nextDot (m.headDots h) (m.head h).scan.dot (m.head h).scan.valid = some d) (htimes : m.scanTimes h = (on, st))
    (hg : g = groupOf ((List.range (m.g (K.HP_SG_GROUPS h))).map (fun i => m.g (K.HP_SG_START h i))) d)
    (hfree : m.strobesForced h = false) :
    m.scanStart h = (m.modHead h (fun x => { x with scan := { x.scan with
      dot := d, pulsing := true, strobe := (g, m.now10 + on, m.now10 + on + m.g (K.HP_SCAN_PULSE h)), iOff := none, iOn := none
      vOn := none, cut := false, lastStart := some m.time, stepEnd := m.now10 + st
      lineTag := some (m.g (K.HP_ITEM h), x.nextLine) } })).noteStrobes h m.now10 [(g, m.now10 + on, m.g (K.HP_SCAN_PULSE h))] := by
  subst hg
  unfold Mach.scanStart
  rw [if_neg (by simp [hmay])]
  simp only [hd, htimes, hfree, if_neg Bool.false_ne_true]
  rfl

/-- A dot map whose dots all have a class below 6 is stored, and all that depends on it follows (R132, R136, R92). Which dots are
judged while the port is off is the model's choice (log entry 102). -/
theorem wDotMap_classes {m : Mach} {h v : Nat}
    (hclass : ∀ d, d < (if m.g (K.HP_MODE h) = 0 then m.g (K.HP_DOTS h) else m.headDots h) → dotClass v d < 6) :
    wDotMap h v m = (((((m.put (K.HP_DOT_MAP h) v).showDrift h).refreshPair h).mapTaken h).dotDataWritten h, .ok) := by
  unfold wDotMap
  refine if_neg fun hany => ?_
  obtain ⟨d, hd, hbad⟩ := List.any_eq_true.mp hany
  exact absurd (of_decide_eq_true hbad) (Nat.not_le.mpr (hclass d (List.mem_range.mp hd)))

/-! ### Calibration measurements and sets (R138, R140, R142) -/

section calibration

variable {m : Mach} {v : Nat}

/-- An item that is not defined yet, or whose station has an optical gate, arms the measurement (R138). -/
theorem wCalItem_arms {m1 : Mach} (hm1 : m1 = ((m.put K.TH_CAL_ITEM v).put K.TH_CAL_STATE 1).put K.TH_CAL_FAIL 0)
    (hitem : m1.item? v = none ∨ ∃ it, m1.item? v = some it ∧ m1.calGate it = true) : wCalItem v m = (m1, .ok) := by
  have hputs : m.puts [(K.TH_CAL_ITEM, v), (K.TH_CAL_STATE, 1), (K.TH_CAL_FAIL, 0)] = m1 := hm1.symm
  unfold wCalItem
  simp only [hputs]
  rcases hitem with hnone | ⟨it, hsome, hgate⟩
  · simp only [hnone]
  · simp only [hsome, if_pos hgate]

/-- A DONE measurement of a tandem pair corrects the station's tandem offset by the error found (R140). -/
theorem wCalApply_tandem {off : Nat} (hdone : m.g K.TH_CAL_STATE = 3) (htype : m.calResult.1 = 2)
    (hoff : (off : Int) = clampI 0 1048575 ((m.g (K.TH_TANDEM_OFFSET m.calResult.2.2) : Int) - m.gi 32 K.TH_CAL_TANDEM_ERR)) :
    wCalApply v m = ((m.put (K.TH_TANDEM_OFFSET m.calResult.2.2) off).restartStation m.calResult.2.2, .ok) := by
  unfold wCalApply
  rw [if_neg (not_not.mpr hdone)]
  simp only [htype, ← hoff, Int.toNat_natCast]

end calibration

end Sys2Proof.Machine

open Sys2Proof Sys2Proof.Machine

/-- Settles O25: the scan's conditions choose the branch of its two commands, and each write passes its card, the dot map its classes
too. -/
theorem dotCommandsComplete : Obligations.DotCommandsComplete := by
  refine ⟨?scanStart, ?scanEnd, ?reference, ?map, ?limits⟩
  case scanStart =>
    intro s m hp d g on st hq hport hmay hd htimes hg hfree
    exact done_run hq ((if_pos hport).trans (scanStart_pulses hmay hd htimes hg hfree))
  case scanEnd =>
    intro s m hp hq hport _ hdue
    exact done_run hq (if_pos ⟨hport, hdue⟩)
  case reference =>
    intro s m hp hq hadm
    exact done_write (eff := fun _ => onOne (fun m => m.dotRefTake hp)) hq hadm (onOne_one _ m)
  case map =>
    intro s m hp v data hq hadm hclass
    exact done_write (eff := fun _ => wDotMap hp) hq hadm (wDotMap_classes hclass)
  case limits =>
    intro s m hp which v bs hq hbs hadm
    subst hbs
    exact done_write (eff := fun _ => wHidingLimit hp which) hq hadm rfl

/-- Settles O26: the item, the result and the oldest STORE each choose their command's branch, and TH_CAL_CTRL's value its own. -/
theorem calibrationCompletes : Obligations.CalibrationCompletes := by
  refine ⟨?item, ?apply, ?load, ?set, ?store, ?setThenStore, ?stored⟩
  case item =>
    intro s m m1 v hq hadm hm1 hitem
    exact done_write (eff := fun _ => wCalItem) hq hadm (wCalItem_arms hm1 hitem)
  case apply =>
    intro s m v off hq hadm hdone htype hoff
    exact done_write (eff := fun _ => wCalApply) hq hadm (wCalApply_tandem hdone htype hoff)
  case load =>
    intro s m hq hadm
    exact done_write (eff := fun _ => wCalCtrl) hq hadm rfl
  case set =>
    intro s m hq hadm
    exact done_write (eff := fun _ => wCalCtrl) hq hadm rfl
  case store =>
    intro s m hq hadm
    exact done_write (eff := fun _ => wCalCtrl) hq hadm rfl
  case setThenStore =>
    intro s m hq hadm
    exact done_write (eff := fun _ => wCalCtrl) hq hadm rfl
  case stored =>
    intro s m n x y seq rest hq hstoring hseq hy
    subst hseq hy
    constructor
    · refine done_run hq ?_
      simp only [hstoring, if_true]
    · refine done_run hq ?_
      simp only [hstoring, if_neg Bool.false_ne_true]

end


section
/-! Media path: the media sense and its learning feed, ribbon windows, the cutter and the presenter: O27 and O28. -/

namespace Sys2Proof.Machine

open Sys2Proof

/-! ### What a change of a station's record keeps -/

/-- A field of a station that a change of its record leaves as it was, whichever stations the machine has. -/
theorem sta_modSta_field {α : Type} {m : Mach} {st : Nat} {f : StationRt → StationRt} (p : StationRt → α) (hf : ∀ x, p (f x) = p x) :
    p ((m.modSta st f).sta st) = p (m.sta st) := by
  unfold Mach.sta Mach.modSta
  cases h : m.stations[st]? with
  | none => simp [h]
  | some x => simp [h, hf]

/-! ### The media sense (R153, R154) -/

section media

variable {m : Mach} {st : Nat}

/-- A seek past its limit halts the feed, takes the medium as ended at the present position, which is the model's choice (log entry 115),
and holds the station for the item that sought (R153). -/
theorem seekLimit_over {m1 : Mach} {r : AlignRun} (hover : m.seekOver st = true)
    (hseek : (m.sta st).aligns.find? (fun r => r.seek.isSome) = some r)
    (hm1 : m1 = (m.stationHalt st).modSta st (fun x => { x with aligns := x.aligns.filter (fun r => r.seek.isNone) })) :
    m.seekLimit st = (m1.mediaOut st (m1.linePos st)).setHold st r.item := by
  subst hm1
  unfold Mach.seekLimit
  simp only [hover, hseek, Bool.not_true, if_neg Bool.false_ne_true]

/-- TH_LEARN of a configured station at rest, whose feed axis is enabled, begins the learning feed (R154; log entries 110 and 113). -/
theorem wLearn_begins {a : Nat} (haxis : m.feedAxis st = some a)
    (hidle : m.itemsOf st (fun it => it.state == .admitted || it.state == .printing) = []) (hcut : (m.sta st).cut = .none)
    (hconf : m.configured st = true) (hen : m.axEnabled a = true) :
    wLearn st 1 m = ((((m.modSta st (fun x => { x with learn := some (m.linePos st, 0) })).modChan st 0 (fun c => { c with
        lo := 4095, hi := 0, learned := false, medium := [] })).put (K.TH_LEARN_STATE st) 1).axQueue a (mkProfile .learn
          (joinPieces [rampPiece (m.accelOf st none) (m.jerkOf st none) 0 0 0 (m.feedSpeed st (m.g (K.TH_LEARN_SPEED st)))]
            [flatPiece 0 0 (m.linesToPos st seekTravel) (m.feedSpeed st (m.g (K.TH_LEARN_SPEED st)))])), .ok) := by
  unfold wLearn
  simp only [ne_eq, not_true_eq_false, if_false, haxis]
  exact if_neg (by simp [hidle, hcut, hconf, hen])

end media

/-! ### The cutter (R162, R164) -/

section cutter

variable {m : Mach} {st id : Nat}

/-- The stroke out, once the feed rests under the cut point: to the position of a part cut for END_ACTION 1, of a full cut for every
other, which for 4 to 255 is the model's choice (log entry 37). A full cut finds no presenter in its way (R162). -/
theorem cutStroke_out {it : Item} (hready : (m.sta st).cut = .ready id) (hit : m.item? id = some it) (hprinting : it.state = .printing)
    (hrest : m.feedAtRest st = true) (hfree : it.endAction = 1 ∨ m.presenter st = none) :
    m.cutStroke st = (m.modSta st (fun x => { x with
      cut := .out id, cutHome := m.axPos (m.h (K.TH_CUT_AXIS st)), cutDeadline := m.time + 1000 * x.cutTimeout })).axGo
        (m.h (K.TH_CUT_AXIS st)) (if it.endAction = 1 then (m.sta st).cutPart else (m.sta st).cutFull : Int) := by
  have hgoes : ¬ ((!(m.feedAtRest st) || (it.endAction != 1 && (m.presenter st).isSome && m.g (K.TH_PRES_STATE st) != 0)) = true) := by
    rcases hfree with h | h <;> simp [hrest, h]
  unfold Mach.cutStroke
  simp only [hready, hit, hprinting, bne_self_eq_false, if_neg Bool.false_ne_true, if_neg hgoes]
  rw [sta_modSta_field StationRt.cutPart, sta_modSta_field StationRt.cutFull, Int.cast_ite] <;> exact fun _ => rfl

/-- A fault while the stroke is on its way out ends the cut and spoils its item (R164). -/
theorem cutFault_out {cause : Nat} (hout : (m.sta st).cut = .out id) :
    m.cutFault st cause = ((m.modSta st (fun x => { x with cut := .none })).raise (0x271C + 0x20 * st) [cause]).spoil id 9 := by
  unfold Mach.cutFault
  simp only [hout, raiseTh_code]

end cutter

/-! ### The presenter (R163) -/

section presenter

variable {m : Mach} {st a : Nat}

/-- The end of the move that presents an item of END_ACTION 3. -/
theorem presenterDone_presented {it : Item} (haxis : m.presenter st = some a) (hidle : m.axState a = axIdle)
    (hstate : m.g (K.TH_PRES_STATE st) = 1) (hit : m.item? (m.sta st).presItem = some it) (hend : it.endAction = 3) :
    m.presenterDone st = (((((m.put (K.TH_PRES_STATE st) 2).put (K.TH_PRES_ITEM st) (m.sta st).presItem).modSta st (fun x => { x with
      presSince := m.time })).endDone (m.sta st).presItem).raise (0x271D + 0x20 * st) []) := by
  unfold Mach.presenterDone
  simp only [haxis, hidle, ne_eq, not_true_eq_false, if_false, hstate, if_true, hit, hend, beq_self_eq_true, raiseTh_code]
  rfl

/-- The end of the move that takes an item back into the reject path. -/
theorem presenterDone_retracted (haxis : m.presenter st = some a) (hidle : m.axState a = axIdle)
    (hstate : m.g (K.TH_PRES_STATE st) = 3) :
    m.presenterDone st = ((((m.put (K.TH_PRES_STATE st) 0).put (K.TH_PRES_ITEM st) 0).raise (0x271F + 0x20 * st)
      [(m.sta st).presItem]).count (K.TH_PRES_RETRACTS st)) := by
  have hmoves : ¬ ((3 : Nat) = 1) := by decide
  unfold Mach.presenterDone
  simp only [haxis, hidle, ne_eq, not_true_eq_false, if_false, hstate, if_neg hmoves, if_true, raiseTh_code]
  rfl

end presenter

end Sys2Proof.Machine

open Sys2Proof Sys2Proof.Machine

/-- Settles O27: each command finds its condition met, and the writes pass their cards and choose the accepting branch of their
effects. -/
theorem mediaCommandsComplete : Obligations.MediaCommandsComplete := by
  refine ⟨?atRest, ?seek, ?learn, ?unfreeze, ?window⟩
  case atRest =>
    intro s m st t hq hback hout hrest hconf hdue
    refine done_run hq ?_
    simp only [hback]
    exact if_pos (by simp [hout, hrest, hconf, hdue])
  case seek =>
    intro s m m1 st r hq hconf hover hseek hm1
    exact done_run hq ((if_pos hconf).trans (seekLimit_over hover hseek hm1))
  case learn =>
    intro s m st a v hq hadm haxis hidle hcut hconf hen hv
    subst hv
    exact done_write (eff := fun _ => wLearn st) hq hadm (wLearn_begins haxis hidle hcut hconf hen)
  case unfreeze =>
    intro s m st ch hq hadm
    exact done_write (eff := fun _ => onOne (fun m => m.senseResume st ch)) hq hadm (onOne_one _ m)
  case window =>
    intro s m st p a b hq hribbon hthere hheld _ _
    exact done_run hq (if_pos (by simp [hribbon, hthere, hheld]))

/-- Settles O28: the phase of the cut and the state of the presenter, with the item's END_ACTION, choose the branch of each command. -/
theorem cutterAndPresenterComplete : Obligations.CutterAndPresenterComplete := by
  refine ⟨?stroke, ?late, ?moved, ?notTaken⟩
  case stroke =>
    intro s m st id it hq hconf hready hit hprinting hrest hfree
    exact done_run hq ((if_pos hconf).trans (cutStroke_out hready hit hprinting hrest hfree))
  case late =>
    intro s m st id hq hout hdue
    refine done_run hq ?_
    simp only [hout, if_pos (decide_eq_true hdue)]
    exact cutFault_out hout
  case moved =>
    intro s m st a it hq hconf haxis hidle
    constructor
    · intro hstate hit hend
      exact done_run hq ((if_pos hconf).trans (presenterDone_presented haxis hidle hstate hit hend))
    · intro hstate
      exact done_run hq ((if_pos hconf).trans (presenterDone_retracted haxis hidle hstate))
  case notTaken =>
    intro s m st a hq haxis hstate hlimited hdue
    refine done_run hq ?_
    simp only [haxis]
    exact if_pos ⟨hstate, hlimited, hdue⟩

end


section
/-! Laser imaging: the scanner, its start-of-scan and end-of-scan edges, the interlock and the power latch: O29 and O30. -/

namespace Sys2Proof.Machine

open Sys2Proof

/-! ### Starting and stopping the scanner (R172, R173, R266) -/

section scanner

variable {m : Mach}

/-- LS_SCAN_MODE 1 or 2 starts a stopped scanner; that mode 1 does so
while an SL item is in flight is a deduction of the model (log entry 127). -/
theorem wScanMode_starts {v : Nat} (hv : v ≠ 0) (hstopped : m.scanState = scStopped)
    (hwork : v = 2 ∨ m.itemsOf 4 (fun it => !it.final) ≠ []) (hmay : m.scanRefused = false) :
    wScanMode v m = ((m.put K.LS_SCAN_MODE v).scanBegin, .ok) := by
  have hstarts : (m.scanState == scStopped && (v == 2 || m.itemsOf 4 (fun it => !it.final) != [])) = true := by
    rcases hwork with h | h <;> simp [hstopped, h]
  unfold wScanMode
  simp only [if_neg hv, hstarts, hmay, Bool.and_false, if_neg Bool.false_ne_true, if_true]

/-- LS_SCAN_MODE 0 stops the scanner while no SL item is at work. -/
theorem wScanMode_stops (hidle : m.slBusy = false) : wScanMode 0 m = ((m.put K.LS_SCAN_MODE 0).scanStop, .ok) := by
  unfold wScanMode
  simp only [if_true, hidle, if_neg Bool.false_ne_true]

/-- A stopping scanner at rest is below every speed of release (R266). -/
theorem scanReleased_atRest (hstopping : m.scanState = scStopping) (hrest : m.axVel m.scanAxis = 0) :
    m.scanReleased = (m.axDisableCore m.scanAxis).setScan scStopped := by
  unfold Mach.scanReleased
  exact if_pos (by simp [hstopping, hrest])

/-- A lock that is not reached in time stops the axis and faults the scanner (R173). -/
theorem lockTimeout_faults (hstate : m.scanState = scSpinup ∨ m.scanState = scLocking) (hjudged : m.lockSuspended = false)
    (hdue : m.sl.scan.startAt + 1000000 * m.h K.LS_LOCK_TIMEOUT ≤ m.time) :
    m.lockTimeout = ((m.axRun m.scanAxis 0).setScan scFault).raise 0x2804 [1] := by
  unfold Mach.lockTimeout
  exact if_pos ⟨hstate, hjudged, hdue⟩

end scanner

/-! ### Start-of-scan edges and the index pulse (R173-R176, R186, R190) -/

section sos

variable {mem : Mem} {m : Mach} {t : Nat} {bad : Bool}

/-- The first edge of a search starts the prediction (R173). -/
theorem sosEdge_first (hlit : m.diodesOff = false) (hstate : m.scanState = scLocking ∨ m.scanState = scLocked)
    (hsearch : m.sl.scan.pausedAt = none) (hfirst : m.sl.scan.acquired = false) :
    m.sosEdge mem t bad = ((m.skipSweeps t).modScan (fun x => { x with
      acquired := true, found := true, last := t, predicted := false, measured := none, facet := m.facets - 1, good := 0
      missRun := 0, edges := 0, missed := false, revStart := none })).sweepBegins mem t bad := by
  unfold Mach.sosEdge Mach.scanRt
  rw [if_neg (by simp [hlit, hstate, hsearch]), if_pos (by simp [hfirst])]

/-- A later edge in its window is the SOS of a sweep (R175). Its interval is measured unless the edge before was a predicted one, which
is a deduction of the model (log entry 123). -/
theorem sosEdge_inWindow (hlit : m.diodesOff = false) (hstate : m.scanState = scLocking ∨ m.scanState = scLocked)
    (hsearch : m.sl.scan.pausedAt = none) (hacquired : m.sl.scan.acquired = true) (hfits : m.layoutBad = false)
    (hlater : m.sl.scan.last < t) (hopen : m.nextSos ≤ t + 320 * m.h K.LS_SOS_LEAD) (hclose : t ≤ m.nextSos + 320 * m.h K.LS_SOS_LATE) :
    m.sosEdge mem t bad = (m.modScan (fun y => { y with
      intervals := if m.sl.scan.predicted then y.intervals else y.intervals.set m.sl.scan.facet (some (t - m.sl.scan.last))
      measured := if m.sl.scan.predicted then y.measured else some (t - m.sl.scan.last)
      found := true, last := t, predicted := false, missRun := 0 })).showIntervals.sweepBegins mem t bad := by
  have hin : ¬ (t ≤ m.sl.scan.last ∨ t + 320 * m.h K.LS_SOS_LEAD < m.nextSos ∨ m.nextSos + 320 * m.h K.LS_SOS_LATE < t) := by omega
  unfold Mach.sosEdge Mach.scanRt
  rw [if_neg (by simp [hlit, hstate, hsearch]), if_neg (by simp [hacquired])]
  simp only [hfits, if_neg Bool.false_ne_true, true_and]
  exact if_neg hin

/-- A window that closes without an edge counts as missed, and its sweep is timed from the predicted edge, after a loss of lock where
the run of misses is too long (R174, R175). -/
theorem sosMiss_missed {m1 : Mach} (hacquired : m.sl.scan.acquired = true) (hjudged : m.lockSuspended = false)
    (hstate : m.scanState = scLocking ∨ m.scanState = scLocked)
    (hclosed : m.nextSos + 320 * m.h K.LS_SOS_LATE ≤ stampMicro * m.time) (hvmon : m.vmonLow = false)
    (hm1 : m1 = (((m.count K.LS_SOS_MISSED).raiseIf (m.sl.scan.missRun == 0) 0x2803 []).modScan (fun x => { x with
      missRun := x.missRun + 1, missed := true })).modScan (fun x => { x with last := m.nextSos, predicted := true })) :
    m.sosMiss mem bad = (if m1.scanState = scLocked ∧ m1.h K.LS_SOS_FLY < m1.sl.scan.missRun then m1.loseLock 2 .next
      else m1).sweepBegins mem m.nextSos bad := by
  subst hm1
  unfold Mach.sosMiss Mach.scanRt
  rw [if_neg (by simp [hacquired, hjudged, hstate, hclosed]), if_neg (by simp [hvmon])]

/-- An index pulse that does not contradict the facets counted marks the next SOS as the first facet's (R174, R176). -/
theorem indexPulse_marks (hsync : m.h K.LS_FACET_SYNC = 1) (hstate : m.scanState = scLocking ∨ m.scanState = scLocked)
    (hacquired : m.sl.scan.acquired = true)
    (hright : m.scanState = scLocking ∨ m.sl.scan.revStart = none ∨ m.sl.scan.sinceIndex = m.facets) :
    m.indexPulse = m.modScan (fun x => { x with indexed := true }) := by
  have hkept : (m.modScan (fun x => { x with indexed := true })).scanState = m.scanState := rfl
  have hlocking : scLocking ≠ scLocked := by decide
  unfold Mach.indexPulse Mach.scanRt
  rw [if_neg (by simp [hsync, hstate, hacquired])]
  refine if_neg ?_
  rw [hkept]
  rcases hright with h | h | h <;> simp [h, hlocking]

end sos

/-! ### End-of-scan edges (R177) -/

section eos

variable {m : Mach}

/-- An edge in its window is measured, and a length within its tolerance leaves it at that. -/
theorem eosEdge_within {t v : Nat} {m1 : Mach} (hon : m.eosOn = true)
    (hopen : m.eosDue ≤ (t : Rat) + ((320 * m.h K.LS_SOS_LEAD : Nat) : Rat))
    (hclose : (t : Rat) ≤ m.eosDue + ((320 * m.h K.LS_SOS_LATE : Nat) : Rat))
    (hv : v = (roundRat (((t - m.sl.scan.last : Nat) : Rat) * 16 / m.pixelPeriod)).toNat)
    (hm1 : m1 = m.modScan (fun x => { x with eosSeen := true }))
    (hlong : v ≤ m1.h K.LS_SOS_EOS_NOM + m1.h K.LS_EOS_TOL) (hshort : m1.h K.LS_SOS_EOS_NOM ≤ v + m1.h K.LS_EOS_TOL) :
    m.eosEdge t = m1.put K.LS_EOS_MEASURED (setFld (m1.g K.LS_EOS_MEASURED) (4 * m.sl.scan.facet) 4 v) := by
  have hin : ¬ (m.eosOn = false ∨ (t : Rat) + ((320 * m.h K.LS_SOS_LEAD : Nat) : Rat) < m.eosDue
      ∨ m.eosDue + ((320 * m.h K.LS_SOS_LATE : Nat) : Rat) < (t : Rat)) := by
    simp only [hon, Bool.true_eq_false, false_or, not_or, not_lt]
    exact ⟨hopen, hclose⟩
  have hoff : ¬ m1.h K.LS_EOS_TOL < if v < m1.h K.LS_SOS_EOS_NOM then m1.h K.LS_SOS_EOS_NOM - v else v - m1.h K.LS_SOS_EOS_NOM := by
    split <;> omega
  subst hm1 hv
  unfold Mach.eosEdge Mach.scanRt
  rw [if_neg hin]
  exact if_neg hoff

/-- A window that ends without an edge (R177). -/
theorem eosMiss_missed (hon : m.eosOn = true)
    (hclosed : m.eosDue + ((320 * m.h K.LS_SOS_LATE : Nat) : Rat) ≤ ((stampMicro * m.time : Nat) : Rat)) :
    m.eosMiss = (m.modScan (fun x => { x with eosSeen := true })).eosBad := by
  unfold Mach.eosMiss
  refine if_neg ?_
  simp only [hon, Bool.true_eq_false, false_or, not_lt]
  exact hclosed

end eos

/-! ### The interlock and the power latch (R187, R189, R382) -/

section interlock

variable {m : Mach}

/-- An interlock input that opens is counted, and where it is enabled it takes the high voltage and spoils the pages. -/
theorem intlkOpens_closed {m1 : Mach} (hclosed : m.sl.scan.intlkOpen = false)
    (hm1 : m1 = (m.modScan (fun x => { x with intlkOpen := true })).count K.LS_INTLK_OPENINGS) :
    m.intlkOpens = if m1.gb K.LS_INTLK_ENABLE then ((((m1.put K.LS_INTLK_STATE 1).hvOff).raise 0x2806 []).spoilPages 7 .now).refreshSL
      else m1 := by
  unfold Mach.intlkOpens Mach.scanRt
  rw [if_neg (by simp [hclosed])]
  simp only [← hm1]
  cases henabled : m1.gb K.LS_INTLK_ENABLE with
  | false => rfl
  | true => rfl

/-- An open interlock whose input closes waits to be enabled again. -/
theorem intlkCloses_open (hopen : m.g K.LS_INTLK_STATE = 1) :
    m.intlkCloses = ((m.modScan (fun x => { x with intlkOpen := false })).put K.LS_INTLK_STATE 2).refreshSL := by
  unfold Mach.intlkCloses
  exact if_pos hopen

/-- LS_INTLK_REENABLE 1 of an interlock that waits for it. -/
theorem wIntlkReenable_waiting (hwaits : m.g K.LS_INTLK_STATE = 2) :
    wIntlkReenable 1 m = (((m.put K.LS_INTLK_STATE 0).raise 0x2807 []).intlkResume, .ok) := by
  unfold wIntlkReenable
  rw [if_neg (by decide), if_neg (not_not.mpr hwaits)]

/-- LS_INTLK_ENABLE while the scanner is stopped, unless the protected configuration forbids the disable (R382). -/
theorem wIntlkEnable_stopped {v : Nat} (hmay : v = 0 → m.intlkForce = false) (hstopped : m.scanState = scStopped) :
    wIntlkEnable v m = (((m.put K.LS_INTLK_ENABLE v).put K.LS_INTLK_STATE
      (if v = 0 then 3 else if m.sl.scan.intlkOpen then 1 else 2)).refreshSL, .ok) := by
  have hfree : ¬ (v = 0 ∧ m.intlkForce = true) := fun ⟨hv, hforce⟩ => by simp [hmay hv] at hforce
  unfold wIntlkEnable
  rw [if_neg hfree, if_neg (not_not.mpr hstopped)]
  rfl

/-- The clearing of a latch that holds a beam (R189). -/
theorem wPwrClear_latched (hlatched : m.g K.LS_PWR_LATCH ≠ 0xFF) :
    wPwrClear m = (((((m.put K.LS_PWR_LATCH 0xFF).modScan (fun x => { x with
      pmonBad := List.replicate 4 0 })).raise 0x2809 []).relock true).refreshSL) := by
  unfold wPwrClear
  exact if_neg hlatched

end interlock

end Sys2Proof.Machine

open Sys2Proof Sys2Proof.Machine

/-- Settles O29: the scanner's state, the search, and the place of an edge or of the time in its window each choose their command's
branch. Deductions of the model are the start again after a stop and the start in mode 1 (log entry 127), and that no interval is
measured from a predicted edge (log entry 123). -/
theorem scannerCommandsComplete : Obligations.ScannerCommandsComplete := by
  refine ⟨?start, ?stop, ?idle, ?lockSpeed, ?searchTimeout, ?searchResume, ?lockTimeout, ?stopped, ?firstSos, ?sos, ?missedSos, ?index,
    ?eos, ?missedEos⟩
  case start =>
    intro s m v hq hadm hv hstopped hwork hmay
    exact done_write (eff := fun _ => wScanMode) hq hadm (wScanMode_starts hv hstopped hwork hmay)
  case stop =>
    intro s m hq hadm hidle
    exact done_write (eff := fun _ => wScanMode) hq hadm (wScanMode_stops hidle)
  case idle =>
    intro s m t hq hidle hauto hstate hdue
    refine done_run hq ?_
    simp only [Mach.scanRt, hidle]
    exact if_pos ⟨hauto, by simpa using hstate, hdue⟩
  case lockSpeed =>
    intro s m hq hspinup
    exact done_run hq (if_pos hspinup)
  case searchTimeout =>
    intro s m hq hlocking hfound hpaused hdue
    exact done_run hq (if_pos ⟨hlocking, by simp [Mach.scanRt, hfound], by simp [Mach.scanRt, hpaused], hdue⟩)
  case searchResume =>
    intro s m t hq hlocking hpaused hdue
    refine done_run hq ?_
    simp only [Mach.scanRt, hpaused]
    exact if_pos ⟨hlocking, hdue⟩
  case lockTimeout =>
    intro s m hq hstate hjudged hdue
    exact done_run hq (lockTimeout_faults hstate hjudged hdue)
  case stopped =>
    intro s m n hq hstopping hrest hn
    refine done_run hq ?_
    simp only [scanReleased_atRest hstopping hrest, ← hn, hstopping, true_and]
  case firstSos =>
    intro s m phase t bad hq hsl hlit hstate hsearch hfirst ht
    subst ht
    exact done_run hq ((if_pos hsl).trans (sosEdge_first hlit hstate hsearch hfirst))
  case sos =>
    intro s m phase t bad hq hsl hlit hstate hsearch hacquired hfits ht hlater hopen hclose
    subst ht
    exact done_run hq ((if_pos hsl).trans (sosEdge_inWindow hlit hstate hsearch hacquired hfits hlater hopen hclose))
  case missedSos =>
    intro s m m1 bad hq hsl hacquired hjudged hstate hclosed hvmon hm1
    exact done_run hq ((if_pos hsl).trans (sosMiss_missed hacquired hjudged hstate hclosed hvmon hm1))
  case index =>
    intro s m hq hsync hstate hacquired hright
    exact done_run hq (indexPulse_marks hsync hstate hacquired hright)
  case eos =>
    intro s m m1 phase t v hq hon ht hopen hclose hv hm1 hlong hshort
    subst ht
    exact done_run hq (eosEdge_within hon hopen hclose hv hm1 hlong hshort)
  case missedEos =>
    intro s m hq hon hclosed
    exact done_run hq (eosMiss_missed hon hclosed)

/-- Settles O30: the interlock's input and state, the scanner's state, and the latch each choose their command's branch. -/
theorem interlockCommandsComplete : Obligations.InterlockCommandsComplete := by
  refine ⟨?opens, ?closes, ?reenable, ?enable, ?powerClear⟩
  case opens =>
    intro s m m1 hq hsl hclosed hm1
    exact done_run hq ((if_pos hsl).trans (intlkOpens_closed hclosed hm1))
  case closes =>
    intro s m hq hsl hopen
    exact done_run hq ((if_pos hsl).trans (intlkCloses_open hopen))
  case reenable =>
    intro s m hq hadm hwaits
    exact done_write (eff := fun _ => wIntlkReenable) hq hadm (wIntlkReenable_waiting hwaits)
  case enable =>
    intro s m v hq hadm hmay hstopped
    exact done_write (eff := fun _ => wIntlkEnable) hq hadm (wIntlkEnable_stopped hmay hstopped)
  case powerClear =>
    intro s m hq hadm hlatched
    rw [← wPwrClear_latched hlatched]
    exact done_write (eff := fun _ => onOne wPwrClear) hq hadm (onOne_one _ m)

end


section
/-! Laser process control: the process, high voltage and the fuser, and the sheet path: O31, O32 and O33. -/

namespace Sys2Proof.Machine

open Sys2Proof

/-! ### The process: start, warm-up and stop (R200-R203) -/

section process

variable {m : Mach}

/-- Run mode starts the process of a laser station that is off. -/
theorem wProcMode_run (hoff : m.procState = prOff) : wProcMode 3 m = ((m.put K.LS_PROC_MODE 3).procStart, .ok) := by
  unfold wProcMode
  simp [hoff]

/-- Mode 0 or 2 stops a process that is at work while no SL item is. That it does so while WARMING too is a deduction of the model
(log entry 130). -/
theorem wProcMode_stops {v : Nat} (hv : v = 0 ∨ v = 2) (hidle : m.slBusy = false)
    (hruns : m.procState = prWarming ∨ m.procState = prReady) :
    wProcMode v m = ((m.put K.LS_PROC_MODE v).procStop, .ok) := by
  unfold wProcMode
  simp only [hidle, Bool.false_eq_true, and_false, if_false, if_pos hv, if_pos hruns]

/-- Step 2 of the warm-up: thermistor 0 has reached LS_FUS_ROTATE. -/
theorem procAdvance_rotates (hwarming : m.procState = prWarming) (hstep : m.sl.warm = 1)
    (hwarm : (sext 16 (m.g K.LS_FUS_ROTATE) : Rat) ≤ m.fuserTemp 0) :
    m.procAdvance = (m.modSl (fun x => { x with warm := 2 })).axRun (m.h K.LS_FUSER_AXIS)
      (pathSpeed (m.h K.LS_FUSER_AXIS) (m.g K.LS_FUS_WARM_SPEED)) := by
  unfold Mach.procAdvance
  rw [if_neg (not_not.mpr hwarming)]
  simp only [hstep]
  exact if_pos hwarm

/-- Step 5 of the warm-up: the charge channel is REGULATED. -/
theorem procAdvance_charged (hwarming : m.procState = prWarming) (hstep : m.sl.warm = 4) (hcharge : m.g (K.HV_STATE 0) = 2) :
    m.procAdvance = m.modSl (fun x => { x with warm := 5 }) := by
  unfold Mach.procAdvance
  rw [if_neg (not_not.mpr hwarming)]
  simp only [hstep]
  exact if_pos (.inl hcharge)

/-- A process that is not WARMING has no step to advance to. -/
theorem procAdvance_idle (hnot : m.procState ≠ prWarming) : m.procAdvance = m := by
  unfold Mach.procAdvance
  exact if_pos hnot

/-- Once charge and discharge are to ramp down, the axes decelerate as soon as every channel is at 0: the model's reading of R203
(log entry 136). -/
theorem procRamped_rampingDown (hstopping : m.procState = prStopping) :
    (m.modSl (fun x => { x with stop := 2 })).procRamped =
      if m.sl.hv.all (fun x => !x.active) then ((m.modSl (fun x => { x with stop := 2 })).modSl (fun x => { x with stop := 3 })).procHalt
      else m.modSl (fun x => { x with stop := 2 }) := by
  unfold Mach.procRamped
  exact if_congr ⟨fun ⟨_, _, hzero⟩ => hzero, fun hzero => ⟨hstopping, rfl, hzero⟩⟩ rfl rfl

end process

/-! ### High voltage and the fuser (R207-R210) -/

section fuser

variable {m m1 : Mach} {t10 t : Nat}

/-- The first zero crossing only notes its moment, after the temperatures. -/
theorem zeroCross_first (hm1 : m1 = upto 3 m (fun m n => m.put (K.LS_FUS_TEMP n) (ofInt 16 (roundRat (m.fuserTemp n)))))
    (hfirst : m1.sl.zc = none) : m.zeroCross t10 = m1.modSl (fun x => { x with zc := some t10 }) := by
  unfold Mach.zeroCross
  simp only [← hm1, hfirst]

/-- A later zero crossing measures its half-cycle, and where the heaters are controlled one outside the limits of R210 is a mains
fault. -/
theorem zeroCross_heating {m2 : Mach}
    (hm1 : m1 = upto 3 m (fun m n => m.put (K.LS_FUS_TEMP n) (ofInt 16 (roundRat (m.fuserTemp n)))))
    (hlast : m1.sl.zc = some t)
    (hm2 : m2 = (m1.modSl (fun x => { x with zc := some t10 })).put K.LS_MAINS_HALF (min 65535 (roundDiv (t10 - t) 100)))
    (hheats : m2.heating = true) :
    m.zeroCross t10 = if t10 - t < 769000 ∨ 1111000 < t10 - t then m2.fuserFault 5 0x2816 []
      else m2.heatStep t10 (((t10 - t : Nat) : Rat) / 100000000) := by
  unfold Mach.zeroCross
  simp only [← hm1, hlast, ← hm2, hheats, Bool.not_true, Bool.false_eq_true, if_false]

/-- The trip is cleared once the latest code of every thermistor lies on the cool side of its reset level (R209). -/
theorem tripClear_cool (hcool : ∀ n, n < 3 → m.sl.fusCodes.getD n 0 ≠ 0 ∧ m.sl.fusCodes.getD n 0 ≠ 4095 ∧
      if m.h K.LS_FUS_THM_POL = 1 then m.g (K.LS_FUS_RESET n) < m.sl.fusCodes.getD n 0
      else m.sl.fusCodes.getD n 0 < m.g (K.LS_FUS_RESET n)) :
    m.tripClear = (((if m.g K.LS_FUS_STATE = 3 then m.put K.LS_FUS_STATE 0 else m).put K.LS_FUS_TRIPPED 0).raise 0x2817 [], .ok) := by
  unfold Mach.tripClear
  refine if_neg ?_
  rw [Bool.not_eq_true', Bool.not_eq_false, List.all_eq_true]
  intro n hn
  have hcode := hcool n (List.mem_range.mp hn)
  by_cases hpol : m.h K.LS_FUS_THM_POL = 1
  · simpa [hpol, and_assoc] using hcode
  · simpa [hpol, and_assoc] using hcode

/-- A process fault is cleared with no trip latched and the path not jammed (R210). -/
theorem procClear_fault (hfault : m.procState = prFault) (htrip : m.g K.LS_FUS_TRIPPED = 0) (hpath : m.g K.LS_PATH_STATE ≠ 2) :
    m.procClear = (m.procResume, .ok) := by
  unfold Mach.procClear
  exact if_neg (by simp [hfault, htrip, hpath])

end fuser

/-! ### Picks and the gate (R208, R213-R215) -/

section sheets

variable {mem : Mem} {m : Mach} {x : SheetRt}

/-- The path is neither jammed nor purging. -/
theorem not_jammed_of_path (hpath : m.g K.LS_PATH_STATE ≤ 1) : ¬ 2 ≤ m.g K.LS_PATH_STATE := by omega

/-- A pick that is due begins once the heaters have settled at the targets of its class, with no sheet left at a stage. -/
theorem pickStart_settled {it : Item} {t : Nat} (hnext : m.nextPick = some it) (hdue : m.pickDue it = true)
    (htarget : m.g K.LS_FUS_TARGET = m.fuserSet it.mediaClass) (hband : m.sl.bandSince = some t)
    (hsettled : t + 1000 * m.g K.LS_FUS_SETTLE ≤ m.time) (hclear : m.residual = none) : m.pickStart = m.pickBegin it 0 := by
  unfold Mach.pickStart
  simp only [hnext, hdue, htarget, hband, decide_eq_true hsettled, hclear, Bool.not_true, Bool.false_eq_true, ne_eq,
    not_true_eq_false, if_false]

/-- A sheet whose pick move has ended with the registration sensor active stands at the gate. -/
theorem sheetAtGate_stands (hsheet : m.sl.sheets.find? (fun x => x.gate.isNone && x.released.isNone && x.missedAt.isNone) = some x)
    (hended : x.plan.end10 ≤ m.now10) (hsensor : m.si (m.h (K.LS_SI 2)) = true) :
    m.sheetAtGate = m.modSheet x.item (fun y => { y with gate := some m.time }) := by
  unfold Mach.sheetAtGate
  simp only [hsheet]
  exact if_pos (by simp [hended, hsensor])

/-- The sheet at the gate is released at release_min while SL reads READY. -/
theorem gateCheck_ready (hgate : m.gateSheet = some x) (hpath : m.g K.LS_PATH_STATE ≤ 1) (hhold : m.sl.causeHold = false)
    (hmin : m.releaseMin ≤ m.time) (hready : m.ready rdySL = vReady) : m.gateCheck mem = m.gateRelease mem x none := by
  unfold Mach.gateCheck
  simp only [hgate, if_neg (not_jammed_of_path hpath), hhold, Bool.false_eq_true, if_false]
  exact if_pos ⟨hmin, hready⟩

/-- A sheet that has waited LS_GATE_WAIT for SL is released and spoiled with reason 7. -/
theorem gateExpired_waited (hgate : m.gateSheet = some x) (hpath : m.g K.LS_PATH_STATE ≤ 1) (hready : m.ready rdySL ≠ vReady)
    (hwaited : max (x.gate.getD m.time) m.releaseMin + 1000 * m.g K.LS_GATE_WAIT ≤ m.time) :
    m.gateExpired mem = (m.gateRelease mem x (some 7)).raise 0x281F [x.item] := by
  unfold Mach.gateExpired
  simp only [hgate]
  exact if_pos ⟨hpath, hready, hwaited⟩

/-- The roller starts a released sheet whose t_roll has come. When that is without a sweep 0 is a choice of the model (log entry 134),
and that the roller has no jerk limit a deduction (log entry 137). -/
theorem rollerStart_due {m1 : Mach} {t : Int} {v : Rat} (hsheet : m.sl.sheets.find? (fun x => x.released.isSome && !x.rolled) = some x)
    (hroll : m.rollAt x = some t) (hdue : t ≤ (m.time : Int)) (hpath : m.g K.LS_PATH_STATE ≤ 1) (hv : v = m.hvPlan.procV)
    (hm1 : m1 = m.hvPlan.modSheet x.item (fun y => { y with
      rolled := true
      plan := { pieces := joinPieces [rampPiece (10 * (m.hvPlan.h K.LS_PATH_ACCEL : Rat)) 0 0 0 0 v] [flatPiece 0 0 1000000 v]
                start10 := m.hvPlan.now10, origin := 0 } })) :
    m.rollerStart = m1.axRunUnder (m1.h K.LS_REG_AXIS) (mmToPos (m1.h K.LS_REG_AXIS) (m1.h K.LS_PATH_ACCEL : Rat))
      (pathSpeed (m1.h K.LS_REG_AXIS) m1.procV) := by
  have hnow : ¬ ((m.time : Int) < t ∨ 2 ≤ m.g K.LS_PATH_STATE) := by omega
  subst hv hm1
  unfold Mach.rollerStart
  simp only [hsheet, hroll]
  exact if_neg hnow

/-! ### Jams and picks tried again (R216) -/

/-- A leading edge that is missing at the end of its window is a late jam, but at stage 0, where the missed pick stops and waits. -/
theorem jamLate_missing {i : Nat} (hpath : m.g K.LS_PATH_STATE ≤ 1)
    (hsheet : m.sl.sheets.find? (fun x => !(x.lead.contains i) && x.missedAt.isNone
      && decide (m.stagePos i + (m.g K.LS_JAM_LATE : Rat) ≤ m.sheetPos x)) = some x) :
    m.jamLate i = if i = 0 then
      (m.modSheet x.item (fun y => { y with missedAt := some m.time })).axHalt (m.h K.LS_PICK_AXIS) (m.axis (m.h K.LS_PICK_AXIS)).dStop
      else m.jamStop 1 i x.item := by
  unfold Mach.jamLate
  simp only [if_neg (not_jammed_of_path hpath), hsheet]

/-- A trailing edge that is missing at its expected place is a jam. -/
theorem jamStay_missing {i : Nat} (hpath : m.g K.LS_PATH_STATE ≤ 1)
    (hsheet : m.sl.sheets.find? (fun x => x.lead.contains i && !(x.trail.contains i)
      && decide (m.stagePos i + (x.length : Rat) + (m.g K.LS_JAM_LATE : Rat) ≤ m.sheetPos x)) = some x) :
    m.jamStay i = m.jamStop 3 i x.item := by
  unfold Mach.jamStay
  simp only [if_neg (not_jammed_of_path hpath), hsheet]

/-- A pick missed 100 ms ago is repeated, or is a jam after the last retry. -/
theorem pickRetry_missed {it : Item} (hpath : m.g K.LS_PATH_STATE ≤ 1)
    (hsheet : m.sl.sheets.find? (fun x => match x.missedAt with
      | some t => decide (t + 100000 ≤ m.time)
      | none => false) = some x)
    (hit : m.item? x.item = some it) :
    m.pickRetry = if x.tries < m.g K.LS_PICK_RETRIES then (m.raise 0x281E []).pickBegin it (x.tries + 1)
      else m.jamStop 6 0 x.item := by
  unfold Mach.pickRetry
  split
  next hnone => cases hnone.symm.trans hsheet
  next y hfound =>
    obtain rfl : y = x := Option.some.inj (hfound.symm.trans hsheet)
    simp only [if_neg (not_jammed_of_path hpath), hit]

/-! ### Clearing and purging the path (R218) -/

/-- A jam is cleared once every stage has read inactive for 1 s, and without a trip the process resumes. -/
theorem jamClear_quiet {m1 : Mach} (hjammed : m.g K.LS_PATH_STATE = 2)
    (hquiet : ∀ i, i < 7 → m.si (m.h (K.LS_SI i)) = false ∧ m.motion.siAt.getD (m.h (K.LS_SI i)) 0 + 1000000 ≤ m.time)
    (hm1 : m1 = ((m.modSl (fun x => { x with
      sheets := [], wins := [], pages := x.pages.filter (fun p => p.blank.isNone) })).put K.LS_PATH_STATE 0).put K.LS_SHEETS 0)
    (htrip : m1.g K.LS_FUS_TRIPPED = 0) : m.jamClear = (m1.procResume.raise 0x2819 [], .ok) := by
  have hall : ((List.range 7).all fun i =>
      !(m.si (m.h (K.LS_SI i))) && decide (m.motion.siAt.getD (m.h (K.LS_SI i)) 0 + 1000000 ≤ m.time)) = true := by
    rw [List.all_eq_true]
    intro i hi
    obtain ⟨hinactive, hlong⟩ := hquiet i (List.mem_range.mp hi)
    rw [hinactive, decide_eq_true hlong]
    rfl
  subst hm1
  unfold Mach.jamClear
  rw [if_neg (by simp only [hjammed, hall]; decide)]
  exact congrArg (fun m : Mach => (m.raise 0x2819 [], Status.ok)) (if_pos htrip)

/-- A purge of an idle path, with no SL item at work, runs the path's axes at v. Which axes and for how long is as log entry 133 says. -/
theorem purge_idle {m1 : Mach} (hpath : m.g K.LS_PATH_STATE = 0)
    (hidle : m.itemsOf 4 (fun it => it.state == .admitted || it.state == .printing) = [])
    (hm1 : m1 = ((m.put K.LS_PATH_STATE 3).put K.LS_PURGED 0).modSl (fun x => { x with purgeAt := m.time })) :
    m.purge = ([m1.h K.LS_REG_AXIS, m1.h K.LS_DRUM_AXIS, m1.h K.LS_FUSER_AXIS, m1.h K.LS_EXIT_AXIS].foldl
      (fun m a => m.axRun a (pathSpeed a m.procV)) m1, .ok) := by
  subst hm1
  unfold Mach.purge
  exact if_neg (by simp [hpath, hidle])

/-- A purge whose distance has been run ends where no stage is still active. -/
theorem purgeDone_clear {m1 m2 : Mach} (hpurging : m.g K.LS_PATH_STATE = 3)
    (hrun : m.sl.purgeAt + ceilDiv (m.g K.LS_PURGE_DIST * 1000000) m.procV ≤ m.time) (hm1 : m1 = m.put K.LS_PATH_STATE 0)
    (hm2 : m2 = ((if m1.procState = prReady ∨ m1.procState = prWarming then [m1.h K.LS_REG_AXIS]
      else [m1.h K.LS_REG_AXIS, m1.h K.LS_DRUM_AXIS, m1.h K.LS_FUSER_AXIS, m1.h K.LS_EXIT_AXIS]).foldl (fun m a => m.axRun a 0) m1).raise
        0x281A [m1.g K.LS_PURGED])
    (hclear : m2.residual = none) : m.purgeDone = m2 := by
  unfold Mach.purgeDone
  rw [if_neg (by simp [hpurging, hrun])]
  simp only [← hm1, ← hm2, hclear]

end sheets

end Sys2Proof.Machine

open Sys2Proof Sys2Proof.Machine

/-- Settles O31: the process's state, its step and the mode written choose each command's branch. Deductions of the model are that
mode 0 or 2 stops a process that is WARMING (log entry 130), and that the axes decelerate once the channels are at 0 (log entry 136). -/
theorem processCommandsComplete : Obligations.ProcessCommandsComplete := by
  refine ⟨?start, ?stop, ?idle, ?warmup, ?cleaned, ?rest⟩
  case start =>
    intro s m hq hadm hoff
    exact done_write (eff := fun _ => wProcMode) hq hadm (wProcMode_run hoff)
  case stop =>
    intro s m m1 v hq hadm hv hidle hruns hm1
    subst hm1
    exact done_write (eff := fun _ => wProcMode) hq hadm (wProcMode_stops hv hidle hruns)
  case idle =>
    intro s m t hq hidle hauto hready hdue
    refine done_run hq ?_
    simp only [hidle]
    exact if_pos ⟨hauto, hready, hdue⟩
  case warmup =>
    intro s m hq hwarming
    constructor
    · intro hstep hwarm
      exact done_run hq (procAdvance_rotates hwarming hstep hwarm)
    · intro hstep hcharge
      exact done_run hq (procAdvance_charged hwarming hstep hcharge)
  case cleaned =>
    intro s m hq hstopping hstep hdue
    exact done_run hq ((if_pos ⟨hstopping, hstep, hdue⟩).trans (procRamped_rampingDown hstopping))
  case rest =>
    intro s m hq hstopping hstep hrest hmode
    have hall : m.procAxes.all (fun a => m.axVel a == 0) = true :=
      List.all_eq_true.mpr (fun a ha => beq_iff_eq.mpr (hrest a ha))
    refine done_run hq ((if_pos ⟨hstopping, hstep, hall⟩).trans (if_neg ?_))
    simp [hmode]

/-- Settles O32: the times since the last update and the last crossing, and the fuser's state, choose each command's branch. -/
theorem fuserAndHighVoltageComplete : Obligations.FuserAndHighVoltageComplete := by
  refine ⟨?update, ?channel, ?first, ?crossing, ?tripClear, ?heater, ?mains, ?procClear⟩
  case update =>
    intro s m hq hsl hdue
    exact done_run hq (if_neg (by simp [hsl, hdue]))
  case channel =>
    intro s m hv c hq hlate hsl hstate
    refine done_run hq ?_
    simp only [hlate]
    exact if_pos (by simp [hsl, hstate])
  case first =>
    intro s m m1 phase hq hsl _ _ hm1 hfirst m2 hm2 hnot
    refine done_run hq ((if_pos hsl).trans ?_)
    rw [zeroCross_first hm1 hfirst, ← hm2]
    exact procAdvance_idle hnot
  case crossing =>
    intro s m m1 phase t hq hsl hm1 hlast m2 hm2 hheats
    have hcross := zeroCross_heating hm1 hlast hm2 hheats
    constructor
    · intro hlong hshort
      rw [if_neg (by omega)] at hcross
      exact done_run hq ((if_pos hsl).trans (congrArg Mach.procAdvance hcross))
    · intro hshort
      rw [if_pos (.inl hshort)] at hcross
      exact done_run hq ((if_pos hsl).trans (congrArg Mach.procAdvance hcross))
  case tripClear =>
    intro s m hq hadm hcool
    exact done_write (eff := fun _ => wTripClear) hq hadm ((if_pos rfl).trans (tripClear_cool hcool))
  case heater =>
    intro s m h t q hq hrise hheats hdue hslow
    refine done_run hq ?_
    simp only [hrise]
    exact if_pos ⟨hheats, hdue, hslow⟩
  case mains =>
    intro s m t hq hlast hheats hdue
    refine done_run hq ?_
    simp only [hlast]
    exact if_pos ⟨hheats, hdue⟩
  case procClear =>
    intro s m hq hadm hfault htrip hpath
    exact done_write (eff := fun _ => wProcClear) hq hadm ((if_pos rfl).trans (procClear_fault hfault htrip hpath))

/-- Settles O33: the sheet that is due, the state of the path and the readiness of SL choose each command's branch. How long a purge
lasts and which axes it moves (log entry 133), the roller's start without a sweep 0 (log entry 134) and its motion (log entry 137) are
the model's own. -/
theorem sheetPathCompletes : Obligations.SheetPathCompletes := by
  refine ⟨?pick, ?atGate, ?release, ?expired, ?roller, ?late, ?stay, ?retry, ?jamClear, ?purge, ?purged⟩
  case pick =>
    intro s m it t hq hnext hdue htarget hband hsettled hclear
    exact done_run hq (pickStart_settled hnext hdue htarget hband hsettled hclear)
  case atGate =>
    intro s m x hq hsheet hended hsensor
    exact done_run hq (sheetAtGate_stands hsheet hended hsensor)
  case release =>
    intro s m x hq hgate hpath hhold hmin hready
    exact done_run hq (gateCheck_ready hgate hpath hhold hmin hready)
  case expired =>
    intro s m x hq hgate hpath hready hwaited
    exact done_run hq (gateExpired_waited hgate hpath hready hwaited)
  case roller =>
    intro s m m1 x t v hq hsheet hroll hdue hpath hv hm1
    exact done_run hq (rollerStart_due hsheet hroll hdue hpath hv hm1)
  case late =>
    intro s m i x hq hpath hsheet
    exact done_run hq (jamLate_missing hpath hsheet)
  case stay =>
    intro s m i x hq hpath hsheet
    exact done_run hq (jamStay_missing hpath hsheet)
  case retry =>
    intro s m x it hq hpath hsheet hit
    exact done_run hq (pickRetry_missed hpath hsheet hit)
  case jamClear =>
    intro s m m1 hq hadm hjammed hquiet hm1 htrip
    exact done_write (eff := fun _ => wJamClear) hq hadm ((if_pos rfl).trans (jamClear_quiet hjammed hquiet hm1 htrip))
  case purge =>
    intro s m m1 hq hadm hpath hidle hm1
    exact done_write (eff := fun _ => wPurge) hq hadm ((if_pos rfl).trans (purge_idle hpath hidle hm1))
  case purged =>
    intro s m m1 hq hpurging hrun hm1 m2 hm2 hclear
    exact done_run hq (purgeDone_clear hpurging hrun hm1 hm2 hclear)

end


section
/-! Motion planning: the axis table and the enable, the commands, limits and stops of an axis, the planning tick and the inputs of
motion, and the choppers of the phase ports: O34 to O39. -/

namespace Sys2Proof.Machine

open Sys2Proof

/-! ### The axis table, and what enables and disables an axis (R225, R238, R247) -/

section setup

variable {m : Mach} {n v : Nat}

/-- AX_TABLE_BASE is taken at a multiple of 256 with the whole table in the host area, while every axis is DISABLED. -/
theorem wAxTableBase_disabled (haligned : v % 256 = 0) (hinside : v + 10240 ≤ 0xC0000000)
    (hoff : ∀ n, n < m.nAxes → m.axState n = axDisabled) : wAxTableBase v m = (m.put K.AX_TABLE_BASE v, .ok) := by
  have hall : (List.range m.nAxes).any (fun n => m.axState n != axDisabled) = false := by simpa using hoff
  have hin : inHostArea v 10240 = true := decide_eq_true hinside
  unfold wAxTableBase
  rw [hall, if_neg Bool.false_ne_true, if_neg (by simp [haligned, hin])]

/-- AX_ENABLE 1 of a DISABLED axis whose ports pass their tests keeps the measured delays. That an axis with a failed port that no spare
serves stops at once is a deduction of the model (log entry 141). -/
theorem wAxEnable_enables {m1 : Mach} {ds : List Nat} (hoff : m.axState n = axDisabled) (hkind : (m.axis n).kind ≠ 0)
    (hm1 : m1 = (List.range (m.axis n).ports.length).foldl
      (fun m' i => m'.put (K.PP_CMP_DELAY (m'.phys ((m.axis n).ports.getD i 0))) (ds.getD i 0 % 2 ^ 16)) ((m.axEnableCore n).commanded n)) :
    wAxEnable n none ds 1 m = (if (m.axis n).ports.any m1.portDead then m1.axStop n 8 else m1, .ok) := by
  have hrunnable : ¬ (m.axState n = axStopped ∨ (m.axis n).kind = 0) := by
    rw [hoff]
    exact not_or.mpr ⟨by decide, hkind⟩
  subst hm1
  unfold wAxEnable
  rw [if_pos rfl, if_neg hrunnable, if_neg (not_not.mpr hoff)]

/-- AX_ENABLE 0 of an enabled axis at rest. -/
theorem wAxEnable_disables {f : Option Nat} {ds : List Nat} (hon : m.axState n ≠ axDisabled) (hruns : m.axState n ≠ axStopped)
    (hrest : m.axVel n = 0) : wAxEnable n f ds 0 m = (m.axDisableCore n, .ok) := by
  unfold wAxEnable
  rw [if_neg Nat.zero_ne_one, if_neg hon, if_neg (not_or.mpr ⟨hruns, not_not.mpr hrest⟩)]

/-- AX_CLEAR of a stopped axis whose cause is over. -/
theorem wAxClear_over (hstopped : m.axState n = axStopped) (hover : m.causePersists n = false) :
    wAxClear n 1 m = (m.axDisableCore n, .ok) := by
  unfold wAxClear
  rw [if_neg (not_not.mpr rfl), if_neg (by simp [hstopped, hover])]

end setup

/-! ### The limits of an axis in use (R231) -/

section limits

/-- The four limits: the number the model gives a limit, its entry's maximum, its object, and the command that waits for the tick. -/
def axLimits (a : AxisRt) (n v : Nat) : List (Nat × Nat × Nat × AxCmd) :=
  [(0, a.vMax, K.AX_SPEED n, .speed v), (1, a.aMax, K.AX_ACCEL n, .accel v), (2, a.dMax, K.AX_DECEL n, .decel v),
    (3, a.jMax, K.AX_JERK n, .jerk v)]

/-- A limit up to its entry's maximum waits for its tick. Only of the jerk is a maximum of 0 no limit. -/
theorem wAxLimit_within {m : Mach} {n which v top k : Nat} {c : AxCmd} (hlimit : (which, top, k, c) ∈ axLimits (m.axis n) n v)
    (hfits : (which = 3 ∧ (m.axis n).jMax = 0) ∨ v ≤ top) (hfree : m.axOwner n = 0) (hkind : (m.axis n).kind ≠ 4) :
    wAxLimit n which v m
      = ((m.put k v).modAxis n (fun a => { a with waiting := a.waiting ++ [(m.time, c)] }), .ok) := by
  have htaken : ¬ (m.axOwner n ≠ 0 ∨ (m.axis n).kind = 4) := by simp [hfree, hkind]
  have hrange : ¬ (¬ (which = 3 ∧ (m.axis n).jMax = 0) ∧ top < v) := by
    rintro ⟨hlimited, hover⟩
    exact hfits.elim hlimited (Nat.not_le.mpr hover)
  simp only [axLimits, List.mem_cons, Prod.mk.injEq, List.not_mem_nil, or_false] at hlimit
  rcases hlimit with ⟨rfl, rfl, rfl, rfl⟩ | ⟨rfl, rfl, rfl, rfl⟩ | ⟨rfl, rfl, rfl, rfl⟩ | ⟨rfl, rfl, rfl, rfl⟩
  all_goals
    unfold wAxLimit
    exact (if_neg hrange).trans (if_neg htaken)

end limits

/-! ### The motion commands of a free axis (R231-R234, R241, R244, R255; the states that accept one are log entry 145) -/

section commands

variable {m : Mach} {n v : Nat} (hkind : (m.axis n).kind ≠ 4) (hfree : m.axFree n = true)
include hkind hfree

/-- An axis that needs no home, or has its position, takes a target within its soft limits with no limit input in its way. -/
theorem wAxTarget_free (hhome : (m.axis n).homeRequired = false ∨ m.g (K.AX_POS_LOST n) = 0) (hsoft : m.softApply n = false)
    (hclear : ∀ d : Int, m.limitAhead n d 0xFF = false) :
    wAxTarget n v m = ((m.put (K.AX_TARGET n) v).axAccept n (.target (sext 32 v)), .ok) := by
  have hready : ¬ ((!m.axFree n) = true ∨ ((m.axis n).homeRequired = true ∧ m.gb (K.AX_POS_LOST n) = true)) := by
    rcases hhome with h | h <;> simp [hfree, h, Mach.gb]
  unfold wAxTarget
  simp only [if_neg hkind, if_neg hready, hsoft, hclear, Bool.false_eq_true, false_and, if_false]

theorem wAxVelocity_free (hhome : (m.axis n).homeRequired = false ∨ m.g (K.AX_POS_LOST n) = 0)
    (hclear : m.limitAhead n (sext 32 v) 0xFF = false) :
    wAxVelocity n v m = ((m.put (K.AX_VELOCITY n) v).axAccept n (.velocity (sext 32 v)), .ok) := by
  unfold wAxVelocity
  refine if_neg ?_
  rcases hhome with h | h <;> simp [hkind, hfree, hclear, h, Mach.gb]

/-- A current needs no position, but of a stepper its encoder (R255). -/
theorem wAxCurrent_free (henc : (m.axis n).kind ≠ 1 ∨ (m.axis n).enc ≠ 0xFF) (hclear : m.limitAhead n (sext 16 v) 0xFF = false) :
    wAxCurrent n v m = ((m.put (K.AX_CURRENT n) v).axAccept n (.current (sext 16 v)), .ok) := by
  unfold wAxCurrent
  refine if_neg ?_
  rcases henc with h | h <;> simp [hkind, hfree, hclear, h]

theorem wAxFollow_enters (hsd : (m.axis n).sd ≠ 0xFF) :
    wAxFollow n 1 m = ((m.put (K.AX_FOLLOW n) 1).axAccept n (.follow true), .ok) := by
  unfold wAxFollow
  rw [if_pos rfl, if_neg (by simp [hkind, hsd, hfree])]

theorem wAxHome_free (hclear : ∀ d : Int, m.limitAhead n d (m.axis n).homeSi = false) :
    wAxHome n 1 m = (m.axAccept n .home, .ok) := by
  unfold wAxHome
  rw [if_neg (not_not.mpr rfl), if_neg (by simp [hkind, hfree, hclear])]

end commands

/-! ### Halts and stops (R236-R239) -/

section stops

variable {m : Mach} {n : Nat}

/-- A halt is taken in every enabled state (log entry 145). -/
theorem wAxHalt_enabled (hfree : m.axOwner n = 0) (hon : m.axEnabled n = true) (hkind : (m.axis n).kind ≠ 4) :
    wAxHalt n 1 m = (((m.axDisarm n).modAxis n (fun a => { a with
      waiting := a.waiting ++ [((m.axDisarm n).time, .halt)] })).commanded n, .ok) := by
  unfold wAxHalt
  rw [if_neg (not_not.mpr rfl), if_neg (by simp [hfree, hon, hkind])]
  rfl

/-- A stop of an axis that nothing owns is the cut of its motion. -/
theorem axStop_unowned {cause : Nat} (hon : m.axEnabled n = true) (howner : m.axOwner n = 0) : m.axStop n cause = m.axCut n cause := by
  unfold Mach.axStop
  simp only [hon, howner, Bool.not_true, if_neg Bool.false_ne_true, if_true]

/-- A stop of a station's axis acts on the station (R238). -/
theorem axStop_station {cause : Nat} (hon : m.axEnabled n = true) (hlow : 1 ≤ m.axOwner n) (hhigh : m.axOwner n ≤ 4) :
    m.axStop n cause = (m.axCut n cause).stationAxisStop (m.axOwner n - 1) n cause := by
  unfold Mach.axStop
  simp only [hon, Bool.not_true, if_neg Bool.false_ne_true, if_neg (Nat.ne_of_gt hlow), if_pos hhigh]

/-- A stop by you of an axis of the laser process jams the path with reason 7 (R238). -/
theorem axStop_process (hon : m.axEnabled n = true) (howner : m.axOwner n = 5) :
    m.axStop n 1 = (m.axCut n 1).jamStop 7 0 0 := by
  have hcut : ¬ ((1 : Nat) = 6 ∨ (1 : Nat) = 7) := by decide
  have hprocess : ¬ ((5 : Nat) = 0) ∧ ¬ ((5 : Nat) ≤ 4) := by decide
  unfold Mach.axStop
  simp only [hon, howner, Bool.not_true, if_neg Bool.false_ne_true, if_neg hprocess.1, if_neg hprocess.2, if_neg hcut, if_true]

end stops

/-! ### The two buses of a tick (R229) -/

/-- A loop over two units, as over the buses, is its two turns. -/
theorem upto_two {σ : Type} (s : σ) (f : σ → Nat → σ) : upto 2 s f = f (f s 0) 1 := rfl

/-! ### Step/direction inputs (R244) -/

/-- A step edge no earlier than the least high and low times together after the one before is one step. -/
theorem sdClose_apart {m : Mach} {sd t : Nat} (h : ∀ t', m.motion.sdLast.getD sd none = some t' → t' + 20 ≤ t) :
    m.sdClose sd t = false := by
  unfold Mach.sdClose
  cases hlast : m.motion.sdLast.getD sd none with
  | none => rfl
  | some t' => exact decide_eq_false (Nat.not_lt.mpr (h t' hlast))

/-! ### Steppers (R254) -/

/-- The microstep address of a stepper that is not in CURRENT mode is that of its planned position, and its two windings take the entries
of its table a quarter apart. -/
theorem stepperUpdate_planned {m m1 : Mach} {n pa pb ad : Nat} {ps : List Nat} (hkind : (m.axis n).kind = 1)
    (hon : m.axEnabled n = true) (hplanned : ∀ ma, (m.axis n).mode ≠ .current ma) (hports : (m.axis n).ports = pa :: pb :: ps)
    (had : ad = (if (m.axis n).dirInvert then (512 - (m.axis n).addrOf (m.axPos n)) % 512 else (m.axis n).addrOf (m.axPos n)).toNat)
    (hm1 : m1 = m.put (K.AX_ADDR n) ad) (hdrives : m1.drives n = true) :
    m.stepperUpdate n = (m1.setWinding (m1.phys pa)
        ((m.axis n).stepAmp * (sfld (m.axis n).drive.table (2 * ((ad + 128) % 512)) 2 : Rat) / 32767)).setWinding (m1.phys pb)
        ((m.axis n).stepAmp * (sfld (m.axis n).drive.table (2 * (ad % 512)) 2 : Rat) / 32767) := by
  have hstepper : ¬ ((m.axis n).kind ≠ 1 ∨ (!m.axEnabled n) = true) := by simp [hkind, hon]
  unfold Mach.stepperUpdate
  rw [if_neg hstepper]
  split
  next ma hmode => exact absurd hmode (hplanned ma)
  next =>
    simp only [← had, ← hm1, hdrives, hports, Bool.not_true, if_neg Bool.false_ne_true]

/-! ### The choppers of the phase ports (R256, R257) -/

section chopper

variable {m m0 : Mach} {p n ns : Nat} (hm0 : m0 = m.decayDue p ns) (hchop : m0.chopAxis p = some n)
include hm0 hchop

/-- The upper threshold ends a drive phase. -/
theorem chopEdge_high (hdriving : (m0.port p).driving = true) :
    m.chopEdge p true ns = (m0.modPort p (fun x => { x with driving := false, since := ns })).put (K.PP_T_ON p)
      ((ns - (m0.port p).since) % 2 ^ 32) := by
  unfold Mach.chopEdge
  simp only [← hm0, hchop, hdriving, Bool.not_true, if_neg Bool.false_ne_true, if_true]

/-- The lower threshold ends a decay phase, but not before CHOP_TOFF_MIN, which is a deduction of the model (log entry 157). -/
theorem chopEdge_low (hdecay : (m0.port p).driving = false) :
    m.chopEdge p false ns = if ns - (m0.port p).since < 10 * (m0.axis n).f 0x8A 2 then m0.modPort p (fun x => { x with lowSeen := true })
      else m0.decayEnd n p ns := by
  unfold Mach.chopEdge
  simp only [← hm0, hchop, hdecay, if_neg Bool.false_ne_true]

end chopper

/-- A decay phase in which the set-point changed ends without an update of the port's offset. -/
theorem decayEnd_changed {m m1 : Mach} {p n ns : Nat} (hchanged : (m.port p).changed = true)
    (hm1 : m1 = (m.modPort p (fun x => { x with driving := true, since := ns, lowSeen := false })).put (K.PP_T_OFF p)
      ((ns - (m.port p).since) % 2 ^ 32)) :
    m.decayEnd n p ns = m1.modPort p (fun x => { x with changed := false }) := by
  subst hm1
  unfold Mach.decayEnd
  simp only [hchanged, Bool.not_true, Bool.false_and, if_neg Bool.false_ne_true]

/-- A port of the 96 whose readback differs stops its axis with cause 8 and hands over to a spare. The number of the test in its event
is log entry 158. -/
theorem portFail_readback {m m1 : Mach} {p n : Nat} (hport : p < 96) (hsound : (m.port p).failed = false)
    (hm1 : m1 = (m.modPort p (fun x => { x with failed := true })).raise 0x2B01 [p, 1]) (haxis : m1.portAxis p = some n) :
    m.portFail p 1 = (m1.axStop n 8).takeOver p := by
  have hnum : ¬ 96 ≤ p ∧ ¬ p = 0xFF := by omega
  unfold Mach.portFail
  rw [hsound, Bool.false_and, if_neg Bool.false_ne_true]
  simp only [← hm1, if_neg hnum.1, if_neg hnum.2, haxis]

end Sys2Proof.Machine

open Sys2Proof Sys2Proof.Machine

/-- Settles O34: each write passes its card and finds its effect's conditions met. Choices and deductions of the model are that AX_ENABLE
and AX_CLEAR are taken on owned axes too (log entry 146), the failed port at an enable (log entry 141), and the states in which a command
is taken (log entry 145). -/
theorem axisSetupCompletes : Obligations.AxisSetupCompletes := by
  refine ⟨?base, ?refresh, ?enable, ?disable, ?clear, ?group, ?start, ?limits⟩
  case base =>
    intro s m v hq hadm haligned hinside hoff
    exact done_write (eff := fun _ => wAxTableBase) hq hadm (wAxTableBase_disabled haligned hinside hoff)
  case refresh =>
    intro s m n hq hadm hn
    subst hq
    refine done_run rfl ?_
    rw [judgeWrite_admits _ hadm, if_neg (Nat.not_le.mpr hn)]
    exact if_pos (.inr rfl)
  case enable =>
    intro s m m1 ax ds hq hadm hoff hkind hm1
    exact done_write (eff := fun _ => wAxEnable ax none ds) hq hadm (wAxEnable_enables hoff hkind hm1)
  case disable =>
    intro s m ax f ds hq hadm hon hruns hrest
    exact done_write (eff := fun _ => wAxEnable ax f ds) hq hadm (wAxEnable_disables hon hruns hrest)
  case clear =>
    intro s m ax hq hadm hstopped hover
    exact done_write (eff := fun _ => wAxClear ax) hq hadm (wAxClear_over hstopped hover)
  case group =>
    intro s m ax v hq hadm hfree
    exact done_write (eff := fun _ => wAxGroup ax) hq hadm (if_neg (not_not.mpr hfree))
  case start =>
    intro s m g hq hadm
    exact done_write (eff := fun _ => onOne (fun m => m.askStart g m.time)) hq hadm (onOne_one _ m)
  case limits =>
    intro s m ax v hq hfree hkind
    refine ⟨?speed, ?accel, ?decel, ?jerk⟩
    case speed =>
      intro hadm hmax
      exact done_write (eff := fun _ => wAxLimit ax 0) hq hadm (wAxLimit_within (by simp [axLimits]) (.inr hmax) hfree hkind)
    case accel =>
      intro hadm hmax
      exact done_write (eff := fun _ => wAxLimit ax 1) hq hadm (wAxLimit_within (by simp [axLimits]) (.inr hmax) hfree hkind)
    case decel =>
      intro hadm hmax
      exact done_write (eff := fun _ => wAxLimit ax 2) hq hadm (wAxLimit_within (by simp [axLimits]) (.inr hmax) hfree hkind)
    case jerk =>
      intro hadm hmax
      exact done_write (eff := fun _ => wAxLimit ax 3) hq hadm
        (wAxLimit_within (by simp [axLimits]) (hmax.imp_left (⟨rfl, ·⟩)) hfree hkind)

/-- Settles O35: a free axis meets every condition of its commands, so each is accepted. The states in which an axis is free are the
model's choice (log entry 145). -/
theorem axisCommandsComplete : Obligations.AxisCommandsComplete := by
  intro s m ax hq hkind hfree hhome
  refine ⟨?target, ?velocity, ?current, ?follow, ?home⟩
  case target =>
    intro v hadm hsoft hclear
    exact done_write (eff := fun _ => wAxTarget ax) hq hadm (wAxTarget_free hkind hfree hhome hsoft hclear)
  case velocity =>
    intro v hadm hclear
    exact done_write (eff := fun _ => wAxVelocity ax) hq hadm (wAxVelocity_free hkind hfree hhome hclear)
  case current =>
    intro v hadm henc hclear
    exact done_write (eff := fun _ => wAxCurrent ax) hq hadm (wAxCurrent_free hkind hfree henc hclear)
  case follow =>
    intro hadm hsd
    exact done_write (eff := fun _ => wAxFollow ax) hq hadm (wAxFollow_enters hkind hfree hsd)
  case home =>
    intro hadm hclear
    exact done_write (eff := fun _ => wAxHome ax) hq hadm (wAxHome_free hkind hfree hclear)

/-- Settles O36: the halt finds its conditions met, and the owner of the axis chooses what a stop acts on besides. That a halt is taken in
every enabled state is the model's choice (log entry 145). -/
theorem axisStopsComplete : Obligations.AxisStopsComplete := by
  refine ⟨?halt, ?stop⟩
  case halt =>
    intro s m ax hq hadm hfree hon hkind
    exact done_write (eff := fun _ => wAxHalt ax) hq hadm (wAxHalt_enabled hfree hon hkind)
  case stop =>
    intro s m ax hq hadm hon
    have hstop {m' : Mach} (h : m.axStop ax 1 = m') : wAxStop ax 1 m = (m', .ok) := h ▸ onOne_one _ m
    refine ⟨?unowned, ?station, ?process⟩
    case unowned =>
      intro howner
      exact done_write (eff := fun _ => wAxStop ax) hq hadm (hstop (axStop_unowned hon howner))
    case station =>
      intro hlow hhigh
      exact done_write (eff := fun _ => wAxStop ax) hq hadm (hstop (axStop_station hon hlow hhigh))
    case process =>
      intro howner
      exact done_write (eff := fun _ => wAxStop ax) hq hadm (hstop (axStop_process hon howner))

/-- Settles O37: a moment that is a multiple of 20 µs and not the last tick's is a tick's, which is the model's choice (log entry 147);
the two buses are the loop's two turns. -/
theorem planningTickCompletes : Obligations.PlanningTickCompletes := by
  intro s m hq hmultiple hnew
  refine done_run hq ((if_neg (not_or.mpr ⟨not_not.mpr hmultiple, hnew⟩)).trans ?_)
  exact congrArg (fun m : Mach => m.camTriggers.inspBoundary) (upto_two _ _)

/-- Settles O38: the change of phase, the time since the step before and the accepted level each choose their command's branch. Which
order of A and B counts up is presumed (log entry 150). -/
theorem motionInputsComplete : Obligations.MotionInputsComplete := by
  refine ⟨?encoder, ?index, ?step, ?same, ?edge⟩
  case encoder =>
    intro s m m1 qe phase old new d a b hq hon hold hnew hd hm1
    have hcounted : ¬ (!m.gb (K.QE_ENABLE qe)) = true := by simp [hon]
    subst hold hnew hm1
    refine ⟨?none, ?illegal, ?count⟩
    case none =>
      intro hnone
      subst hd
      exact done_run hq ((if_neg hcounted).trans (if_pos hnone))
    case illegal =>
      intro m2 hm2 hillegal
      have hsome : ¬ d = 0 := by omega
      subst hd hm2
      exact done_run hq ((if_neg hcounted).trans ((if_neg hsome).trans (if_pos hillegal)))
    case count =>
      intro m2 m3 t c hone hc ht hm2 hm3
      have hsome : ¬ d = 0 := by omega
      have hlegal : ¬ d = 2 := by omega
      subst hd ht hc hm2 hm3
      exact done_run hq ((if_neg hcounted).trans ((if_neg hsome).trans (if_neg hlegal)))
  case index =>
    intro s m qe hq hon
    exact done_run hq (if_pos hon)
  case step =>
    intro s m m1 sd phase dir hq hon hm1 hapart
    refine done_run hq ?_
    simp only [hon, Bool.not_true, if_neg Bool.false_ne_true, sdClose_apart hapart]
    subst hm1
    rfl
  case same =>
    intro s m si phase high hq hsame
    exact done_run hq (if_pos hsame)
  case edge =>
    intro s m m1 m2 m3 si phase st high active hq hactive hchange hst hm1 hm2 hm3
    subst hactive hst hm1 hm2 hm3
    exact done_run hq (if_neg hchange)

/-- Settles O39: the chopped axis of a port and the phase of its chopper choose the branch of each command. That a decay phase ends not
before CHOP_TOFF_MIN is a deduction of the model (log entry 157), the number of the test in the event of a failed port its choice (log
entry 158). -/
theorem chopperCommandsComplete : Obligations.ChopperCommandsComplete := by
  refine ⟨?steppers, ?address, ?comparator, ?maxOn, ?delay, ?unfreeze, ?failed⟩
  case steppers =>
    intro s m m1 hq hm1
    exact done_run hq hm1
  case address =>
    intro m m1 n pa pb ad ps hkind hon hplanned hports had hm1 hdrives
    exact stepperUpdate_planned hkind hon hplanned hports had hm1 hdrives
  case comparator =>
    intro s m m0 pp n phase ns hq hns hm0 hchop
    subst hns
    refine ⟨?off, ?on, ?early⟩
    case off =>
      intro hdriving
      exact done_run hq (chopEdge_high hm0 hchop hdriving)
    case on =>
      intro m1 hdecay hchanged hlong hm1
      exact done_run hq ((chopEdge_low hm0 hchop hdecay).trans ((if_neg (Nat.not_lt.mpr hlong)).trans (decayEnd_changed hchanged hm1)))
    case early =>
      intro hdecay hshort
      exact done_run hq ((chopEdge_low hm0 hchop hdecay).trans (if_pos hshort))
  case maxOn =>
    intro s m pp n hq hchop hdriving hover
    refine done_run hq ?_
    simp only [hchop]
    exact if_pos ⟨hdriving, hover⟩
  case delay =>
    intro s m pp n d hq hchop hdecay
    refine done_run hq ?_
    simp only [hchop]
    exact if_neg (by simp [hdecay])
  case unfreeze =>
    intro s m pp hq hadm
    exact done_write (eff := fun _ => onOne (fun m => m.offsetResume pp)) hq hadm (onOne_one _ m)
  case failed =>
    intro s m m1 pp n hq hthere hport hsound hm1 haxis
    exact done_run hq ((if_pos hthere).trans (portFail_readback hport hsound hm1 haxis))

end

section
/-! The block as a whole: its step, its reset state, its events. -/

namespace Sys2Proof.Machine

open Sys2Proof

/-! ### Reset (R305, R405) -/

/-- The objects that resetDict names: the readinesses of the serial ports and the roles of the slices, which read 1. -/
theorem resetDict_get_other {k : Nat} (hports : ∀ u, u < 8 → k ≠ 0x201030 + u) (hslices : ∀ i, i < 5 → k ≠ K.AN_SL_ROLE i) :
    Store.get objDefault k resetDict = objDefault k := by
  refine Store.get_putAll_other objDefault k _ [] fun w hw => ?_
  rcases List.mem_append.mp hw with hw | hw
  · obtain ⟨u, hu, rfl⟩ := List.mem_map.mp hw
    exact (hports u (List.mem_range.mp hu)).symm
  · obtain ⟨i, hi, rfl⟩ := List.mem_map.mp hw
    exact (hslices i (List.mem_range.mp hi)).symm

/-! ### The queue of a consumer (R335) -/

section push

variable {c : Consumer} (r : EvRec)

theorem push_room (h : c.queue.length < 256) : c.push r = { c with queue := c.queue ++ [r] } := if_pos h

/-- A full queue puts out one of its records: the list without it, and the record at its end. -/
theorem push_full (h : c.queue.length = 256) :
    ∃ q, q.length = 255 ∧ c.push r = { c with queue := q ++ [r], lost := (c.lost + 1) % 2 ^ 32 } := by
  have hfull : ¬ c.queue.length < 256 := by omega
  unfold Consumer.push
  rw [if_neg hfull]
  cases hfind : c.queue.findIdx? (fun x => x.tc1) with
  | none => exact ⟨c.queue.drop 1, by simp [h], rfl⟩
  | some i =>
    have hi : i < c.queue.length := (List.findIdx?_eq_some_iff_getElem.mp hfind).1
    exact ⟨c.queue.eraseIdx i, by rw [List.length_eraseIdx_of_lt hi]; omega, rfl⟩

end push

end Sys2Proof.Machine

open Sys2Proof Sys2Proof.Machine

/-- Settles O1: the queue's front is taken off before the command runs. -/
theorem stepRunsFront : Obligations.StepRunsFront := fun _ _ => rfl

/-- Settles O2: an empty queue leaves the tick, which is the model's choice (log entry 4). -/
theorem idleStepTicks : Obligations.IdleStepTicks := by
  intro s hempty
  unfold step
  rw [hempty]
  rfl

/-- Settles O3: what stands in the reset state's dictionary is evaluated, every other object is listed nowhere. That it is the block held
in reset, an MP-6440, is the model's choice (log entries 5 and 6), and so are the objects whose card gives no value, which read 0 (log
entry 8), and the slices that all read their role as in calibration (log entry 207). -/
theorem resetState : Obligations.ResetState := by
  refine ⟨⟨rfl, rfl⟩, rfl, rfl, rfl, rfl, ?others, ?ports, ?slices⟩
  case others => exact fun k hports hslices => resetDict_get_other hports hslices
  case ports => decide +kernel
  case slices => decide +kernel

/-- Settles O4: a command is the settling of a machine, in the state it finds or in that with DRAM's contents gone, and neither touches
the queue. -/
theorem everyCommandGoes : Obligations.EveryCommandGoes := by
  intro c s
  obtain ⟨m, hm | hm⟩ := exec_settles c s
  · exact ⟨_, hm, rfl⟩
  · exact ⟨_, hm, rfl⟩

/-- Settles O7: what recording leaves is said by raise_only, and a consumer's queue has room or puts out one record. -/
theorem eventsRecorded : Obligations.EventsRecorded := by
  refine ⟨record_seq, ?raise, ?push⟩
  case raise =>
    intro m code data
    exact ⟨fun _ hk => raise_g m code data hk, by simp⟩
  case push =>
    intro c r hle
    rcases Nat.lt_or_eq_of_le hle with hroom | hfull
    · rw [push_room r hroom]
      refine ⟨by simp; omega, by simp, fun _ => ⟨rfl, rfl⟩, fun hfull => by omega⟩
    · obtain ⟨q, hq, hpush⟩ := push_full r hfull
      rw [hpush]
      refine ⟨by simp [hq], by simp, fun hroom => by omega, fun _ => ⟨by simp [hq], rfl⟩⟩

end

section
/-! The drive block: loops and starts of an axis, its PWM period, drive faults and the motor supply buses. -/

namespace Sys2Proof.Machine

open Sys2Proof

/-! ### Standstill (R258) -/

/-- A drive after the standstill action of a number. -/
def DriveRt.standing (d : DriveRt) : Nat → DriveRt
  | 0 => { d with bridge := .standstill, level := .hold }
  | 2 => { d with bridge := .shorted, level := .none, foc := .off }
  | _ => { d with bridge := .highZ, level := .none, foc := .off }

/-- A stepper at rest for HOLD_TIME takes the action of its field. -/
theorem standstill_rested {m : Mach} {n : Nat} (hkind : (m.axis n).kind = 1) (hon : m.axEnabled n = true) (hrest : m.axVel n = 0)
    (hempty : (m.axis n).queue = []) (hplanned : ∀ ma, (m.axis n).mode ≠ .current ma) (hfree : (m.axis n).focHeld = false)
    (hheld : (m.axis n).restSince + 1000 * (m.axis n).f 0x84 2 ≤ m.time) :
    m.standstill n = m.modAxis n (fun a => { a with drive := a.drive.standing ((m.axis n).f 0x86 1 % 4) }) := by
  have hsensor : (m.axis n).sensorless = false := by simp [AxisRt.sensorless, hkind]
  have hmode : (match (m.axis n).mode with | .current _ => false | _ => true) = true := by
    split
    · next ma hma => exact absurd hma (hplanned ma)
    · rfl
  have hstill : ¬ ((m.axis n).kind = 0 ∨ (m.axis n).kind = 4 ∨ (!m.axEnabled n) = true
      ∨ (!(decide (m.axVel n = 0) && (m.axis n).queue == []
          && (match (m.axis n).mode with | .current _ => false | _ => true))) = true
      ∨ (m.axis n).focHeld = true ∨ m.time < (m.axis n).restSince + 1000 * (m.axis n).f 0x84 2) := by
    rw [hmode]
    simp [hkind, hon, hrest, hempty, hfree, hheld]
  unfold Mach.standstill
  refine (if_neg hstill).trans ?_
  simp only [hsensor, Bool.false_and, if_neg Bool.false_ne_true]
  rfl

/-! ### The loops of a DC axis (R259) and of a PWM period (R260) -/

section loops

variable {m m1 : Mach} {n : Nat} (hdrives : m.drives n = true)
include hdrives

theorem dcUpdate_driven {p : Nat} {ps : List Nat} {v : Int} {i z : Rat} (hkind : (m.axis n).kind = 3)
    (href : m.currentRef n (v : Rat) (m.axVel n) (m.axFollowErr n) (1 / 100000) = (i, z)) (hports : (m.axis n).ports = p :: ps)
    (hm1 : m1 = m.modAxis n (fun a => { a with drive := { a.drive with iq := i, speedInt := z } })) :
    m.dcUpdate n v = m1.setWinding (m1.phys p) (if (m.axis n).dirInvert then -i else i) := by
  have hdriven : ¬ ((m.axis n).kind ≠ 3 ∨ (!m.drives n) = true) := by simp [hkind, hdrives]
  subst hm1
  unfold Mach.dcUpdate
  simp only [if_neg hdriven, href, hports]

theorem pwmPeriod_driven {angle : Nat} {cur : List Int} {rpm : Int} {id iq : Rat} (hkind : (m.axis n).kind = 2)
    (hfoc : (m.axis n).drive.foc ≠ .probe) (hloops : m.currentLoops n cur angle rpm = (m1, id, iq)) :
    m.pwmPeriod n cur angle rpm = ((m1.putFit16 (K.AX_I_D n) (roundRat id)).putFit16 (K.AX_I_Q n) (roundRat iq)).puti 32 (K.AX_RPM n)
      (roundRat ((m1.sosRpm n).getD ((m.axis n).sense * (rpm : Rat)))) := by
  have hdriven : ¬ ((m.axis n).kind ≠ 2 ∨ (!m.drives n) = true ∨ (m.axis n).drive.foc = .probe) := by simp [hkind, hdrives, hfoc]
  unfold Mach.pwmPeriod
  simp only [if_neg hdriven, hloops]

end loops

/-! ### The probe of a flying start (R265) -/

section probe

variable {m : Mach} {n : Nat} {rpm : Int} (hfoc : (m.axis n).drive.foc = .probe)
  (hover : (m.axis n).drive.focSince + 1000 * (m.axis n).f 0xD2 2 ≤ m.time)
include hfoc hover

/-- A rotor that stands is aligned. -/
theorem flyProbe_standing (hrated : 0 < (m.axis n).f 0xC4 2) :
    m.flyProbe n 0 = ((m.modAxis n (fun a => { a with
      drive := { a.drive with foc := .align, focSince := m.time, flyDue := false } })).put (K.AX_FLY_RESULT n) 1).raise
        0x2B05 [n, 1, ofInt 32 0] := by
  have hbrake : ¬ (m.axis n).drive.foc = .brake := by simp [hfoc]
  have hended : ¬ ((m.axis n).drive.foc ≠ .probe ∨ m.time < (m.axis n).drive.focSince + 1000 * (m.axis n).f 0xD2 2) := by
    simp [hfoc, hover]
  have hslow : ((0 : Int) : Rat) < ((m.axis n).f 0xC4 2 : Rat) / 50 := by
    rw [Int.cast_zero]
    exact div_pos (Nat.cast_pos.mpr hrated) (by norm_num)
  unfold Mach.flyProbe
  simp only [if_neg hbrake, if_neg hended, if_neg (lt_irrefl _), Int.cast_zero] at hslow ⊢
  simp only [decide_eq_true hslow, if_true]

/-- A rotor that turns forward at or above OBS_MIN_RPM is taken over at its speed. -/
theorem flyProbe_caught (hturns : 0 < rpm) (hforward : 0 < m.commandSign n) (hfast : ((m.axis n).f 0xC4 2 : Rat) / 50 ≤ (rpm : Rat))
    (hseen : ((m.axis n).f 0xC6 2 : Rat) ≤ (rpm : Rat)) :
    m.flyProbe n rpm = (((m.modAxis n (fun a => { a with drive := { a.drive with foc := .closed, flyDue := false } })).modAxis n
      (fun a => { a.settleAt m.now10 with vel := (rpm : Rat) * (a.posPerRev : Rat) / 60, acc := 0, replan := true })).put
        (K.AX_FLY_RESULT n) 2).raise 0x2B05 [n, 2, ofInt 32 rpm] := by
  have hbrake : ¬ (m.axis n).drive.foc = .brake := by simp [hfoc]
  have hended : ¬ ((m.axis n).drive.foc ≠ .probe ∨ m.time < (m.axis n).drive.focSince + 1000 * (m.axis n).f 0xD2 2) := by
    simp [hfoc, hover]
  have hpositive : ¬ rpm < 0 := hturns.le.not_gt
  have hsame : ¬ rpm * m.commandSign n < 0 := not_lt.mpr (mul_pos hturns hforward).le
  unfold Mach.flyProbe
  simp only [if_neg hbrake, if_neg hended, if_neg hpositive, decide_eq_false (not_lt.mpr hfast), decide_eq_false hsame,
    Bool.false_and, if_neg Bool.false_ne_true, if_pos hseen]

end probe

/-! ### The buses (R268-R272) -/

section buses

variable {m m1 m2 : Mach} {b : Nat}

/-- A bus already below its warning whose chopper comes on raises no event: the chopper's state, the shorting and the cut follow. -/
theorem busLevel_brakes {mv : Nat} (hbrake : 100 * m.g (K.BUS_BRK_ON b) ≤ mv) (hwarn : 100 * m.g (K.BUS_WARN b) ≤ mv)
    (hsince : (m.busRt b).onSince = none) (hwarned : (m.busRt b).warning = true)
    (hm1 : m1 = m.modBus b (fun x => { x with
      level := mv, warning := true, braking := true, brakeMicros := (m.busRt b).brakeMicros
      onSince := some (x.onSince.getD m.time), onVoltage := if !x.braking then m.busVoltage b else x.onVoltage
      checked := if !x.braking then false else x.checked }))
    (hm2 : m2 = (m1.showBus b).shortRegen b) :
    m.busLevel b mv = if 100 * m2.g (K.BUS_OV_CUT b) ≤ mv then m2.busCut b else m2 := by
  subst hm1 hm2
  unfold Mach.busLevel
  simp only [if_pos hbrake, if_pos hwarn, hsince, hwarned, Bool.not_true, Bool.and_false, Bool.false_and, Bool.true_and, if_true,
    Mach.raiseIf, if_neg Bool.false_ne_true]

theorem chopperFail_sound {check : Nat} (hsound : (m.busRt b).failed = false) :
    m.chopperFail b check = ((m.busAxes b).filter m.regenerates).foldl (fun m n => m.drvFault n 7)
      (((m.modBus b (fun x => { x with failed := true })).showBus b).raise 0x2B12
        [b, check, ((m.busAxes b).filter m.regenerates).length]) := by
  unfold Mach.chopperFail
  rw [if_neg (by simp [hsound])]

theorem wBusClear_low (hcut : (m.busRt b).cut = true) (hlow : m.busLow b = true) :
    wBusClear b 1 m = (((m.modBus b (fun x => { x with cut := false })).showBus b).raise 0x2B14 [b], .ok) := by
  unfold wBusClear
  rw [if_neg (not_not.mpr rfl), if_neg (by simp [hcut, hlow])]

theorem wBusBrkClear_low (hfailed : (m.busRt b).failed = true) (hlow : m.busLow b = true) :
    wBusBrkClear b 1 m = (((m.modBus b (fun x => { x with failed := false })).showBus b).raise 0x2B15 [b], .ok) := by
  unfold wBusBrkClear
  rw [if_neg (not_not.mpr rfl), if_neg (by simp [hfailed, hlow])]

/-- A level below the cut's that leaves the levels in order is stored and judged at once. -/
theorem wBusLevel_ordered {w v : Nat} (hw : w < 3) (hm1 : m1 = m.put (busLevelKey b w) v)
    (hoff : m1.g (K.BUS_WARN b) ≤ m1.g (K.BUS_BRK_OFF b)) (hon : m1.g (K.BUS_BRK_OFF b) < m1.g (K.BUS_BRK_ON b))
    (hcut : m1.g (K.BUS_BRK_ON b) < m1.g (K.BUS_OV_CUT b))
    (htop : (m1.g (K.BUS_OV_CUT b) : Rat) < (m1.gf (K.BUS_DIV b)).val * 18) :
    wBusLevel b w v m = (m1.busLevel b (m.busRt b).level, .ok) := by
  have hnot : ¬ w = 3 ∧ ¬ w = 4 := by omega
  unfold wBusLevel
  simp [← hm1, hoff, hon, hcut, htop, hnot.1, hnot.2]

end buses

/-- The axes that a fault input stops: those with a port of its group that are enabled (R267). -/
theorem inGroup_iff {m : Mach} {g n : Nat} :
    ((m.axis n).ports.any (fun p => p / 4 == g) && m.axEnabled n) = true
      ↔ (∃ p, p ∈ (m.axis n).ports ∧ p / 4 = g) ∧ m.axEnabled n = true := by
  simp

theorem not_inGroup {m : Mach} {g n : Nat} (h : (∀ p, p ∈ (m.axis n).ports → p / 4 ≠ g) ∨ m.axEnabled n = false) :
    ¬ ((m.axis n).ports.any (fun p => p / 4 == g) && m.axEnabled n) = true := by
  rw [inGroup_iff]
  rintro ⟨⟨p, hp, hg⟩, hon⟩
  rcases h with h | h
  · exact h p hp hg
  · simp [h] at hon

end Sys2Proof.Machine

open Sys2Proof Sys2Proof.Machine

/-- Settles O40: each command finds the conditions of its rule met, and the measured speed chooses what a probe ends in. -/
theorem driveLoopsComplete : Obligations.DriveLoopsComplete := by
  refine ⟨?standstill, ?dc, ?pullIn, ?handover, ?lost, ?probe, ?brake⟩
  case standstill =>
    intro s m ax hq hkind hon hrest hempty hplanned hfree hheld
    refine ⟨fun hact => ?_, fun hact => ?_, fun hact => ?_⟩
    all_goals exact done_run hq ((standstill_rested hkind hon hrest hempty hplanned hfree hheld).trans (by rw [hact]; rfl))
  case dc =>
    intro s m ax p ps v i z hq hkind hdrives href hports m1 hm1
    exact done_run hq (dcUpdate_driven hdrives hkind href hports hm1)
  case pullIn =>
    intro s m ax hq hkind henergised hon hover
    exact done_run hq (if_pos ⟨hkind, henergised, hon, hover⟩)
  case handover =>
    intro s m ax hq hstarts hover
    exact done_run hq (if_pos ⟨hstarts, hover⟩)
  case lost =>
    intro s m ax hq hsensorless hclosed hfast
    have hmag {x r : Rat} (h : x ≤ r ∨ x ≤ -r) : x ≤ if r < 0 then -r else r := by
      split <;> rcases h with h | h <;> linarith
    exact done_run hq (if_pos ⟨hsensorless, hclosed, hmag hfast⟩)
  case probe =>
    intro s m ax rpm hq hfoc hover
    refine ⟨?standing, ?caught⟩
    case standing =>
      intro hzero hrated
      subst hzero
      exact done_run hq (flyProbe_standing hfoc hover hrated)
    case caught =>
      intro hturns hforward hfast hseen
      exact done_run hq (flyProbe_caught hfoc hover hturns hforward hfast hseen)
  case brake =>
    intro s m ax hq hfoc hover
    exact done_run hq (if_pos ⟨hfoc, hover⟩)

/-- Settles O41: the period is that of a driven axis of kind 2. In which sense the operands and AX_RPM stand is a deduction of the model
(log entry 153), the sampling at the start of the period its choice (log entry 154). -/
theorem pwmPeriodCompletes : Obligations.PwmPeriodCompletes := by
  intro s m m1 ax angle cur rpm id iq hq hkind hdrives hfoc hloops
  exact done_run hq (pwmPeriod_driven hdrives hkind hfoc hloops)

/-- Settles O42: the axes of a fault input are found one by one, the buses judge a voltage, and each check of a chopper finds its moment
come. BUS_OV_CUT standing for a voltage at the level and BUS_PEAK's restart are log entry 160, the shorting judged at each level report
log entry 161. -/
theorem driveFaultsAndBusesComplete : Obligations.DriveFaultsAndBusesComplete := by
  refine ⟨?current, ?noFault, ?fault, ?level, ?cut, ?feedback, ?rise, ?release, ?clear, ?brkClear, ?write, ?peak⟩
  case current =>
    intro s m pp n hq haxis hon
    refine done_run hq ?_
    simp only [haxis, hon, if_true]
  case noFault =>
    intro s m g hq hnone
    exact done_run hq (upto_id _ _ _ fun n hn => if_neg (not_inGroup (hnone n hn)))
  case fault =>
    intro s m g n hq hn hport hon hbefore hafter
    refine done_run hq (upto_at _ n m _ _ hn ?_ (if_pos (inGroup_iff.mpr ⟨hport, hon⟩)) ?_)
    · exact fun k hk => if_neg (not_inGroup (hbefore k (by omega) (by omega)))
    · exact fun k hk hlt => if_neg (not_inGroup (hafter k hlt (by omega)))
  case level =>
    intro s m m1 m2 b mv hq hbrake hwarn hsince hwarned hm1 hm2
    refine ⟨?crossing, ?cutLevel⟩
    case crossing => exact done_run hq (busLevel_brakes hbrake hwarn hsince hwarned hm1 hm2)
    case cutLevel =>
      intro hmv
      exact done_run hq (hmv ▸ busLevel_brakes hbrake hwarn hsince hwarned hm1 hm2)
  case cut =>
    intro m m1 b huncut hm1
    subst hm1
    exact if_neg (by simp [huncut])
  case feedback =>
    intro s m b t hq hsince henable hover hsound
    refine done_run hq ?_
    simp only [hsince]
    exact (if_pos ⟨henable, hover⟩).trans (chopperFail_sound hsound)
  case rise =>
    intro s m b t hq hsince hunchecked hover
    refine done_run hq ?_
    simp only [hsince]
    exact if_neg (by simp [hunchecked, hover])
  case release =>
    intro s m ax hq hstopped hshorted hover
    exact done_run hq (if_pos ⟨hstopped, hshorted, hover⟩)
  case clear =>
    intro s m b hq hadm hcut hlow
    exact done_write (eff := fun _ => wBusClear b) hq hadm (wBusClear_low hcut hlow)
  case brkClear =>
    intro s m b hq hadm hfailed hlow
    exact done_write (eff := fun _ => wBusBrkClear b) hq hadm (wBusBrkClear_low hfailed hlow)
  case write =>
    intro s m m1 b w v bs hq hw hbs hadm hm1 hoff hon hcut htop
    have hlen : leBytes (if w = 4 then 4 else 2) v = bs := by rw [if_neg (by omega), hbs]
    subst hlen
    exact done_write (eff := fun _ => wBusLevel b w) hq hadm (wBusLevel_ordered hw hm1 hoff hon hcut htop)
  case peak =>
    intro s m b ty hq hreads
    exact done_read hq hreads

end

section
/-! The camera ports: enable, probe and reset of a camera, and the packets of its frames. -/

namespace Sys2Proof.Machine

open Sys2Proof

/-! ### Ports (R276-R279) -/

section ports

variable {m : Mach} {p : Nat}

/-- An even port that is off is enabled: its settings come into use and it begins anew. -/
theorem wCpEnable_even (heven : p % 2 = 0) (hoff : m.g (K.CP_ENABLE p) = 0) :
    wCpEnable p 1 m = (((m.sample (camKeys p)).put (K.CP_ENABLE p) 1).modCam p (fun _ => {}), .ok) := by
  have hpair : ¬ (p % 2 = 1 ∧ m.g (K.CP_LANES (p - 1)) = 4) := by omega
  have hgb : ¬ m.gb (K.CP_ENABLE p) = true := by simp [Mach.gb, hoff]
  unfold wCpEnable
  rw [if_pos rfl, if_neg hpair, if_neg hgb]

theorem wCpRestart_enabled (hon : m.gb (K.CP_ENABLE p) = true) :
    wCpRestart p 1 m = (m.camFit p (m.g (K.CP_ID_READ p)), .ok) :=
  (onOne_one _ m).trans (congrArg (fun m : Mach => (m, Status.ok)) (if_pos hon))

end ports

/-- A 1 written to a sub-index is no bank swap: it is answered before its events (R365). -/
theorem answersLate_one (k : Nat) : answersLate k (leBytes 1 1) = false := by
  have hone : (leBytes 1 1 == [2#8]) = false := by decide
  unfold answersLate
  rw [hone, Bool.and_false]

end Sys2Proof.Machine

open Sys2Proof Sys2Proof.Machine

/-- Settles O43: each command finds its port in the state its rule names, and the first packets of a frame their context. That the first
probe is at once, that a restart goes with the identity read last and that a repeat reads STARTING are the model's choice (log entry
187). -/
theorem cameraCommandsComplete : Obligations.CameraCommandsComplete := by
  refine ⟨?enable, ?found, ?missed, ?resetEnd, ?replayFailed, ?replayed, ?restart, ?peak, ?start, ?row, ?frameEnd, ?armedTimeout,
    ?readyTimeout⟩
  case enable =>
    intro s m m1 cp hq hadm heven hoff hm1
    subst hq
    have hwrite := hostWrite_judged (eff := wCpEnable cp) hadm (hm1 ▸ wCpEnable_even heven hoff)
    rw [answersLate_one, if_neg Bool.false_ne_true] at hwrite
    exact done_run rfl (congrArg (Mach.inspSettle s.mem) hwrite)
  case found =>
    intro s m m1 cp v hq hon hfirst hm1
    subst hm1
    refine done_run hq ?_
    simp only [hon, hfirst, Bool.not_true, Bool.or_self, if_neg Bool.false_ne_true]
  case missed =>
    intro s m m1 cp t hq hon hlast hover hm1
    subst hm1
    refine done_run hq ?_
    simp only [hon, hlast, decide_eq_true hover, Bool.not_true, Bool.or_self, if_neg Bool.false_ne_true]
  case resetEnd =>
    intro s m cp hq hstep hover
    exact done_run hq (if_pos ⟨hstep, hover⟩)
  case replayFailed =>
    intro s m cp e hq hstep he hoptional
    exact done_run hq ((if_neg (not_not.mpr hstep)).trans (if_neg (not_or.mpr ⟨Nat.not_le.mpr he, ne_true_of_eq_false hoptional⟩)))
  case replayed =>
    intro s m cp hq hstep hover
    exact done_run hq ((if_neg (not_not.mpr hstep)).trans (if_neg (Nat.not_lt.mpr hover)))
  case restart =>
    intro s m cp hq hadm hon
    exact done_write (eff := fun _ => wCpRestart cp) hq hadm (wCpRestart_enabled hon)
  case peak =>
    intro s m cp ty hq hreads
    exact done_read hq hreads
  case start =>
    intro s m m1 cp num vc r hq harmed hm1 hrecord hvc hline hcurrent
    refine done_run hq ?_
    simp only [harmed, Mach.camHeader, ← hm1, hrecord, hvc, hline, hcurrent, Bool.not_true, ne_eq, not_true_eq_false,
      Option.isSome_none, if_neg Bool.false_ne_true, if_false]
  case row =>
    intro s m cp vc dt r bad pix hq harmed hrecord hline hvc hdt
    refine done_run hq ?_
    simp only [harmed, Mach.camHeader, hrecord, hvc, hdt, hline, Bool.false_and, Bool.not_true, ne_eq, not_true_eq_false, or_self,
      if_neg Bool.false_ne_true, if_false]
  case frameEnd =>
    intro s m cp vc r f hq harmed hreceiving hrecord hline hvc hcurrent
    refine done_run hq ?_
    simp only [harmed, Mach.camHeader, hreceiving, hrecord, hvc, hline, hcurrent, Bool.not_true, Bool.or_self, ne_eq,
      not_true_eq_false, Bool.false_eq_true, or_self, if_false, decide_eq_true_eq]
  case armedTimeout =>
    intro s m cp hq hstep hover hfirst
    refine done_run hq ?_
    simp only [hstep, if_neg (Nat.not_lt.mpr hover), hfirst, Bool.not_false, if_true]
    rfl
  case readyTimeout =>
    intro s m cp t hq hstep hsource hdue hover
    refine done_run hq ?_
    simp only [hstep, if_neg hsource, hdue, decide_eq_true hover, if_true]
    rfl

end

section
/-! The analogue subsystem: trackers and settings. -/

namespace Sys2Proof.Machine

open Sys2Proof

/-! ### Trackers (R314) -/

section trackers

variable (m : Mach) (t : Nat)

/-- The four objects of a tracker after a write of them. -/
theorem tracker_puts (lo hi n fl : Nat) (m' : Mach)
    (h : m' = m.puts [(K.AN_MM_MIN t, lo), (K.AN_MM_MAX t, hi), (K.AN_MM_COUNT t, n), (K.AN_MM_FLAGS t, fl)]) :
    m'.g (K.AN_MM_MIN t) = lo ∧ m'.g (K.AN_MM_MAX t) = hi ∧ m'.g (K.AN_MM_COUNT t) = n ∧ m'.g (K.AN_MM_FLAGS t) = fl := by
  subst h
  simp [Mach.puts, Mach.put_g, K.AN_MM_MIN, K.AN_MM_MAX, K.AN_MM_COUNT, K.AN_MM_FLAGS]

theorem mmFeed_values (code : Nat) (flag : Bool) :
    (m.mmFeed t code flag).g (K.AN_MM_MIN t) = min (m.g (K.AN_MM_MIN t)) code
    ∧ (m.mmFeed t code flag).g (K.AN_MM_MAX t) = max (m.g (K.AN_MM_MAX t)) code
    ∧ (m.mmFeed t code flag).g (K.AN_MM_COUNT t) = (m.g (K.AN_MM_COUNT t) + 1) % 2 ^ 32
    ∧ (m.mmFeed t code flag).g (K.AN_MM_FLAGS t) = m.g (K.AN_MM_FLAGS t) ||| b2n flag :=
  tracker_puts m t _ _ _ _ _ rfl

theorem mmReset_values :
    (m.mmReset t).g (K.AN_MM_MIN t) = 4095 ∧ (m.mmReset t).g (K.AN_MM_MAX t) = 0 ∧ (m.mmReset t).g (K.AN_MM_COUNT t) = 0
    ∧ (m.mmReset t).g (K.AN_MM_FLAGS t) = 0 :=
  tracker_puts m t _ _ _ _ _ rfl

end trackers

/-! ### Settings -/

section settings

variable {m : Mach}

theorem wAnSeqTable_sound {v : Nat} (h : anTableOk v = true) :
    wAnSeqTable v m = ({ m.put K.AN_SEQ_TABLE v with an := { m.an with staged := some (v, m.time + 1) } }, .ok) := by
  unfold wAnSeqTable
  rw [if_neg (by simp [h])]

theorem wAnAccFilter_known {a v : Nat} (hmode : v % 4 ≠ 3) (hk : v / 4 % 16 ≤ 8) :
    wAnAccFilter a v m = ((m.put (K.AN_ACC_FILTER a) v).accReset a, .ok) :=
  if_neg (by omega)

/-- A change of a channel's gain discards its next two conversions (R310). -/
theorem wAnChCfg_gain (ch v : Nat) :
    wAnChCfg ch v m = (if bits (m.g (K.AN_CH_CFG ch)) 2 1 = bits v 2 1 then m.put (K.AN_CH_CFG ch) v
      else { m.put (K.AN_CH_CFG ch) v with an := { m.an with
        gainDiscard := (ch, 2) :: m.an.gainDiscard.filter (fun (p : Nat × Nat) => decide (p.1 ≠ ch)) } }, .ok) := by
  unfold wAnChCfg
  dsimp only
  split <;> rfl

/-- A slice's lower offset bound not above the upper one is stored, and a frozen slice resumes (R303). -/
theorem wSliceBound_offsetLower {sl v : Nat} (h : sext 16 v ≤ sext 16 (m.g (K.AN_SL_OFS_MAX sl))) :
    wSliceBound sl 0 v m = ((m.put (K.AN_SL_OFS_MIN sl) v).sliceResume sl, .ok) := by
  have hne : K.AN_SL_OFS_MAX sl ≠ K.AN_SL_OFS_MIN sl := by simp [K.AN_SL_OFS_MAX, K.AN_SL_OFS_MIN]
  have hw : (0 : Nat) < 2 := by decide
  unfold wSliceBound
  simp only [if_pos hw, sliceBoundKey, Mach.gi, Mach.put_g_same, Mach.put_g_other m hne, if_neg (Int.not_lt.mpr h)]

/-- A slice's upper gain bound not below the lower one is stored, and a frozen slice resumes (R303). -/
theorem wSliceBound_gainUpper {sl v : Nat} (h : sext 32 (m.g (K.AN_SL_GAIN_MIN sl)) ≤ sext 32 v) :
    wSliceBound sl 3 v m = ((m.put (K.AN_SL_GAIN_MAX sl) v).sliceResume sl, .ok) := by
  have hne : K.AN_SL_GAIN_MIN sl ≠ K.AN_SL_GAIN_MAX sl := by simp [K.AN_SL_GAIN_MIN, K.AN_SL_GAIN_MAX]
  have hw : ¬ (3 : Nat) < 2 := by decide
  unfold wSliceBound
  simp only [if_neg hw, sliceBoundKey, Mach.gi, Mach.put_g_same, Mach.put_g_other m hne, if_neg (Int.not_lt.mpr h)]

end settings

end Sys2Proof.Machine

open Sys2Proof Sys2Proof.Machine

/-- Settles O12: a feed and a reset each write the tracker's four objects, and both accesses end in the reset. -/
theorem trackers : Obligations.Trackers := by
  refine ⟨mmFeed_values, ?fresh, ?read, ?reset⟩
  case fresh =>
    intro m t code flag hcode
    obtain ⟨hmin, hmax, hcount, hflags⟩ := mmFeed_values (m.mmReset t) t code flag
    obtain ⟨rmin, rmax, rcount, rflags⟩ := mmReset_values m t
    rw [hmin, hmax, hcount, hflags, rmin, rmax, rcount, rflags]
    exact ⟨Nat.min_eq_right hcode, Nat.zero_max code, rfl, Nat.zero_or _⟩
  case read =>
    intro s m t ty hq hreads
    exact done_read hq hreads
  case reset =>
    intro s m t hq hadm
    exact done_write (eff := fun _ => onOne (fun m => m.mmReset t)) hq hadm (onOne_one _ m)

/-- Settles O46: each write passes its card and the checks of its chapter. That a reset accumulator reads 0, that mode 3 is refused and the
sequencer's table (R307) are as log entries 204 and 205 say. -/
theorem analogueSettingsComplete : Obligations.AnalogueSettingsComplete := by
  refine ⟨?table, ?channel, ?filter, ?accReset, ?mmReset, ?mmMax, ?unfreeze, ?offset, ?gain⟩
  case table =>
    intro s m data v hq hadm hsound
    exact done_write (eff := fun _ => wAnSeqTable) hq hadm (wAnSeqTable_sound hsound)
  case channel =>
    intro s m ch v hq hadm
    exact done_write (eff := fun _ => wAnChCfg ch) hq hadm (wAnChCfg_gain ch v)
  case filter =>
    intro s m a v hq hadm hmode hk
    exact done_write (eff := fun _ => wAnAccFilter a) hq hadm (wAnAccFilter_known hmode hk)
  case accReset =>
    intro s m a hq hadm
    exact done_write (eff := fun _ => onOne (fun m => m.accReset a)) hq hadm (onOne_one _ m)
  case mmReset =>
    intro s m t hq hadm
    exact done_write (eff := fun _ => onOne (fun m => m.mmReset t)) hq hadm (onOne_one _ m)
  case mmMax =>
    intro s m t ty hq hreads
    exact done_read hq hreads
  case unfreeze =>
    intro s m sl hq hadm hfrozen
    exact done_write (eff := fun _ => onOne (fun m => m.sliceResume sl)) hq hadm (congrArg (fun m : Mach => (m, Status.ok)) (if_pos hfrozen))
  case offset =>
    intro s m sl v hq hadm hle
    exact done_write (eff := fun _ => wSliceBound sl 0) hq hadm (wSliceBound_offsetLower hle)
  case gain =>
    intro s m sl v hq hadm hle
    exact done_write (eff := fun _ => wSliceBound sl 3) hq hadm (wSliceBound_gainUpper hle)

end

section
/-! Requests and frames of Hywex Link sessions. -/

namespace Sys2Proof.Machine

open Sys2Proof

/-! ### Reads of objects (R332) -/

section read

variable {x : Mem} {m m2 : Mach} {e n : Nat} {f : RxFrame} {corr : List Nat} {r : ObjRow} {bs : List Byte}
  (hlen : 12 ≤ f.payload.length) (hwindow : canWindow (payKey f.payload) = none) (hrow : objRow (payKey f.payload) = some r)
  (hn : n = min (payCount f.payload) (m.frameLimit e - 28)) (hread : m.readObj x (payKey f.payload) n corr = (m2, .ok, bs))
include hlen hwindow hrow hn hread

/-- A value no longer than wanted is read whole. -/
theorem hwxRead_value (htype : r.ty.isDomain = false) (hoffset : payOffset f.payload = 0) (hfits : bs.length ≤ payCount f.payload) :
    m.hwxRead x e f corr = (m2, some (.ok, bs, false)) := by
  have hok : ¬ Status.ok ≠ Status.ok := not_not.mpr rfl
  unfold Mach.hwxRead
  simp only [if_neg (Nat.not_lt.mpr hlen), hwindow, Option.isSome_none, if_neg Bool.false_ne_true, ← hn, hread, if_neg hok, hrow,
    htype, hoffset, if_neg (not_not.mpr (Eq.refl 0)), if_neg (Nat.not_lt.mpr hfits)]

/-- A part of a DOMAIN that others follow leaves the machine as it was. -/
theorem hwxRead_part {part : List Byte} (htype : r.ty.isDomain = true) (hpart : part = (bs.drop (payOffset f.payload)).take n)
    (hmore : payOffset f.payload + part.length < bs.length) : m.hwxRead x e f corr = (m, some (.ok, part, true)) := by
  have hok : ¬ Status.ok ≠ Status.ok := not_not.mpr rfl
  unfold Mach.hwxRead
  simp only [if_neg (Nat.not_lt.mpr hlen), hwindow, Option.isSome_none, if_neg Bool.false_ne_true, ← hn, hread, if_neg hok, hrow,
    htype, if_true, ← hpart, if_pos hmore, decide_eq_true hmore]

/-- The last part of a DOMAIN ends its read. -/
theorem hwxRead_lastPart {part : List Byte} (htype : r.ty.isDomain = true) (hpart : part = (bs.drop (payOffset f.payload)).take n)
    (hlast : bs.length ≤ payOffset f.payload + part.length) : m.hwxRead x e f corr = (m2, some (.ok, part, false)) := by
  have hok : ¬ Status.ok ≠ Status.ok := not_not.mpr rfl
  have hmore := Nat.not_lt.mpr hlast
  unfold Mach.hwxRead
  simp only [if_neg (Nat.not_lt.mpr hlen), hwindow, Option.isSome_none, if_neg Bool.false_ne_true, ← hn, hread, if_neg hok, hrow,
    htype, if_true, ← hpart, if_neg hmore, decide_eq_false hmore]

end read

/-! ### Writes of objects (R332, R319) -/

/-- A write that its card admits is judged by its effect, of the value taken. -/
theorem judgeWrite_taken {m : Mach} {k : Nat} {bs : List Byte} {r : ObjRow} {eff : Nat → Mach → WriteResult}
    (hreach : m.reach (urgentKey k) = .open_) (hstatus : m.objStatus k = .ok) (hrow : objRow k = some r) (hjudge : r.judge bs = .ok) :
    m.judgeWrite k bs eff = eff (m.taken k r.ty (r.ty.encode bs)).1 (m.taken k r.ty (r.ty.encode bs)).2 := by
  unfold Mach.judgeWrite
  rw [hreach, hstatus, hrow]
  simp only [hjudge]

/-- A write that its card admits and whose effect accepts it: answered at its tick, or OK at once. -/
theorem writeObj_taken {x : Mem} {d : ReplyTo} {m m2 : Mach} {k : Nat} {bs : List Byte} {r : ObjRow}
    (hreach : m.reach (urgentKey k) = .open_) (hstatus : m.objStatus k = .ok) (hrow : objRow k = some r) (hjudge : r.judge bs = .ok)
    (heff : effOf x d k (m.taken k r.ty (r.ty.encode bs)).1 (m.taken k r.ty (r.ty.encode bs)).2 = (m2, .ok)) :
    m.writeObj x d k bs = (m2, if answersAtTick k then none else some .ok) := by
  unfold Mach.writeObj
  rw [judgeWrite_taken hreach hstatus hrow hjudge, heff]
  simp

section write

variable {x : Mem} {m m2 : Mach} {i k : Nat} {f : RxFrame} {r : ObjRow} {data : List Byte}
  (hlen : 12 ≤ f.payload.length) (hkey : payKey f.payload = k) (hdata : f.payload.drop 12 = data)
  (hcount : data.length = payCount f.payload) (hoffset : payOffset f.payload = 0) (hrow : objRow k = some r)
  (hwritable : r.acc.writable = true) (hreach : m.reach (urgentKey k) = .open_) (hstatus : m.objStatus k = .ok)
include hlen hkey hdata hcount hoffset hrow hwritable hreach hstatus

/-- A whole value that is no DOMAIN is written. -/
theorem hwxWrite_value (hwhole : f.more = false) (htype : r.ty.isDomain = false) :
    m.hwxWrite x i f = m.hwxStore x i f k data := by
  have hsize : ¬ (f.payload.length < 12 ∨ data.length ≠ payCount f.payload) := by omega
  unfold Mach.hwxWrite
  simp only [hkey, hdata, if_neg hsize, hreach, hstatus, hrow, hwritable, htype, hoffset, hwhole, Bool.not_true, Bool.not_false,
    ne_eq, not_true_eq_false, if_false, if_neg Bool.false_ne_true, if_true]

/-- The first part of a DOMAIN that others follow is kept with the session. -/
theorem hwxWrite_part (hmore : f.more = true) (htype : r.ty.isDomain = true) (hfits : r.ty.over data.length = false) :
    m.hwxWrite x i f = (m.setDomain i (some (k, data)), some (.ok, leBytes 4 0, false)) := by
  have hsize : ¬ (f.payload.length < 12 ∨ data.length ≠ payCount f.payload) := by omega
  unfold Mach.hwxWrite
  simp only [hkey, hdata, if_neg hsize, hreach, hstatus, hrow, hwritable, htype, hoffset, hmore, hfits, List.nil_append, Bool.not_true,
    ne_eq, not_true_eq_false, if_false, if_neg Bool.false_ne_true, if_true]

end write

/-! ### Memory windows (R333) -/

/-- A read below the flash window. -/
theorem memRead_mapped {x : Mem} {m m2 : Mach} {w off n a : Nat} {corr : List Nat} {bs : List Byte} (haddr : m.winAddr w off n = some a)
    (hmapped : m.mapped a n = true) (hlow : a < 0x110000000) (hbytes : m.winBytes x a n = (bs, m2)) :
    m.memRead x w off n corr = (m2, .ok, bs) := by
  unfold Mach.memRead
  simp only [haddr, hmapped, Bool.true_eq_false, if_false, hbytes, if_neg (Nat.not_le.mpr hlow)]

theorem memWrite_host {m : Mach} {w off a : Nat} {bs : List Byte} (haddr : m.winAddr w off bs.length = some a)
    (hwritable : m.gb (K.MEM_WRITABLE w) = true) (hmapped : m.mapped a bs.length = true) (hhost : inHostArea a bs.length = true) :
    m.memWrite w off bs = (m.storeBytes a bs, .ok) := by
  unfold Mach.memWrite
  simp only [haddr, hwritable, hmapped, hhost, Bool.true_eq_false, if_false]

/-! ### Frames that are asked -/

/-- The session of a request that is served. -/
theorem Mach.Asks.session {m m1 : Mach} {e op i : Nat} {f : RxFrame} {x : Session} (h : m.Asks e op f i x m1) :
    ∃ y, m1.session i = some y ∧ y.timeout = x.timeout ∧ y.pd = x.pd := by
  obtain ⟨-, -, -, -, hsession, -, hm1⟩ := h
  obtain ⟨y, hy, htimeout, hpd, -⟩ := remember_session hsession hm1
  exact ⟨y, hy, htimeout, hpd⟩

/-- A request that is no session's is served from the machine without it. -/
theorem serve_next {m : Mach} {e op : Nat} {f : RxFrame} {run : RxFrame → Mach → Mach} (hopen : m.enOpen e = true)
    (hnext : m.rxNext e = some f) (hop : f.op = op) : m.serve e op run = run f (m.rxPop e f) := by
  unfold Mach.serve
  simp only [hopen, hnext, hop, Bool.not_true, if_neg Bool.false_ne_true, if_true]

end Sys2Proof.Machine

open Sys2Proof Sys2Proof.Machine

/-- Settles O47: what each operation does with a request's payload, given to the service of a session. A read that wants more bytes than
the value has gets the value (log entry 214); the response goes before the events (log entry 11). -/
theorem sessionRequestsComplete : Obligations.SessionRequestsComplete := by
  refine ⟨?value, ?domain, ?write, ?segment, ?memRead, ?memWrite, ?close⟩
  case value =>
    intro s m m1 m2 en i corr f x r bs hq hasks hlen hwindow hrow htype hoffset hread hfits
    refine done_run hq (serve_asked hasks rfl (.inl (by decide)) ?_)
    exact hwxRead_value hlen hwindow hrow rfl hread htype hoffset hfits
  case domain =>
    intro s m m1 m2 en i n corr f x r bs part hq hasks hlen hwindow hrow htype hn hread hpart
    refine ⟨fun hmore => ?_, fun hlast => ?_⟩
    · refine done_run hq (serve_asked hasks rfl (.inl (by decide)) ?_)
      exact hwxRead_part hlen hwindow hrow hn hread htype hpart hmore
    · refine done_run hq (serve_asked hasks rfl (.inl (by decide)) ?_)
      exact hwxRead_lastPart hlen hwindow hrow hn hread htype hpart hlast
  case write =>
    intro s m m1 m2 en i k data f x r hq hasks hlen hkey hdata hcount hoffset hwhole hrow hwritable htype hreach hstatus hjudge heff
    have hwrite := hwxWrite_value (x := s.mem) (i := i) hlen hkey hdata hcount hoffset hrow hwritable hreach hstatus hwhole htype
    have hobj := writeObj_taken hreach hstatus hrow hjudge heff
    refine ⟨fun htick hlate => ?_, fun htick => ?_⟩
    · rw [htick, if_neg Bool.false_ne_true] at hobj
      refine done_run hq (serve_asked hasks (by rw [hkey, hdata, hlate]) (.inl (by decide)) (hwrite.trans ?_))
      unfold Mach.hwxStore
      simp only [hobj]
    · rw [htick, if_pos rfl] at hobj
      refine done_run hq (serve_silent hasks (.inr rfl) (hwrite.trans ?_))
      unfold Mach.hwxStore
      simp only [hobj]
  case segment =>
    intro s m m1 m2 en i k data f x r hq hasks hlen hkey hdata hcount hoffset hmore hrow hwritable htype hfits hreach hstatus hlate hm2
    subst hm2
    refine done_run hq (serve_asked hasks (by rw [hkey, hdata, hlate]) (.inl (by decide)) ?_)
    exact hwxWrite_part hlen hkey hdata hcount hoffset hrow hwritable hreach hstatus hmore htype hfits
  case memRead =>
    intro s m m1 m2 en i w a n corr f x bs hq hasks hlen hreach hw hn hmost haddr hmapped hlow hbytes
    refine done_run hq (serve_asked hasks rfl (.inl (by decide)) ?_)
    simp only [if_neg (Nat.not_lt.mpr hlen), hreach, hw, hn, if_neg (Nat.not_lt.mpr hmost), ne_eq, not_true_eq_false, if_false,
      memRead_mapped haddr hmapped hlow hbytes]
  case memWrite =>
    intro s m m1 en i w a f x data hq hasks hlen hreach hw hdata hcount hmost haddr hwritable hmapped hhost
    refine done_run hq (serve_asked hasks rfl (.inl (by decide)) ?_)
    simp only [hdata, hcount, ne_eq, not_true_eq_false, or_false, if_neg (Nat.not_lt.mpr hlen), hreach, hw, if_false,
      if_neg (Nat.not_lt.mpr hmost), memWrite_host haddr hwritable hmapped hhost]
  case close =>
    intro s m m1 en i f x hq hasks hreach
    refine done_run hq (serve_asked hasks rfl (.inr (by decide)) ?_)
    simp only [hreach, ne_eq, not_true_eq_false, if_false]

/-- Settles O48: the frames that a session sends without an answer are served in silence, and OPEN is no session's yet. The rising session
numbers are log entry 215, an OPEN with a timeout as the first sight of the host log entry 216. -/
theorem sessionFramesComplete : Obligations.SessionFramesComplete := by
  refine ⟨?ack, ?heartbeat, ?pd, ?opened⟩
  case ack =>
    intro s m m1 en i f x hq hasks hlen
    refine done_run hq (serve_silent hasks (.inr rfl) ?_)
    exact if_neg (Nat.not_lt.mpr hlen)
  case heartbeat =>
    intro s m m1 en i f x hq hasks
    obtain ⟨y, hy, htimeout, -⟩ := hasks.session
    refine done_run hq (serve_silent hasks (.inr rfl) ?_)
    simp only [hy, htimeout]
  case pd =>
    intro s m m1 en i n data f x hq hasks hpd hn hlen hnumber hcount hwhole hdata hon hroute
    obtain ⟨y, hy, -, hypd⟩ := hasks.session
    have hasked : y.pd = true := hypd.trans hpd
    refine done_run hq (serve_silent hasks (.inr rfl) ?_)
    simp only [hy, hasked, hnumber, hcount, hwhole, hdata, hon, hroute]
    exact if_neg (by simp [hn, hlen])
  case opened =>
    intro s m m0 m1 m2 en i n f x hq hopen hnext hop hm0 hreach hlen hfree hn hx hm1 hm2 e he m3 hm3
    refine done_run hq ((serve_next hopen hnext hop).trans ?_)
    subst hm3 hm2 hm1 hx hn hm0
    simp only [hreach, ne_eq, not_true_eq_false, if_false, if_neg (Nat.not_lt.mpr hlen), hfree, he]

end

section
/-! Ethernet and CAN ports, process data, device time, and a write of any object. -/

namespace Sys2Proof.Machine

open Sys2Proof

/-! ### Ethernet ports (R328-R334) -/

section ethernet

variable {m : Mach} {e : Nat}

/-- A valid frame of a request without a session joins the queue of its class. -/
theorem rxHywex_queued {addr udp tc : Nat} {p : List Byte} (hvalid : hwxValid p = true) (hallowed : m.hwxAllowed addr = true)
    (hreserved : hwxReserved p = false)
    (hclass : hwxClass (le p 3 1) (le p 2 1 / 16 % 4) (bit (le p 11 1) 1) (p.drop 16) = (tc, false))
    (hslot : m.slotOf e (le p 6 2) addr udp = none) :
    m.rxHywex e addr udp p = m.rxQueue e { tc, op := le p 3 1, seq := le p 4 2, session := le p 6 2, more := bit (le p 11 1) 1, addr, udp
                                           payload := p.drop 16 } := by
  unfold Mach.rxHywex
  simp only [hvalid, hallowed, hreserved, hclass, hslot, Bool.not_true, Bool.or_self, if_neg Bool.false_ne_true, one_ne_zero, if_false]

/-- A queue that is not full takes the request at its end. -/
theorem rxQueue_room {f : RxFrame} (h : ((m.net.rx.getD e []).filter (fun (q : RxFrame) => q.tc == f.tc)).length < rxRoom f.tc) :
    m.rxQueue e f = { m with net := { m.net with rx := m.net.rx.set e (m.net.rx.getD e [] ++ [f]) } } :=
  if_neg (Nat.not_le.mpr h)

theorem setLink_up {v : Nat} (hup : 0 < v) (hnew : m.g (K.NET_LINK e) ≠ v) :
    m.setLink e v = ((m.put (K.NET_LINK e) v).raise 0x2F81 [e, v]).enRefresh e := by
  have hv : ¬ v = 0 := by omega
  unfold Mach.setLink
  simp only [if_neg hnew, if_neg hv]

theorem wPortEnable_dhcp {m0 m1 : Mach} (hm0 : m0 = (m.put (K.NET_PORT_ENABLE e) 1).sample (enKeys e))
    (hm1 : m1 = { m0 with net := { m0.net with hwxPort := m0.net.hwxPort.set e (m0.g K.NET_HWX_PORT) } })
    (hdhcp : m1.enDhcp e = true) : wPortEnable e 1 m = (m1.enRefresh e, .ok) := by
  unfold wPortEnable
  simp only [if_true, ← hm0, ← hm1, hdhcp]

end ethernet

/-! ### Transfers by SDO (R337) -/

section sdo

variable {x : Mem} {m m1 : Mach} {cf k : Nat} (hout : m.out = []) (hopen : m.sdoOpen cf = true)
include hout hopen

/-- An upload is answered before what the read put out. -/
theorem sdo_upload {count : Nat} {corr : List Nat} {bs : List Byte} (hread : m.readObj x k count corr = (m1, .ok, bs)) :
    m.sdo x cf false k count [] corr = { m1 with out := Out.sdo cf 0 bs :: m1.out } := by
  unfold Mach.sdo
  simp [hopen, hread, hout, Status.abort]

/-- A download that its effect accepts is answered before what it put out. -/
theorem sdo_download {data : List Byte} (hwrite : m.writeObj x (.sdo cf) k data = (m1, some .ok))
    (hlate : answersLate k data = false) :
    m.sdo x cf true k 0 data [] = { m1 with out := Out.sdo cf 0 (m1.writeAnswer k data) :: m1.out } := by
  unfold Mach.sdo
  simp [hopen, hwrite, hout, hlate, Status.abort]

end sdo

/-! ### SYNC (R341) -/

/-- What a SYNC does for one TPDO. -/
def Mach.tpdoSync (m : Mach) (n : Nat) : Mach :=
  let ty := m.g (K.CIA_TPDO_TYPE n)
  if !(m.pdoOn (8 + n)) || m.pdoRoute (8 + n) == 1 then m
  else if ty = 0 then
    (if m.net.tpdoSent.getD n none == some (m.tpdoData n) then m else m.tpdoSend n true false)
  else if ty ≤ 240 then
    let c := m.net.syncCount.getD n 0 + 1
    let m := { m with net := { m.net with syncCount := m.net.syncCount.set n (if ty ≤ c then 0 else c) } }
    if ty ≤ c then m.tpdoSend n true false else m
  else m

section sync

variable {m : Mach} {n : Nat}

/-- A SYNC in Operational without an RPDO that waits is that of the eight TPDOs. -/
theorem sync_tpdos {s : State} (hq : s.quiet = m) (hopen : m.canOpen 0 = true) (hop : m.net.nmt = .operational)
    (hnone : ∀ n, m.net.rpdoHeld.getD n none = none) : exec .sync s = .next (s.settle (upto 8 m Mach.tpdoSync)) := by
  have hrun : ¬ (!m.canOpen 0 || m.net.nmt != .operational) = true := by simp [hopen, hop]
  refine done_run hq ((if_neg hrun).trans ?_)
  rw [upto_id 8 m _ fun n _ => by simp only [hnone n]]
  rfl

theorem tpdoSync_off (h : m.pdoOn (8 + n) = false) : m.tpdoSync n = m :=
  if_pos (by simp [h])

/-- A TPDO of a cyclic type is sent at the last SYNC of its cycle. -/
theorem tpdoSync_cycle {m1 : Mach} {ty : Nat} (hon : m.pdoOn (8 + n) = true) (hroute : m.pdoRoute (8 + n) ≠ 1)
    (hty : m.g (K.CIA_TPDO_TYPE n) = ty) (hpos : 0 < ty) (htop : ty ≤ 240) (hcount : m.net.syncCount.getD n 0 + 1 = ty)
    (hm1 : m1 = { m with net := { m.net with syncCount := m.net.syncCount.set n 0 } }) :
    m.tpdoSync n = m1.tpdoSend n true false := by
  have hsent : ¬ (!m.pdoOn (8 + n) || m.pdoRoute (8 + n) == 1) = true := by simp [hon, hroute]
  have hcyclic : ¬ ty = 0 := by omega
  subst hm1
  unfold Mach.tpdoSync
  simp only [if_neg hsent, hty, if_neg hcyclic, if_pos htop, hcount, if_pos (Nat.le_refl ty)]

end sync

/-! ### Error states of the CAN ports (R347) and PTP (R345) -/

section states

variable {m : Mach}

/-- A change of a port's error state other than into bus off. -/
theorem setCanState_change {p st : Nat} (hnew : m.g (K.NET_CAN_STATE p) ≠ st) (hbus : st ≠ 2) :
    m.setCanState p st = ((m.put (K.NET_CAN_STATE p) st).raise 0x2F88 [p, st]).canRefresh p := by
  unfold Mach.setCanState
  simp only [if_neg hnew, if_neg hbus]

theorem setPtp_change {v : Nat} (h : m.g K.NET_PTP_STATE ≠ v) : m.setPtp v = (m.put K.NET_PTP_STATE v).raise 0x2F8A [v] :=
  if_neg h

end states

end Sys2Proof.Machine

open Sys2Proof Sys2Proof.Machine

/-- Settles O49: each command finds its port, its session or its period as its rule asks. Retry and gathering of events are R335, the
events of link and address R348; which frames are bad or allowed is log entries 210 to 212. -/
theorem portCommandsComplete : Obligations.PortCommandsComplete := by
  refine ⟨?frame, ?stopAll, ?retry, ?gather, ?heartbeat, ?timeout, ?link, ?address, ?enable⟩
  case frame =>
    intro s m en data hq hopen
    have hrun : ¬ (!m.enOpen en) = true := by simp [hopen]
    refine ⟨?bad, ?queued⟩
    case bad =>
      intro hkind
      refine done_run hq ((if_neg hrun).trans ?_)
      simp only [hkind]
      rfl
    case queued =>
      intro addr udp p tc op f hkind hvalid hallowed hreserved hop hclass hslot hf hroom
      subst hop hf
      refine done_run hq ((if_neg hrun).trans ?_)
      simp only [hkind]
      exact (rxHywex_queued hvalid hallowed hreserved hclass hslot).trans (rxQueue_room hroom)
  case stopAll =>
    intro s m hq hadm
    exact done_write (eff := fun _ => onOne Mach.stopAll) hq hadm (onOne_one _ m)
  case retry => exact fun s m hq => done_run hq rfl
  case gather =>
    intro s m hq
    refine done_run hq (congrArg (upto 4 m) ?_)
    funext m i
    cases h : (m.ev.slots.getD i {}).gather with
    | none => simp
    | some t => simp
  case heartbeat =>
    intro s m m1 hq hreach hdue hready hm1
    have hrun : ¬ (m.reach true ≠ .open_ ∨ m.time < m.net.hbSent + 1000 * m.g K.NET_HB_PERIOD) := by simp [hreach, hdue]
    subst hm1
    refine done_run hq ((if_neg hrun).trans ?_)
    simp only [Mach.hbState, hready]
  case timeout =>
    intro s m slot x hq hsession htimeout hover hup
    have hrun : ¬ (x.timeout = 0 ∨ m.time < x.lastSeen + 1000 * x.timeout ∨ m.dictUp = false) := by simp [htimeout, hover, hup]
    refine done_run hq ?_
    simp only [hsession]
    exact if_neg hrun
  case link =>
    intro s m en speed hq hreach henable hup hnew
    exact done_run hq ((if_pos ⟨hreach, henable⟩).trans (setLink_up hup hnew))
  case address =>
    intro s m m1 en addr hq hreach henable hdhcp hm1
    subst hm1
    exact done_run hq (if_neg (by simp [hreach, henable, hdhcp]))
  case enable =>
    intro s m m0 m1 en hq hadm hm0 hm1 hdhcp
    exact done_write (eff := fun _ => wPortEnable en) hq hadm (wPortEnable_dhcp hm0 hm1 hdhcp)

/-- Settles O50: messages are taken by a port that is not in bus off, PDOs in Operational, and a SYNC sends the one TPDO that is due. RPDOs
that wait for SYNC and one too long are log entry 218, SYNC in Operational only log entry 220. -/
theorem canCommandsComplete : Obligations.CanCommandsComplete := by
  refine ⟨?nmt, ?upload, ?download, ?syncNone, ?syncOne, ?time, ?rpdo, ?timer, ?heartbeat, ?lapse, ?host, ?emcy, ?memory⟩
  case nmt =>
    intro s m hq hopen
    have hrun : ¬ (!m.canOpen 0) = true := by simp [hopen]
    refine ⟨done_run hq (if_pos hopen), done_run hq (if_pos hopen), done_run hq (if_pos hopen), done_run hq (if_pos hopen),
      fun henable => ?_, fun henable => ?_⟩
    · exact done_run hq ((if_neg hrun).trans (if_pos henable))
    · exact done_run hq ((if_neg hrun).trans (if_neg (by simp [henable])))
  case upload =>
    intro s m m1 cf index sub count corr bs hq hopen hread
    exact done_run hq (sdo_upload (by rw [← hq, quiet_out]) hopen hread)
  case download =>
    intro s m m1 cf index sub k data r hq hopen hk hrow hreach hstatus hjudge heff htick hlate
    subst hk
    have hwrite := writeObj_taken hreach hstatus hrow hjudge heff
    rw [htick, if_neg Bool.false_ne_true] at hwrite
    exact done_run hq (sdo_download (by rw [← hq, quiet_out]) hopen hwrite hlate)
  case syncNone =>
    intro s m hq hopen hop hnone hoff
    rw [sync_tpdos hq hopen hop hnone, upto_id _ _ _ fun n hn => tpdoSync_off (hoff n hn)]
  case syncOne =>
    intro s m m1 n ty hq hopen hop hnone hn hon hroute hoff hty hpos htop hcount hm1
    rw [sync_tpdos hq hopen hop hnone, upto_at 8 n m _ _ hn (fun k hk => tpdoSync_off (hoff k (by omega) (by omega)))
      (tpdoSync_cycle hon hroute hty hpos htop hcount hm1) (fun k hk hlt => tpdoSync_off ?_)]
    rw [tpdo_pdoOn, hm1]
    exact hoff k hlt (by omega)
  case time =>
    intro s m data hq hopen
    exact done_run hq (if_pos hopen)
  case rpdo =>
    intro s m n data hq hopen hop hon hroute hfits
    have hrun : ¬ (!m.canOpen 0 || m.net.nmt != .operational || !m.pdoOn n || m.pdoRoute n != 0
        || decide (m.pdoLimit n < data.length)) = true := by simp [hopen, hop, hon, hroute, hfits]
    refine ⟨fun hsync => ?_, fun hevent => ?_⟩
    · exact done_run hq ((if_neg hrun).trans (if_pos hsync))
    · exact done_run hq ((if_neg hrun).trans (if_neg (Nat.not_le.mpr hevent)))
  case timer =>
    intro s m n t hq hup hon ht hpos hdue htype
    have hrun : ¬ (!m.dictUp || !m.pdoOn (8 + n) || t == 0 || decide (m.time < m.net.tpdoLast.getD n 0 + 1000 * t)) = true := by
      rw [hup, hon, decide_eq_false (Nat.not_lt.mpr hdue), beq_false_of_ne (Nat.ne_of_gt hpos)]
      decide
    subst ht
    refine done_run hq ((if_neg hrun).trans ?_)
    rw [decide_eq_true htype]
  case heartbeat =>
    intro s m m1 t hq hreach ht hpos hdue hm1 hok hoff
    have hrun : ¬ (m.reach true ≠ .open_ ∨ t = 0 ∨ m.time < m.net.canHbLast + 1000 * t) := by
      simp [hreach, hdue]
      omega
    subst ht
    refine done_run hq ((if_neg hrun).trans ?_)
    subst hm1
    simp only [Mach.canSend, if_neg hok, Mach.freeBelow]
    exact if_pos hoff
  case lapse =>
    intro s m t hq hlast hset hlapsed hover m1 hm1
    have hrun : ¬ (m.cfHostSet = false ∨ m.net.hbLapsed = true ∨ m.time < t + 1000 * m.cfHostTime) := by simp [hset, hlapsed, hover]
    subst hm1
    refine done_run hq ?_
    simp only [hlast]
    exact if_neg hrun
  case host =>
    intro s m m1 hq hopen hset hm1
    subst hm1
    exact done_run hq (if_neg (by simp [hopen, hset]))
  case emcy => exact fun s m node data hq => done_run hq rfl
  case memory =>
    intro s m m1 cf win count corr bs hq hopen hread
    exact done_run hq (sdo_upload (by rw [← hq, quiet_out]) hopen hread)

/-- Settles O51: a port's error state and PTP's state change when they differ from the new one. Bus-off recovery is R347, PTP's states are
R345, CF1's state is R338, the acknowledgement R335; an Announce that leaves HOLDOVER and the free NET_PTP_RATE are log entry 222, that
NET_CAN_RECOVER only marks the port is log entry 221. -/
theorem canErrorsAndTimeComplete : Obligations.CanErrorsAndTimeComplete := by
  refine ⟨?error, ?recovery, ?recover, ?restart0, ?restart1, ?ack, ?ptp, ?holdover⟩
  case error =>
    intro s m cf tec rec_ hq hreach hstate
    have hkeys : K.NET_CAN_STATE cf ≠ K.NET_CAN_ERR cf := by simp [K.NET_CAN_STATE, K.NET_CAN_ERR]
    refine done_run hq ((if_neg (by simp [hreach, hstate])).trans (setCanState_change ?_ (by decide)))
    rw [Mach.put_g_other _ hkeys, hstate]
    decide
  case recovery =>
    intro s m cf hq hstate hauto
    exact done_run hq (if_pos ⟨hstate, .inl hauto⟩)
  case recover =>
    intro s m cf hq hadm hstate
    exact done_write (eff := fun _ => onOne (fun m => m.canRecover cf)) hq hadm (congrArg (fun m : Mach => (m, Status.ok)) (if_pos hstate))
  case restart0 =>
    intro s m hq hadm
    exact done_write (eff := fun _ => onOne (fun m => m.canRestart 0)) hq hadm (onOne_one _ m)
  case restart1 =>
    intro s m hq hadm
    exact done_write (eff := fun _ => onOne (fun m => m.canRestart 1)) hq hadm (onOne_one _ m)
  case ack =>
    intro s m v hq hadm
    exact done_write (eff := fun _ => wCanAck) hq hadm rfl
  case ptp =>
    intro s m en domain offset hq hreach henable hport hdomain
    have hmine : ¬ (m.reach true ≠ .open_ ∨ m.gb K.NET_PTP_ENABLE = false ∨ m.h K.NET_PTP_PORT ≠ en
        ∨ m.h K.NET_PTP_DOMAIN ≠ domain) := by simp [hreach, henable, hport, hdomain]
    refine ⟨?announce, ?sync⟩
    case announce =>
      intro hstate
      exact done_run hq ((if_neg hmine).trans ((if_pos rfl).trans ((if_pos hstate).trans (setPtp_change (by omega)))))
    case sync =>
      intro m1 hstate hm1 m2 hm2 hstep htol
      have huncal : ¬ (m.g K.NET_PTP_STATE ≠ 2 ∧ m.g K.NET_PTP_STATE ≠ 3) := by omega
      refine done_run hq ((if_neg hmine).trans ((if_neg (by decide)).trans ((if_neg huncal).trans ?_)))
      simp only [Mach.freeBelow, ← hm1, ← hm2, if_neg hstep, if_pos htol]
  case holdover =>
    intro s m hq hstate
    exact done_run hq ((if_pos (.inr hstate)).trans (setPtp_change (by omega)))

/-- Settles O55: a write that passes its card is given to the effect of its sub-index, and the tick answers one of AX_REFRESH. -/
theorem objectWriteCompletes : Obligations.ObjectWriteCompletes := by
  refine ⟨?atOnce, ?atTick⟩
  case atOnce =>
    intro s m m1 index sub v data hq htick hadm heff
    subst hq
    rw [objectWrite_runs rfl htick, hostWrite_answered hadm heff]
  case atTick =>
    intro s m m1 index sub v data hq htick hreach hadm heff
    subst hq
    have hsilent : ¬ s.quiet.reach false = .silent := by simp [hreach]
    refine done_run rfl ((if_pos htick).trans ((if_neg hsilent).trans ?_))
    unfold Mach.writeObj
    rw [judgeWrite_admits _ hadm, heff]
    simp [htick]

end

section
/-! Firmware banks, the flash controller, protection and the event log, attestation. -/

namespace Sys2Proof.Machine

open Sys2Proof

/-! ### Banks (R363-R366) -/

section banks

variable {x : Mem} {m m1 : Mach}

/-- A PROGRAM whose image passes marks its slot, and the bank's job joins those that wait. -/
theorem bankProgram_passes {img : List Byte} {h slot f n : Nat} (htrial : m.flash.trial = false) (hbusy : m.bankBusy = false)
    (hswap : ¬ (m.sup = .recovery ∧ m.dev.swapAt.isSome = true)) (hhost : inHostArea (m.g K.NV_BANK_SRC) (m.g K.NV_BANK_LEN) = true)
    (hbytes : m.hostBytes x (m.g K.NV_BANK_SRC) (m.g K.NV_BANK_LEN) = (img, m1)) (hcause : m1.imageCause img = 0)
    (hh : h = ofLe (img.take 256)) (hslot : slot = fld h 4 1 - 1) (hblocks : slotBlocks (2 * (1 - m.flash.active) + slot) = (f, n))
    (hwp : ∀ i, i < n → m1.wp (f + i) = false) (hreserved : h &&& headerReserved = 0) :
    m.bankProgram x = (((((m1.slotBad (2 * (1 - m.flash.active) + slot)).puts [(K.NV_BANK_FAIL, 0), (K.NV_BANK_PROGRESS, 0)]).flashAdd
      (.bank (1 - m.flash.active) slot (img.take (fld h 0xC 4 + 256)))).setReady rdyFlash vUpdating), .ok) := by
  have hidle : ¬ (m.flash.trial = true ∨ m.bankBusy = true ∨ (m.sup = .recovery ∧ m.dev.swapAt.isSome = true)) := by
    simp [htrial, hbusy, hswap]
  have hjudged : m1.imageJudged img = (0, m1) := by
    subst hh
    exact (if_pos hreserved).trans (by rw [hcause])
  have hwritable : ¬ (List.range n).any (fun i => m1.wp (f + i)) = true := by simpa using hwp
  unfold Mach.bankProgram
  simp only [if_neg hidle, hhost, Bool.true_eq_false, hbytes, hjudged, ne_eq, not_true_eq_false, if_false, ← hh, ← hslot, hblocks,
    if_neg hwritable]

/-- A SWAP to a VALID bank that suits every cluster begins a trial: event 0x3023, what is gathered, and the restart. -/
theorem bankSwap_valid (htrial : m.flash.trial = false) (hvalid : m.bankValid (1 - m.flash.active) = true) (hbusy : m.bankBusy = false)
    (hclusters : ∀ k, k < m.nClusters → m.ready (rdyCluster k) ≠ vUpdating)
    (hgen : m.sup = .recovery ∨ m.genOutside (1 - m.flash.active) = false)
    (hm1 : m1 = (Mach.journalPage { m with flash := { m.flash with active := 1 - m.flash.active, trial := true } }).raise
      0x3023 [1 - m.flash.active]) :
    m.bankSwap = ((upto 4 m1 Mach.sendGathered).supDown .swapping, .ok) := by
  have hloads : ¬ (m.bankValid (1 - m.flash.active) = false ∨ m.bankBusy = true
      ∨ (List.range m.nClusters).any (fun k => m.ready (rdyCluster k) == vUpdating) = true) := by
    simpa [hvalid, hbusy] using hclusters
  have hsuits : ¬ (m.sup ≠ .recovery ∧ m.genOutside (1 - m.flash.active) = true) := by
    rcases hgen with h | h <;> simp [h]
  subst hm1
  unfold Mach.bankSwap
  simp only [htrial, if_neg Bool.false_ne_true, if_neg hloads, if_neg hsuits]

theorem bankConfirm_trial (h : m.flash.trial = true) :
    m.bankConfirm = ((Mach.journalPage { m with flash := { m.flash with trial := false } }).raise 0x3025 [], .ok) :=
  if_neg (by simp [h])

end banks

/-! ### The controller (R373-R378) -/

section controller

variable {m m1 : Mach}

theorem flashProgrammed_userPage {b p : Nat} {d : List Byte} {rest : List FlashJob} (hjobs : m.flash.jobs = .userProg b p d :: rest)
    (hbegun : m.flash.begun = true) : m.flashProgrammed none = (m.flashPop.userPage b p d none).flashStart := by
  unfold Mach.flashProgrammed
  simp only [hjobs, hbegun, Bool.and_self, if_true]

/-- Without a page in progress the first record that waits reaches the log. -/
theorem flashProgrammed_logRecord {r : EvRec} {rest : List EvRec} (hjobs : m.flash.jobs = []) (hqueue : m.ev.logQueue = r :: rest)
    (hlog : m.logWritable = true) (hm1 : m1 = { m with ev := { m.ev with logQueue := rest } }) :
    m.flashProgrammed none = (m1.logAppend (some (m.logBytes r))).flashStart := by
  have hwaits : (m.ev.logQueue != [] && m.logWritable) = true := by rw [hqueue, hlog]; rfl
  subst hm1
  unfold Mach.flashProgrammed
  simp only [hjobs, Bool.false_and, if_neg Bool.false_ne_true, if_pos hwaits]
  simp only [Mach.logProgrammed, hqueue]

theorem flashErased_user {b : Nat} {rest : List FlashJob} (hjobs : m.flash.jobs = .userErase b :: rest) (hbegun : m.flash.begun = true) :
    m.flashErased none = ((m.flashPop.eraseBlk b).opEnd 0).flashStart := by
  unfold Mach.flashErased
  simp only [hjobs, FlashJob.eraseBlock, hbegun, Mach.erasedThen]

/-- A blank block that no job waits for is replaced by the lowest free spare. -/
theorem replaceBlk_blank {b k : Nat} {spares : List Nat} {g : Migr} {rest : List Migr} (hmigr : m.flash.migr = g :: rest)
    (hblock : g.block = b) (hblank : g.blank = true) (hjob : g.job = none) (hspares : m.freeSpares = k :: spares)
    (hm1 : m1 = { m with flash := { m.flash with
      blks := m.flash.blks.set k { erases := (m.flash.blks.getD k {}).erases }
      map := m.flash.map.filter (fun (p : Nat × Nat) => p.1 ≠ b) ++ [(b, k)], migr := rest
      weak := m.flash.weak.set b false } }) :
    m.replaceBlk false [] = (m1.journalPage.raise 0x3003 [b, k]).flashStart := by
  subst hm1 hblock
  unfold Mach.replaceBlk
  simp only [hmigr, hspares, if_neg Bool.false_ne_true, hblank, Bool.true_or, if_true, hjob]

end controller

/-! ### User operations (R380) -/

section user

variable {x : Mem} {m m1 m2 : Mach} {b : Nat} (hblock : m.g K.NV_OP_BLOCK = b) (hlow : 70 ≤ b) (hhigh : b ≤ 127)
  (hidle : m.g K.NV_OP_STATE ≠ 1) (hwp : m.wp b = false) (hm1 : m1 = m.puts [(K.NV_OP_STATE, 1), (K.NV_OP_FAIL, 0)])
  (hsound : m1.blkFailed b = false)
include hblock hlow hhigh hidle hwp hm1 hsound

theorem wNvOp_erase : wNvOp x 1 m = (m1.flashAdd (.userErase b), .ok) := by
  have huser : ¬ (b < 70 ∨ 127 < b) := by omega
  have hfree : ¬ (m.g K.NV_OP_STATE = 1 ∨ m.wp b = true) := by simp [hidle, hwp]
  have herase : ¬ ((1 : Nat) = 2 ∧ (256 < m.g K.NV_OP_PAGE + m.g K.NV_OP_PAGES
      ∨ inHostArea (m.g K.NV_OP_SRC) (256 * m.g K.NV_OP_PAGES) = false)) := by simp
  unfold wNvOp
  simp only [hblock, if_neg huser, if_neg herase, if_neg hfree, ← hm1, hsound, if_neg Bool.false_ne_true, if_true]

theorem wNvOp_program {bs : List Byte} (hpages : m.g K.NV_OP_PAGE + m.g K.NV_OP_PAGES ≤ 256)
    (hhost : inHostArea (m.g K.NV_OP_SRC) (256 * m.g K.NV_OP_PAGES) = true)
    (hbytes : m1.hostBytes x (m.g K.NV_OP_SRC) (256 * m.g K.NV_OP_PAGES) = (bs, m2)) :
    wNvOp x 2 m = (m2.flashAdd (.userProg b (m.g K.NV_OP_PAGE) bs), .ok) := by
  have huser : ¬ (b < 70 ∨ 127 < b) := by omega
  have hfree : ¬ (m.g K.NV_OP_STATE = 1 ∨ m.wp b = true) := by simp [hidle, hwp]
  have hinside : ¬ (256 < m.g K.NV_OP_PAGE + m.g K.NV_OP_PAGES
      ∨ inHostArea (m.g K.NV_OP_SRC) (256 * m.g K.NV_OP_PAGES) = false) := by simp [hhost, hpages]
  have hprogram : ¬ (2 : Nat) = 1 := by decide
  unfold wNvOp
  simp only [hblock, if_neg huser, true_and, if_neg hinside, if_neg hfree, ← hm1, hsound, if_neg Bool.false_ne_true, if_neg hprogram, hbytes]

end user

/-! ### Protected configuration, OTP row and event log (R383, R386, R390) -/

section protection

variable {m m1 : Mach}

theorem wProtCtrl_store {r : Nat} (hunlocked : bit (fld m.prot 6 1) 0 = false) (hidle : m.g K.NV_PROT_STATE ≠ 1)
    (hrange : protInRange (m.g K.NV_PROT_STAGE) = true)
    (hr : r = protSealed (setFld (m.g K.NV_PROT_STAGE) 0 4 (fld m.prot 0 4 + 1))) (hm1 : m1 = m.put K.NV_PROT_STATE 1)
    (hsound : m1.blkFailed m.protTarget = false) :
    wProtCtrl 2 m = (m1.flashAdd (.protErase m.protTarget r), .ok) := by
  have hstore : ¬ (2 : Nat) = 1 := by decide
  have hfree : ¬ (bit (fld m.prot 6 1) 0 = true ∨ m.g K.NV_PROT_STATE = 1) := by simp [hunlocked, hidle]
  unfold wProtCtrl
  simp only [if_neg hstore, if_neg hfree, hrange, Bool.true_eq_false, if_false, ← hr, ← hm1, hsound, if_neg Bool.false_ne_true]

/-- Where no bit fails to verify, the bits that are new are added to the customer part of the row. -/
theorem wOtpCustomer_verified {v new : Nat} (hunlocked : bit m.flash.otp 4095 = false) (hwarm : 0 ≤ m.gi 16 K.DEV_DIE_TEMP)
    (hcool : m.gi 16 K.DEV_DIE_TEMP ≤ 85 * 16) (hnew : new = v &&& (2 ^ 512 - 1 - (m.flash.otp / 256 ^ 0x1C0) % 2 ^ 512))
    (hm1 : m1 = { m with flash := { m.flash with otp := m.flash.otp + new * 256 ^ 0x1C0 } }) :
    wOtpCustomer none v m = (m1.put K.NV_OTP_STATE 0, .ok) := by
  have hfree : ¬ (bit m.flash.otp 4095 = true ∨ m.gi 16 K.DEV_DIE_TEMP < 0 ∨ 85 * 16 < m.gi 16 K.DEV_DIE_TEMP) := by
    rintro (h | h | h)
    · exact ne_true_of_eq_false hunlocked h
    · exact absurd hwarm (not_le.mpr h)
    · exact absurd hcool (not_le.mpr h)
  subst hm1 hnew
  exact if_neg hfree

/-- A clear begins with the first usable log block, which no job erases yet. -/
theorem wLogClear_begins {b : Nat} {bs : List Nat} (hidle : m.flash.logClear = [])
    (hblocks : (List.range 4).filter (fun b => !(m.blkFailed (66 + b))) = b :: bs)
    (hm1 : m1 = { m with flash := { m.flash with logClear := b :: bs } })
    (hfree : ∀ j, j ∈ m1.flash.jobs → j.eraseBlock ≠ some (66 + b)) :
    wLogClear 1 m = (m1.flashAdd (.logErase (66 + b)), .ok) := by
  have hnone : ¬ m.flash.jobs.any (fun j => j.eraseBlock == some (66 + b)) = true := by
    subst hm1
    simpa using hfree
  have hone : ¬ (1 : Nat) ≠ 1 := by decide
  unfold wLogClear
  simp only [if_neg hone, if_neg (not_not.mpr hidle), hblocks, ← hm1, if_neg hnone]

end protection

/-- A byte of a number below a power of 256 is that of the remainder. -/
theorem fld_mod_pow {i k : Nat} (h : i < k) (x : Nat) : fld (x % 256 ^ k) i 1 = fld x i 1 := by
  conv_rhs => rw [← Nat.mod_add_div x (256 ^ k), fld_low h]

end Sys2Proof.Machine

open Sys2Proof Sys2Proof.Machine

/-- Settles O54: each command finds the bank as its rule asks. That no generation stands against a SWAP in recovery mode and that the
gathered events go out with it are log entry 236, that an accepted PROGRAM clears NV_BANK_FAIL is log entry 235. -/
theorem bankCommandsComplete : Obligations.BankCommandsComplete := by
  refine ⟨?program, ?programmed, ?swap, ?confirm⟩
  case program =>
    intro s m m1 img h slot f n hq hadm htrial hbusy hswap hhost hbytes hcause hh hslot hblocks hwp hreserved
    exact done_write (eff := wBankCtrl) hq hadm
      (bankProgram_passes htrial hbusy hswap hhost hbytes hcause hh hslot hblocks hwp hreserved)
  case programmed =>
    intro s m m1 m2 b slot f n img hq hjob hblocks hm1 hm2
    subst hm2 hm1
    refine done_run hq ?_
    simp only [hjob, hblocks]
    rfl
  case swap =>
    intro s m m1 hq hadm htrial hvalid hbusy hclusters hgen hm1
    exact done_write (eff := wBankCtrl) hq hadm (bankSwap_valid htrial hvalid hbusy hclusters hgen hm1)
  case confirm =>
    intro s m hq hadm htrial
    exact done_write (eff := wBankCtrl) hq hadm (bankConfirm_trial htrial)

/-- Settles O13: the vendor part reads with a field of 0 in place of the key, which leaves every other byte, and the challenge's effect is
the response. -/
theorem attestation : Obligations.Attestation := by
  refine ⟨?vendor, ?challenge⟩
  case vendor =>
    intro s m cf count v corr hq hopen hreach hstatus hv
    subst hv
    obtain ⟨hkey, hother⟩ := setFld_zero (m.flash.otp % 256 ^ 448) 0x60 32
    refine ⟨?read, hkey, ?bytes⟩
    case read =>
      rw [exec_sdoTransfer]
      exact done_run hq (sdo_read (by rw [← hq, quiet_out]) hopen (read_vendor count corr hreach hstatus))
    case bytes =>
      intro i hi hout
      rw [hother i hout, fld_mod_pow hi]
  case challenge =>
    intro s m data v hq hadm
    exact done_write (eff := fun _ => wAttest) hq hadm rfl

/-- Settles O56: the controller's first job, or without one the first log record, is what an end is of. That a replaced block is no longer
WEAK is log entry 259, its journal page log entry 250, which operation an end belongs to log entry 251. -/
theorem flashCommandsComplete : Obligations.FlashCommandsComplete := by
  refine ⟨?page, ?record, ?erased, ?replaced, ?erase, ?program⟩
  case page =>
    intro s m b p d rest hq hjobs hbegun
    exact done_run hq (flashProgrammed_userPage hjobs hbegun)
  case record =>
    intro s m m1 r rest hq hjobs hqueue hlog hm1
    exact done_run hq (flashProgrammed_logRecord hjobs hqueue hlog hm1)
  case erased =>
    intro s m b rest hq hjobs hbegun
    exact done_run hq (flashErased_user hjobs hbegun)
  case replaced =>
    intro s m m1 b k spares g rest hq hmigr hblock hblank _ hjob hspares hm1
    exact done_run hq (replaceBlk_blank hmigr hblock hblank hjob hspares hm1)
  case erase =>
    intro s m b hq hadm hblock hlow hhigh hidle hwp m1 hm1 hsound
    exact done_write (eff := wNvOp) hq hadm (wNvOp_erase hblock hlow hhigh hidle hwp hm1 hsound)
  case program =>
    intro s m m1 m2 b bs hq hadm hblock hlow hhigh hpages hhost hidle hwp hm1 hsound hbytes
    exact done_write (eff := wNvOp) hq hadm (wNvOp_program hblock hlow hhigh hidle hwp hm1 hsound hpages hhost hbytes)

/-- Settles O57: each write and read finds its conditions met. That EV_LOG_SELECT goes on modulo 65,536 and that a clear erases the usable
blocks in ascending order are log entry 256, the range by DEV_DIE_TEMP is log entry 254. -/
theorem protectionAndLogComplete : Obligations.ProtectionAndLogComplete := by
  refine ⟨?low, ?high, ?load, ?store, ?otp, ?read, ?clear⟩
  case low =>
    intro s m v hq hadm
    exact done_write (eff := fun _ => wWpLo) hq hadm rfl
  case high =>
    intro s m v hq hadm hlog
    exact done_write (eff := fun _ => wWpHi) hq hadm (if_neg (not_not.mpr hlog))
  case load =>
    intro s m hq hadm
    exact done_write (eff := fun _ => wProtCtrl) hq hadm (if_pos rfl)
  case store =>
    intro s m m1 r hq hadm hunlocked hidle hrange hr hm1 hsound
    exact done_write (eff := fun _ => wProtCtrl) hq hadm (wProtCtrl_store hunlocked hidle hrange hr hm1 hsound)
  case otp =>
    intro s m m1 data v new hq hadm hunlocked hwarm hcool hnew hm1
    exact done_write (eff := fun _ => wOtpCustomer none) hq hadm (wOtpCustomer_verified hunlocked hwarm hcool hnew hm1)
  case read =>
    intro s m ty hq hreads
    exact done_read hq hreads
  case clear =>
    intro s m m1 b bs hq hadm hidle hblocks hm1 hfree
    exact done_write (eff := fun _ => wLogClear) hq hadm (wLogClear_begins hidle hblocks hm1 hfree)

end

section
/-! The serial ports. -/

namespace Sys2Proof.Machine

open Sys2Proof

/-! ### Writes of the ports' objects (R394, R397, R398, R401, R405) -/

section writes

variable {x : Mem} {m m1 m2 : Mach} {u v : Nat}

/-- A port that runs is taken off. -/
theorem wUaMode_off (hon : m.g (K.UA_MODE u) ≠ 0)
    (hm1 : m1 = m.modUart u (fun y =>
      { y with rx := [], tx := [], started := false, waitHigh := false, waitCts := false, lost := false, txUsed := false,
               breaking := false, rtsHigh := true, breakEnd := none, inBreak := false })) :
    wUaMode x u 0 m = ((m1.put (K.UA_MODE u) 0).uaRates u, .ok) := by
  subst hm1
  unfold wUaMode
  simp only [Nat.not_lt_zero, if_false, if_neg (Ne.symm hon), if_true]

/-- A port that is off is enabled in a mode that it has with the divider that the mode asks, its rings in the host area. -/
theorem wUaMode_on (hoff : m.g (K.UA_MODE u) = 0)
    (hmode : v = 1 ∨ (u < 2 ∧ ((v = 2 ∧ 3 ≤ m.g (K.UA_RL_DIV u)) ∨ (v = 3 ∧ 8 ≤ m.g (K.UA_RL_DIV u)))))
    (hrx : inHostArea (m.g (K.UA_RX_BASE u)) (2 * m.g (K.UA_RX_SIZE u)) = true)
    (htx : inHostArea (m.g (K.UA_TX_BASE u)) (m.g (K.UA_TX_SIZE u)) = true)
    (hm1 : m1 = (m.sample (uaEnableKeys u)).put (K.UA_MODE u) v)
    (hm2 : m2 = m1.modUart u (fun y =>
      { y with rx := [], tx := [], started := false, waitHigh := true, lost := false, txUsed := false,
               held := { div := m.g (K.UA_RL_DIV u), bits := m.g (K.UA_DATA_BITS u), parity := m.g (K.UA_PARITY u), stop := m.g (K.UA_STOP u) } })) :
    wUaMode x u v m = (((m2.uaRates u).uaRts u).uaPump x u, .ok) := by
  have hrange : ¬ 3 < v := by omega
  have hon : ¬ v = 0 := by omega
  have hrailaly : ¬ (2 ≤ v ∧ 2 ≤ u) := by omega
  have hdivider : ¬ ((v = 2 ∧ m.g (K.UA_RL_DIV u) < 3) ∨ (v = 3 ∧ m.g (K.UA_RL_DIV u) < 8)) := by omega
  subst hm2 hm1
  unfold wUaMode
  simp only [if_neg hrange, hoff, if_neg hon, ne_eq, not_true_eq_false, if_false, if_neg hrailaly, if_neg hdivider, hrx, htx,
    Bool.true_eq_false, or_self]

theorem uaRailaly_native (h : m.g (K.UA_MODE u) < 2) : m.uaRailaly u = false :=
  decide_eq_false (Nat.not_le.mpr h)

theorem wUaFormat_native {k : Nat} (h : m.g (K.UA_MODE u) < 2) : wUaFormat u k v m = (m.put k v, .ok) :=
  if_neg (by simp [uaRailaly_native h])

theorem wUaRlDiv_native (hv : 3 ≤ v) (h : m.g (K.UA_MODE u) < 2) : wUaRlDiv u v m = ((m.put (K.UA_RL_DIV u) v).uaRates u, .ok) := by
  have hkeys : K.UA_MODE u ≠ K.UA_RL_DIV u := by simp [K.UA_MODE, K.UA_RL_DIV]
  have hrange : ¬ (v < 3 ∨ (m.g (K.UA_MODE u) = 3 ∧ v < 8)) := by omega
  have hnative : (m.put (K.UA_RL_DIV u) v).uaRailaly u = false := uaRailaly_native (by rwa [Mach.put_g_other _ hkeys])
  unfold wUaRlDiv
  simp only [if_neg hrange, hnative, if_neg Bool.false_ne_true]

theorem wUaTxWr_forward (hv : v < m.uaSize u (K.UA_TX_SIZE u))
    (hforward : ringDist (m.uaSize u (K.UA_TX_SIZE u)) (m.g (K.UA_TX_RD u)) (m.g (K.UA_TX_WR u))
      ≤ ringDist (m.uaSize u (K.UA_TX_SIZE u)) (m.g (K.UA_TX_RD u)) v) :
    wUaTxWr x u v m = ((m.put (K.UA_TX_WR u) v).uaPump x u, .ok) :=
  if_neg (not_or.mpr ⟨Nat.not_le.mpr hv, Nat.not_lt.mpr hforward⟩)

end writes

/-! ### The receiver (R395, R396, R398) -/

/-- An entry goes to a ring that has room and is not empty, which raises no event. -/
theorem uaRingStore_stored {m m1 m2 : Mach} {u e size wr rd : Nat} {rest : List Nat} (hrx : (m.uart u).rx = e :: rest)
    (hon : m.g (K.UA_MODE u) ≠ 0) (hsize : m.h (K.UA_RX_SIZE u) = size) (hwr : m.g (K.UA_RX_WR u) % size = wr)
    (hrd : m.g (K.UA_RX_RD u) % size = rd) (hroom : (wr + 1) % size ≠ rd) (hfilled : wr ≠ rd)
    (hm1 : m1 = m.storeNum (m.h (K.UA_RX_BASE u) + 2 * wr) 2 e) (hm2 : m2 = m1.modUart u (fun x => { x with rx := rest })) :
    m.uaRingStore u = (m2.put (K.UA_RX_WR u) ((wr + 1) % size)).uaRts u := by
  have htaken : ¬ (m.g (K.UA_MODE u) = 0 ∨ (wr + 1) % size = rd) := not_or.mpr ⟨hon, hroom⟩
  have hquiet (p : Prop) : ¬ (wr = rd ∧ p) := fun h => hfilled h.1
  unfold Mach.uaRingStore
  simp only [hrx, hsize, hwr, hrd, if_neg htaken, ← hm1, ← hm2]
  exact if_neg (hquiet _)

end Sys2Proof.Machine

open Sys2Proof Sys2Proof.Machine

/-- Settles O58: each write finds its port in a mode that admits it, and what the samples decide chooses what becomes of a character. That
UA_RL_DIV is judged as at least 3 while a port is off or native is log entry 272; a discarded character whose errors are not judged and
ring indices at or above the size are log entry 271. -/
theorem uartCommandsComplete : Obligations.UartCommandsComplete := by
  refine ⟨?off, ?on, ?rate, ?format, ?divider, ?released, ?written, ?break_, ?startEdge, ?character, ?stored, ?sent, ?cts⟩
  case off =>
    intro s m m1 u hq hadm hon hm1
    exact done_write (eff := fun x => wUaMode x u) hq hadm (wUaMode_off hon hm1)
  case on =>
    intro s m m1 m2 u v hq hadm hoff hmode hrx htx hm1 hm2
    exact done_write (eff := fun x => wUaMode x u) hq hadm (wUaMode_on hoff hmode hrx htx hm1 hm2)
  case rate =>
    intro s m u v hq hadm hlow hhigh
    exact done_write (eff := fun _ => wUaRate u) hq hadm (if_neg (by omega))
  case format =>
    intro s m u v hq hnative
    refine ⟨fun hadm => ?_, fun hadm => ?_, fun hadm => ?_⟩
    · exact done_write (eff := fun _ => wUaFormat u (K.UA_DATA_BITS u)) hq hadm (wUaFormat_native hnative)
    · exact done_write (eff := fun _ => wUaFormat u (K.UA_PARITY u)) hq hadm (wUaFormat_native hnative)
    · exact done_write (eff := fun _ => wUaFormat u (K.UA_STOP u)) hq hadm (wUaFormat_native hnative)
  case divider =>
    intro s m u v hq hadm hv hnative
    exact done_write (eff := fun _ => wUaRlDiv u) hq hadm (wUaRlDiv_native hv hnative)
  case released =>
    intro s m u v hq hadm hv hdist
    exact done_write (eff := fun _ => wUaRxRd u) hq hadm (if_neg (not_or.mpr ⟨Nat.not_le.mpr hv, Nat.not_lt.mpr hdist⟩))
  case written =>
    intro s m m1 u v cts hq hadm hm1 hv hdist
    subst hm1
    exact done_write (eff := fun x v m => wUaTxWr x u v (m.modUart u (fun y => { y with ctsHigh := cts }))) hq hadm
      (wUaTxWr_forward hv hdist)
  case break_ =>
    intro s m u hq hadm
    exact done_write (eff := fun x => wUaTxBreak x u) hq hadm rfl
  case startEdge =>
    intro s m m1 u sample hq hon hidle hm1
    have hbegins : ¬ (m.g (K.UA_MODE u) = 0 ∨ (m.uart u).started = true) := by simp [hon, hidle]
    subst hm1
    refine ⟨fun hhigh => ?_, fun hlow => ?_⟩
    · exact done_run hq ((if_neg hbegins).trans (if_pos hhigh))
    · exact done_run hq ((if_neg hbegins).trans (if_neg (ne_true_of_eq_false hlow)))
  case character =>
    intro s m m1 u data par samples set stop hq hstarted hset hdata hpar hstop hm1
    have hreceiving : ¬ (m.uart u).started = false := by simp [hstarted]
    subst hset
    refine ⟨?overrun, ?broken, ?entry⟩
    case overrun =>
      intro hfull
      refine done_run hq ((if_neg hreceiving).trans ?_)
      simp only [← hdata, ← hpar, ← hstop, ← hm1, if_pos hfull]
    case broken =>
      intro hroom hbreak
      refine done_run hq ((if_neg hreceiving).trans ?_)
      simp only [← hdata, ← hpar, ← hstop, ← hm1, if_neg (Nat.not_le.mpr hroom), if_pos hbreak]
    case entry =>
      intro hroom hno pe m2 m3 m4 hpe hm2 hm3 hm4
      subst hpe
      simp only [decide_eq_true_eq] at hm2 hm3
      refine done_run hq ((if_neg hreceiving).trans ?_)
      simp only [← hdata, ← hpar, ← hstop, ← hm1, if_neg (Nat.not_le.mpr hroom), if_neg hno, ← hm2, ← hm3, ← hm4, Bool.or_eq_true,
        decide_eq_true_eq, Bool.not_eq_true']
  case stored =>
    intro s m m1 m2 u e size wr rd rest hq hrx hon hsize hwr hrd hroom hfilled hm1 hm2
    exact done_run hq (uaRingStore_stored hrx hon hsize hwr hrd hroom hfilled hm1 hm2)
  case sent =>
    intro s m m1 m2 u cts hq hsending hm1 hm2
    have hbusy : ¬ (m.uart u).sending.isNone = true := by simpa [Option.isNone_iff_eq_none, Option.isSome_iff_ne_none] using hsending
    refine ⟨?more, ?last⟩
    case more =>
      intro hmore
      refine done_run hq ((if_neg hbusy).trans ?_)
      simp only [← hm1, hm2, hmore, false_and, if_false]
    case last =>
      intro hempty hused hon
      refine done_run hq ((if_neg hbusy).trans ?_)
      simp only [← hm1, hm2]
      exact congrArg (Mach.uaPump s.mem u) (if_pos ⟨hempty, hused, hon⟩)
  case cts =>
    intro s m u hq
    exact done_run hq rfl

end
section
/-! The supply monitor, the die temperature and the power estimate. -/

namespace Sys2Proof.Machine

open Sys2Proof

/-! ### Signed words -/

/-- A number within the range of w bits reads back from its two's complement. -/
theorem sext_ofInt {w : Nat} {t : Int} (hlo : -(2 ^ (w - 1) : Nat) ≤ t) (hhi : t < (2 ^ (w - 1) : Nat)) (hw : 2 ^ w = 2 * 2 ^ (w - 1)) :
    sext w (ofInt w t) = t := by
  unfold sext ofInt
  rw [hw]
  generalize 2 ^ (w - 1) = half at *
  have hword : (t % ((2 * half : Nat) : Int)).toNat % (2 * half) = (t % ((2 * half : Nat) : Int)).toNat := by
    have hpos := Int.emod_lt_of_pos t (show (0 : Int) < (2 * half : Nat) by omega)
    exact Nat.mod_eq_of_lt (by omega)
  by_cases hneg : t < 0
  · have hword' : t % ((2 * half : Nat) : Int) = t + (2 * half : Nat) := by
      rw [← Int.add_emod_right, Int.emod_eq_of_lt (by omega) (by omega)]
    simp only [hword]
    split <;> omega
  · have hword' : t % ((2 * half : Nat) : Int) = t := Int.emod_eq_of_lt (by omega) (by omega)
    simp only [hword]
    split <;> omega

/-- A reading in the range of the sensor reads back from the object it is stored in. -/
theorem sext_ofInt_reading {t : Int} (hlo : -800 ≤ t) (hhi : t ≤ 2800) : sext 16 (ofInt 16 t) = t :=
  sext_ofInt (by norm_num; omega) (by norm_num; omega) rfl

/-! ### The supply monitor (R412, R413) -/

section supply

variable {s : State} {m m1 m2 m3 : Mach} {mv : Nat}

theorem vmonWarning_runs (hq : s.quiet = m) (hlow : mv < m.g K.DEV_VMON_WARN) (hrun : m.sup ≠ .reset)
    (hm1 : m1 = { m.vmonSeen mv with vmonLow := true }) (hm2 : m2 = { m1 with dev := { m1.dev with
      warnAt := m1.dev.warnAt ++ [m1.time], warnFrom := if m1.g K.DEV_VMON_STATE = 0 then m1.time else m1.dev.warnFrom } })
    (hm3 : m3 = (m2.put K.DEV_VMON_STATE 1).count K.DEV_VMON_WARNINGS) :
    exec (.vmonWarning mv) s = .next (s.settle
      ((((m3.raise 0x200A [m3.g K.DEV_VMON_LEVEL]).spoilPrinting 6 .next).allStrobesOff.refreshSL).itemsMoved)) := by
  subst hm3 hm2 hm1
  exact done_run hq (if_neg (not_or.mpr ⟨Nat.not_le.mpr hlow, hrun⟩))

theorem vmonRecover_runs (hq : s.quiet = m) (hwarned : m.g K.DEV_VMON_STATE ≠ 0) (hhigh : m.g K.DEV_VMON_RECOVER < mv)
    (hrun : m.sup ≠ .reset) (hm1 : m1 = { m.vmonSeen mv with vmonLow := false })
    (hm2 : m2 = { m1 with dev := { m1.dev with warnAt := [] } }) :
    exec (.vmonRecover mv) s = .next (s.settle
      (((m2.put K.DEV_VMON_STATE 0).raise 0x200B [m2.time - m1.dev.warnFrom]).scanResume).refreshSL) := by
  subst hm2 hm1
  exact done_run hq (if_neg (by simp only [not_or]; exact ⟨hwarned, Nat.not_le.mpr hhigh, hrun⟩))

theorem vmonWindow_runs {t : Nat} {rest : List Nat} (hq : s.quiet = m) (hwarn : m.dev.warnAt = t :: rest) (hdue : t + 20000 ≤ m.time)
    (hm1 : m1 = { m with dev := { m.dev with warnAt := rest } }) :
    exec .vmonWindowExpired s = .next (s.settle
      (((((m1.put K.DEV_VMON_STATE 2).count K.DEV_VMON_STOPS).raise 0x200C []).controlledStop).itemsMoved)) := by
  refine done_run hq ?_
  subst hm1
  simp only [hwarn, if_neg (Nat.not_lt.mpr hdue)]

/-- A level below the reset threshold resets the device with cause 3. -/
theorem vmonReset_runs (hq : s.quiet = m) (hlow : mv < m.g K.DEV_VMON_RESET) :
    exec (.vmonReset mv) s = .next (s.settle (m.resetTo 3 0)) :=
  done_run hq (if_neg (Nat.not_le.mpr hlow))

end supply

/-! ### The die temperature (R418-R422) -/

section temperature

variable {s : State} {m m1 : Mach} {t : Int}

/-- The first reading, of a sensor that is sound, corrects the timings and governs throttle and shutdown. -/
theorem dieTempReading_first (hq : s.quiet = m) (hrun : m.sup ≠ .reset) (hlo : -800 ≤ t) (hhi : t ≤ 2800)
    (hsound : m.g K.DEV_SENSOR_BROKEN = 0) (hfirst : m.dev.tempSeen = false)
    (hm1 : m1 = { m.puti 16 K.DEV_DIE_TEMP_RAW t with dev := { m.dev with tempAt := m.time, sameAt := m.time } })
    (hmoves : m1.stuckSensor = false) :
    exec (.dieTempReading t false) s = .next (s.settle ((m1.compensate t).tempPolicy t)) := by
  subst hm1
  refine done_run hq ((if_neg hrun).trans ?_)
  have hnew : (m.dev.tempSeen && m.gi 16 K.DEV_DIE_TEMP_RAW == t) = false := by rw [hfirst, Bool.false_and]
  have hjudged (stuck : Bool) (h : stuck = false) : ¬ (t < -800 ∨ 2800 < t ∨ false = true ∨ stuck = true) := by
    simp only [h, Bool.false_eq_true, or_false]
    omega
  simp only [sext_ofInt_reading hlo hhi, hnew, if_neg Bool.false_ne_true]
  exact (if_neg (not_not.mpr ((Mach.puti_g_other m (by decide) _ _).trans hsound))).trans (if_neg (hjudged _ hmoves))

theorem sensorNoReading_runs (hq : s.quiet = m) (hrun : m.sup ≠ .reset) (hlate : m.dev.tempAt + 3000 ≤ m.time)
    (hsound : m.g K.DEV_SENSOR_BROKEN = 0) :
    exec .sensorNoReading s = .next (s.settle (((m.put K.DEV_SENSOR_BROKEN 1).raise 0x2009 [m.g K.DEV_DIE_TEMP_RAW]).tempPolicy 2016)) := by
  exact done_run hq ((if_neg (not_or.mpr ⟨hrun, Nat.not_lt.mpr hlate⟩)).trans (if_neg (not_not.mpr hsound)))

/-- The end of the grace, as the temperature in use says: the throttle is in force, or its request falls. -/
theorem throttleGraceEnd_runs {t : Nat} (hq : s.quiet = m) (hgrace : m.dev.graceAt = some t) (hdue : t ≤ m.time)
    (hasked : m.g K.DEV_THROTTLE_STATE = 1) :
    exec .throttleGraceEnd s = .next (s.settle
      (if 1600 ≤ m.gi 16 K.DEV_DIE_TEMP then m.throttle 1
      else { m.put K.DEV_THROTTLE_STATE 0 with dev := { m.dev with graceAt := none } })) := by
  refine done_run hq ?_
  have hends : ¬ (m.time < t ∨ m.g K.DEV_THROTTLE_STATE ≠ 1) := not_or.mpr ⟨Nat.not_lt.mpr hdue, not_not.mpr hasked⟩
  simp only [hgrace, if_neg hends]

theorem throttleRelease_runs {t : Nat} (hq : s.quiet = m) (hcool : m.dev.coolAt = some t) (hlong : t + 1000000 ≤ m.time)
    (hforce : m.g K.DEV_THROTTLE_STATE = 2) (hfree : m.g K.DEV_THROTTLE_FORCE = 0) :
    exec .throttleRelease s = .next (s.settle
      (((m.puts [(K.RD_CLOVE_MHZ, 1000), (K.DEV_THROTTLE_STATE, 0)]).raise 0x2006 []).itemsMoved)) := by
  refine done_run hq ?_
  have hends : ¬ (m.time < t + 1000000 ∨ m.g K.DEV_THROTTLE_STATE ≠ 2 ∨ m.g K.DEV_THROTTLE_FORCE ≠ 0) := by omega
  simp only [hcool, if_neg hends]

theorem wThrottleForce_forced : wThrottleForce 1 m = ((m.put K.DEV_THROTTLE_FORCE 1).throttle 3, .ok) := rfl

/-- A shutdown is cleared below 95.0 °C with a sound sensor. -/
theorem wShutdownClear_cleared (hcool : m.gi 16 K.DEV_DIE_TEMP < 1520) (hsound : m.g K.DEV_SENSOR_BROKEN = 0)
    (hshut : m.g K.DEV_SHUTDOWN ≠ 0) : wShutdownClear 1 m = (((m.put K.DEV_SHUTDOWN 0).raise 0x2008 []).refreshSL, .ok) :=
  (if_neg (not_not.mpr rfl)).trans ((if_neg (not_or.mpr ⟨Int.not_le.mpr hcool, not_not.mpr hsound⟩)).trans (if_neg hshut))

end temperature

/-! ### The power estimate (R409) -/

/-- What the power estimate takes for a nominal value: a free value of the 15 % about it. -/
def powerEstimated (fresh n : Nat) : Nat := n * 85 / 100 + Config.freeNat fresh % (n * 115 / 100 - n * 85 / 100 + 1)

theorem le_powerEstimated (fresh n : Nat) : n * 85 / 100 ≤ powerEstimated fresh n := Nat.le_add_right _ _

theorem powerEstimated_le (fresh n : Nat) : powerEstimated fresh n ≤ n * 115 / 100 := by
  have hdraw : Config.freeNat fresh % (n * 115 / 100 - n * 85 / 100 + 1) < n * 115 / 100 - n * 85 / 100 + 1 :=
    Nat.mod_lt _ (Nat.succ_pos _)
  unfold powerEstimated
  omega

end Sys2Proof.Machine

open Sys2Proof Sys2Proof.Machine

/-- Settles O59: what a further warning in STOPPING does, and that each warning has a window of its own, is the model's choice
(log entry 282), as are the duration counted from the first warning (log entry 126) and the level by the values reported (log
entry 284). The estimate is a free value within 15 %, which `powerEstimated` names. -/
theorem supplyAndThermalComplete : Obligations.SupplyAndThermalComplete := by
  refine ⟨?warning, ?recover, ?window, ?reset, ?level, ?clock, ?reading, ?missing, ?grace, ?release, ?force, ?clear, ?peak, ?power⟩
  case warning =>
    intro s m m1 m2 m3 mv hq hlow hrun hm1 hm2 hm3
    exact vmonWarning_runs hq hlow hrun hm1 hm2 hm3
  case recover =>
    intro s m m1 m2 mv hq hwarned hhigh hrun hm1 hm2
    exact vmonRecover_runs hq hwarned hhigh hrun hm1 hm2
  case window =>
    intro s m m1 t rest hq hwarn hdue hm1
    exact vmonWindow_runs hq hwarn hdue hm1
  case reset => exact fun s m mv hq hlow => vmonReset_runs hq hlow
  case level => exact fun s m ty hq hreads => done_read hq hreads
  case clock => exact fun s m c hq hc => done_run hq (if_neg hc)
  case reading =>
    intro s m m1 t hq hrun hlo hhi hsound hfirst hm1 hmoves
    exact dieTempReading_first hq hrun hlo hhi hsound hfirst hm1 hmoves
  case missing => exact fun s m hq hrun hlate hsound => sensorNoReading_runs hq hrun hlate hsound
  case grace =>
    intro s m t hq hgrace hdue hasked
    have hends := throttleGraceEnd_runs hq hgrace hdue hasked
    exact ⟨fun hhot => by rw [hends, if_pos hhot], fun hcool => by rw [hends, if_neg (Int.not_le.mpr hcool)]⟩
  case release => exact fun s m t hq hcool hlong hforce hfree => throttleRelease_runs hq hcool hlong hforce hfree
  case force => exact fun s m hq hadm => done_write (eff := fun _ => wThrottleForce) hq hadm wThrottleForce_forced
  case clear =>
    intro s m hq hadm hcool hsound hshut
    exact done_write (eff := fun _ => wShutdownClear) hq hadm (wShutdownClear_cleared hcool hsound hshut)
  case peak => exact fun s m ty hq hreads => done_read hq hreads
  case power =>
    intro s m rates hq
    refine ⟨powerEstimated m.fresh (m.powerNominal rates), le_powerEstimated _ _, powerEstimated_le _ _, fun m1 hm1 => ?_⟩
    subst hm1
    exact done_run hq rfl

end
section
/-! The output balls. -/

namespace Sys2Proof.Machine

open Sys2Proof

section balls

variable {m : Mach}

/-- A ball holds its reset state in reset, where its unit is absent, and in recovery mode but for the networks. -/
theorem ball_held {b : Ball} (h : m.ballPresent b = false ∨ m.sup = .reset ∨ (m.sup = .recovery ∧ b.network = false)) :
    m.ball b = b.resetLevel := if_pos h

/-- A ball whose unit is present and free of reset carries what its function gives it. -/
theorem ball_runs {b : Ball} (hpresent : m.ballPresent b = true) (hreset : m.sup ≠ .reset)
    (hrecovery : m.sup = .recovery → b.network = true) :
    m.ball b = m.ballRuns b := by
  refine if_neg (not_or.mpr ⟨by simp [hpresent], not_or.mpr ⟨hreset, ?_⟩⟩)
  rintro ⟨hsup, hnetwork⟩
  simp [hrecovery hsup] at hnetwork

theorem resetTo_sup (cause clkFail : Nat) : (m.resetTo cause clkFail).sup = .reset := by
  unfold Mach.resetTo
  dsimp only
  split
  · exact Mach.puts_sup _ _
  · exact (Mach.puti_sup ..).trans (Mach.puts_sup _ _)

/-! ### Strobes -/

theorem strobeOn_forced {hp : Nat} (hforced : m.strobesForced hp = true) (n : Nat) : m.strobeOn hp n = false := by
  simp only [Mach.strobeOn, hforced, Bool.not_true, Bool.false_and]

theorem polarLevel_off (activeHigh : Bool) : polarLevel activeHigh false = if activeHigh then .low else .high := by
  cases activeHigh <;> rfl

/-! ### The laser station with the diodes off -/

section diodes

variable (hoff : m.diodesOff = true)

include hoff

theorem beamsFree_off : m.beamsFree = false := by
  simp only [Mach.beamsFree, hoff, Bool.not_true, Bool.false_and]

theorem apcOn_off (beam : Nat) : m.apcOn beam = false := by
  simp only [Mach.apcOn, beamsFree_off hoff, Bool.false_and]

theorem sosOn_off : m.sosOn = false := by
  simp only [Mach.sosOn, beamsFree_off hoff, Bool.false_and]

theorem eosLit_off : m.eosLit = false := by
  simp only [Mach.eosLit, Mach.eosOn, hoff, Bool.not_true, Bool.and_false, Bool.false_and]

theorem laserBall_vid_off (beam : Nat) : m.laserBall (.vid beam) = .low := by
  simp [Mach.laserBall, apcOn_off hoff, sosOn_off hoff, eosLit_off hoff, beamsFree_off hoff]

theorem laserBall_lden_off (beam : Nat) : m.laserBall (.lden beam) = .low := by
  simp [Mach.laserBall, beamsFree_off hoff]

theorem laserBall_apc_off (beam : Nat) : m.laserBall (.apc beam) = .low := by
  simp [Mach.laserBall, apcOn_off hoff]

end diodes

end balls

end Sys2Proof.Machine

open Sys2Proof Sys2Proof.Machine

/-- Settles O60: that the networks' balls run in recovery mode, where R428 says every output holds its reset state, and what a
disabled diode path drives are the model's choice (log entry 290). -/
theorem ballLevels : Obligations.BallLevels := by
  refine ⟨fun m b h => ball_held h, ?vmonReset, ?phyReset, ?strobes, ?diodes⟩
  case vmonReset =>
    intro s m mv hq hlow
    exact ⟨_, vmonReset_runs hq hlow, fun b => ball_held (.inr (.inl (resetTo_sup 3 0)))⟩
  case phyReset => exact fun m en hreset => ball_runs rfl hreset fun _ => rfl
  case strobes =>
    intro m hp n hpresent hreset hrecovery hheld hforced
    have hruns : m.ball (.head hp (.stb n)) = m.headBall hp (.stb n) :=
      ball_runs (decide_eq_true hpresent) hreset fun h => absurd h hrecovery
    rw [hruns]
    exact (if_pos hheld).trans (by rw [strobeOn_forced hforced, polarLevel_off])
  case diodes =>
    intro m beam hlaser hreset hrecovery hoff
    have hruns (b : LaserBall) : m.ball (.laser b) = m.laserBall b := ball_runs hlaser hreset fun h => absurd h hrecovery
    rw [hruns, hruns, hruns]
    exact ⟨laserBall_vid_off hoff beam, laserBall_lden_off hoff beam, laserBall_apc_off hoff beam⟩

end
